-- ==== Sys2Proof/Word.lean ====
section
/-! DEFINITION. The word types of the block: a register or structure word is 32 bits (00_scope.md R13), a stored SRAM
byte carries 13 bits (04_memory.md R110). Bit-field and byte-order helpers stand in Machine/Ops.lean. -/

namespace Sys2Proof

/-- A word of 32 bits (R13). -/
abbrev Word := BitVec 32

/-- A byte. -/
abbrev Byte := BitVec 8

/-- A field of 16 bits. -/
abbrev Half := BitVec 16

/-- An SRAM byte as stored: data d7..d0 in bits 7..0, check bits c4..c0 in bits 12..8 (R110). -/
abbrev Stored := BitVec 13

end Sys2Proof
end

