-- ==== Sys2Proof/Syntax.lean ====
section
/-! DEFINITION. The commands of the block: one constructor of `Instr` per row of spec/opcode_table.json, in the table's
order, and the types their operands are made of. An operand carries only what comes from outside the package: a packet and
the host memory it names, a frame off a lane, an encoder edge, a flash or regulator answer, a physical upset. -/

namespace Sys2Proof

/-- A command packet as the interpreter holds it (02_host_commands.md Table 2-3): the ring and slot it was fetched from and
its 16 words. -/
structure Packet where
  urgent : Bool
  slot : Nat
  words : List Word
  deriving DecidableEq, Repr

/-- What the read of a ring slot returns (R53, R57): the slot's words, or a PCIe error; `env` is the outside data the
command named in the slot will meet (host memory it reads, flash answers, measured values), as its own row takes it. -/
inductive SlotRead where
  | error
  | words (ws : List Word) (env : List Word)
  deriving DecidableEq, Repr

/-- What a DRAM's mode registers and training give a die at boot (R95, R96, R98): data rate code of MEM_INFO, capacity in
GiB, ranks minus one, link ECC support; bits that upsets have flipped in the check word of the saved training values; whether a
fast verification passes; the values that a full training finds and its margins, as the MEMORY item's values (17 Table 17-3)
and quality word (Table 17-4). -/
structure DramReport where
  rate : Nat
  capacityGib : Nat
  ranks : Nat
  linkEcc : Bool
  flip : Word
  fastOk : Bool
  values : List Int
  margins : Nat
  deriving DecidableEq, Repr

/-- A flash bank's content from its first word up (R444), erased beyond; and what SHA-384 and ECDSA P-384, which the spec
takes from outside, say of it (R446): the key hashes to the fused value, the signature is valid, every image matches its
digest. -/
structure BankImage where
  content : List Word
  keyOk : Bool
  signatureOk : Bool
  digestsOk : Bool
  deriving DecidableEq, Repr

/-- A DMA channel: class D channel i of die 0, or move channel k of a die (Table 3-1). -/
inductive DmaChan where
  | classD (i : Nat)
  | move (die k : Nat)
  deriving DecidableEq, Repr

/-- The answer to a descriptor fetch: a completion error (R84), or the 8 descriptor words and the scatter-gather list's
words; `sglError` names the list entry whose read failed (R83). -/
inductive DescRead where
  | error
  | words (ws sgl : List Word)
  deriving DecidableEq, Repr

/-- The outcome of one burst (R83, R88): the bytes moved (for a host read, or a move's source), with a correctable link error
in a DRAM read or without (R108), or an error at the scatter-gather entry given (for a DRAM source, an uncorrectable one). -/
inductive BurstRead where
  | error (entry : Nat)
  | bytes (bs : List Byte)
  | corrected (bs : List Byte)
  deriving DecidableEq, Repr

/-- What the render-ahead reader's read of its next block returns (R108, R194): granules with a correctable link error,
granules read again after an uncorrectable one, and what the reader sees in place of the stored index entry and of the raw data
where the DRAM holds something else (`data` is none where a stream does not decompress); or `missing`: two uncorrectable errors
of one granule. -/
inductive RaRead where
  | read (corrected retried : Nat) (entry : Option (List Word)) (data : Option (Option (List Byte)))
  | missing
  deriving DecidableEq, Repr

/-- What a physical fault makes of a value that Lattice computes for a beam (08 R216, 01 R23): the P1 that enters the pass
target, the k-th factor of R203, the beam's code, or the record once its check value is taken. -/
inductive StrikeAt where
  | target (p1 : Nat)
  | factor (k v : Nat)
  | code (q : Nat)
  | record
  deriving DecidableEq, Repr

/-- A physical fault in the record of a group at a shot, at a slot index. -/
structure Strike where
  shot : Nat
  group : Nat
  index : Nat
  value : StrikeAt
  deriving DecidableEq, Repr

/-- A PTP message as the port receives it (R331, R336): domain number, sender identity (a clock identity and port),
sequence, the message's own time and the local receive time at the ball in 2^-8 ns, correction field in 2^-16 ns, the
two-step flag. -/
structure PtpMsg where
  domain : Nat
  source : Nat
  seq : Nat
  time : Nat
  correction : Int
  twoStep : Bool
  rxTime : Nat
  deriving DecidableEq, Repr

/-- The commands. -/
inductive Instr where
  -- reset, power and boot
  | powerOnReset (record : List Word)
  | aonSupplyLost
  | perstAsserted
  | perstDeasserted (record : List Word)
  | wakeNLow (record : List Word)
  | railStepComplete
  | railFailure (entry : Nat)
  | bootStart (drams : List DramReport)
  | bootComplete (compFail : List Nat) (crcFail : List (Nat × Nat))
  | warmReset
  | softwareReset
  | hotReset
  | functionLevelReset
  | linkDown
  | d3hotEntry
  -- rings
  | hifDbNcmdWrite (value : Word)
  | hifDbUcmdWrite (value : Word)
  | hifDbStatWrite (value : Word)
  | normalRingEnable
  | normalRingDisable
  | urgentRingEnable
  | urgentRingDisable
  | statusRingEnable
  | statusRingDisable
  | normalCommandFetch (slot : SlotRead)
  | urgentCommandFetch (slot : SlotRead)
  | irqCoalesceTimeout
  -- interpreter commands
  | nop (p : Packet)
  | info (p : Packet)
  | state (p : Packet)
  | clear (p : Packet)
  | reset (p : Packet)
  | arm (p : Packet)
  | disarm (p : Packet)
  | cfgPixelPitch (p : Packet)
  | cfgDeviceId (p : Packet)
  | cfgRenderAhead (p : Packet)
  | tableLoad (p : Packet) (env : List Word)
  | tableRead (p : Packet)
  | libLoad (p : Packet) (env : List Word)
  | libBlockReceived (lib : Nat) (block : List Word)
  | libDrop (p : Packet)
  | geoBind (p : Packet)
  | stripeSubmit (p : Packet)
  | makeupSubmit (p : Packet)
  | stripeAbort (p : Packet)
  | ledgerRead (p : Packet)
  | ledgerStream (p : Packet)
  | ledgerRelease (p : Packet)
  | axisConfig (p : Packet)
  | axisParam (p : Packet)
  | axisHome (p : Packet)
  | axisMove (p : Packet)
  | axisStop (p : Packet)
  | locusConfig (p : Packet)
  | compareSet (p : Packet)
  | timeConfig (p : Packet)
  | timeRead (p : Packet)
  | timeTrigger (p : Packet)
  | chordConfig (p : Packet) (env : List Word)
  | roleSet (p : Packet)
  | chordSend (p : Packet)
  | laneTrain (p : Packet)
  | lanePower (p : Packet)
  | laneRetire (p : Packet)
  | laneStatus (p : Packet)
  | headQuery (p : Packet)
  | pulseTableLoad (p : Packet) (env : List Word)
  | calRun (p : Packet)
  | calRunComplete
  | calRead (p : Packet)
  | calStore (p : Packet) (env : List Word)
  | faultRead (p : Packet)
  | safeDarkReq (p : Packet)
  | dieRetire (p : Packet)
  | faultInject (p : Packet) (env : List Word)
  | updateStage (p : Packet)
  | updateStageComplete (flashFail : Option Nat) (image : BankImage)
  | updateActivate (p : Packet)
  | updateConfirm (p : Packet)
  | updateFallback (p : Packet)
  | counterSnapshot (p : Packet)
  | counterStream (p : Packet)
  | scrubRun (p : Packet)
  | powerStandby (p : Packet)
  | thermalRead (p : Packet) (env : List Word)
  | thermalConfig (p : Packet)
  -- BAR0
  | laneSelWrite (value : Word)
  | laneRetrainRequest
  | laneErrorInject
  | locusDinFlagClear (din : Nat) (flags : Nat)
  | datumTimeLatch
  | devTimeLatch
  | counterLoRead (die : Nat) (offset : Nat)
  | registerWrite (addr width : Nat) (value : Word) (firmware : Bool)
  -- DMA
  | dmaDoorbell (ch : Nat)
  | dmaRunSet (ch : Nat)
  | dmaRunClear (ch : Nat)
  | dmaAbort (ch : Nat)
  | dmaOwnerWrite (ch : Nat) (firmware : Bool)
  | dmaFetchErrorClear (ch : Nat)
  | dmaRingBaseWrite (ch : Nat) (high : Bool) (value : Word)
  | dmaDescriptorFetch (ch : DmaChan) (answer : DescRead)
  | dmaBurst (ch : DmaChan) (answer : BurstRead)
  | dmaTEnable (ch : Nat)
  | dmaTRdptrWrite (ch : Nat) (value : Word)
  | classTRecordWrite (ch : Nat)
  -- data path
  | stagingBlockArrival (area : Nat)
  | stripeRenderBegin
  | tesseraCoarseBand (die : Nat)
  | tesseraFineBand (die : Nat)
  | libraryFetch (die : Nat) (corrected ok1 ok2 : Bool)
  | facetTileRender (die : Nat) (upset : Int)
  | densityPacketRx (die owner : Nat) (received : Option (List Word))
  | stripePassStop (die stripe pass : Nat)
  | longRangeRow (die : Nat)
  | renderBlock (die : Nat) (verifyFails : Bool)
  | renderAheadRead (die : Nat) (answer : RaRead) (upset : Option (Nat × Nat × Stored))
  -- memory
  | refreshInterval (die : Nat)
  | makeUpBurstRefresh (die : Nat)
  | periodicRetraining (die : Nat)
  | maxDeferExpiry (die : Nat)
  | scrubRead (die : Nat) (upsets : List (Nat × Stored))
  -- writing
  | shotPulse (t : Nat) (readbackFault : Bool) (strikes : List Strike)
  | passEnd
  | stripeComplete
  | prefillComplete
  | seqPauseExpiry
  | approachBegin (strikes : List Strike)
  -- Locus
  | trackingMeasurement (src : Nat)
  | restMeasurement (src : Nat)
  | abEdge (src : Nat) (a b z : Bool) (t : Nat)
  | sincosSample (src : Nat) (sin cos : Int) (t : Nat)
  | bissCycleStart (src : Nat) (t : Nat)
  | bissDataReceived (src : Nat) (bits : List Bool) (delay : Nat)
  | bissTimeout (src : Nat)
  | lineFault (src : Nat)
  | zStuck (src : Nat)
  | indexEvent (src : Nat) (count : Int)
  | speedWindowEnd (src : Nat)
  | deviation (axis : Nat)
  | sourceRevalid (src : Nat)
  | dinChange (din : Nat) (level : Bool)
  | dinDebounce (din : Nat)
  | dinStuck (din : Nat)
  -- Arc
  | profileTick
  | setpointPacketTx
  | setpointStatusRx (words : List Word)
  | setpointStatusTimeout
  | stall (axis : Nat)
  | moveComplete (axis : Nat)
  | homingSearchLimit (axis : Nat)
  -- Datum and Chord
  | triggerFire (trigger : Nat)
  | sync (port : Nat) (m : PtpMsg)
  | followUp (port : Nat) (m : PtpMsg)
  | delayResp (port : Nat) (m : PtpMsg)
  | announce (port : Nat) (m : PtpMsg) (dataset : List Nat)
  | pdelayReq (port : Nat) (m : PtpMsg)
  | pdelayResp (port : Nat) (m : PtpMsg)
  | pdelayRespFollowUp (port : Nat) (m : PtpMsg)
  | delayReqSend (port : Nat) (domain : Nat)
  | syncTimeout (domain : Nat)
  | announceReceiptTimeout (domain : Nat)
  | deviceTimeStep
  | arpRequest (port : Nat) (mac ip target : Nat)
  | icmpEchoRequest (port : Nat) (words : List Word)
  | ethernetLinkChange (port : Nat) (up : Bool) (rate : Nat)
  | data (port : Nat) (words : List Word)
  | ack (port : Nat) (words : List Word)
  | staleRole (port : Nat) (words : List Word)
  | roleAnnounce (port : Nat) (words : List Word)
  | syncReady (port : Nat) (words : List Word)
  | syncGo (port : Nat) (words : List Word)
  | syncReadySend
  | stitchOffer (port : Nat) (words : List Word)
  | ledgerBatch (port : Nat) (words : List Word)
  | ledgerBatchSend
  | chordRetransmit (dest : Nat)
  -- lanes
  | forwardFrameTx (lane : Nat) (control : Bool)
  | returnFrameRx (lane : Nat) (bits : List Bool) (eye : Option (Nat × Nat))
  | returnFrameMissing (lane : Nat)
  | echoTimeout (lane : Nat)
  | firedReportMissing (lane : Nat) (shot : Nat)
  | controlElementResend (lane : Nat)
  | tempReportTimeout (lane : Nat)
  | laneTrainStepDone (lane : Nat)
  | rateCheckDone (lane : Nat) (failed : Nat) (eyeRet : Nat × Nat)
  | laneTrainTimeout (lane : Nat)
  | retrainComplete (lane : Nat)
  | retrainBoundExpiry (lane : Nat)
  | laneDrainEnd (lane : Nat)
  -- safety
  | headTripNAsserted
  | headTripNDeasserted
  | darkNAsserted
  | darkNDeasserted
  | faultReport (cause die unit : Nat) (detail0 detail1 : Word)
  | faultPolicyStep
  | watchdogTimeout (die : Nat)
  | lockstepMismatch (die : Nat)
  | clockMonitorFault (die clock : Nat)
  | voltageMonitorFault (die rail : Nat) (status : List Nat)
  | fabricHopFault (die port : Nat)
  -- power at run time
  | pmbusAlert (monitorFault : Bool)
  | pmbusTransaction (entry : Nat) (ok : Bool)
  | pmbusTelemetry (pout : List Nat)
  | sensorConversion (die sensor : Nat) (reading : Int) (failed : Bool)
  | housekeepingRoundEnd (slack : List Nat)
  | guardRound (die : Nat)
  -- calibration and counters
  | calMeasurement (die item index : Nat) (value : Int) (quality : Nat)
  | calStep (die item index : Nat)
  | sensorCalComplete (offsets : List (Nat × Nat × Int))
  | mirrorSnapshot
  | counterStreamPeriod
  -- compression and check values
  | compJobStart (die : Nat) (control : Word)
  | compContextSave (die : Nat)
  | compContextRestore (die : Nat)
  | compJobDone (die : Nat)
  | crcStart (die unit : Nat) (control : Word)
  | crcData (die unit : Nat) (value : Word)
  | crcData8 (die unit : Nat) (value : Byte)
  | crcValueWrite (die unit : Nat) (value : Word)
  | crcBytesWrite (die unit : Nat) (value : Word)
  | d3hotExit
  | irregularBar0Read (addr width dwords : Nat)
  deriving DecidableEq, Repr

end Sys2Proof
end

