-- ==== Sys2Proof/Config.lean ====
section
/-! DEFINITION. What the manual leaves open (free values) and what an implementation fixes. A free value is an opaque
function without a body: no proof can see a value of it. Each names the rule that leaves it open. -/

namespace Sys2Proof.Config

/-- R161: coverage, in units of 2^-20 pixel, of a pixel the circle of radius `r` crosses; it depends only on the radius
and on the centre's place relative to the pixel's lower-left corner. Callers hold it within 4 units of the exact area. -/
opaque discCoverage (r : Nat) (dx dy : Int) : Nat

/-- R166, R169: the rounding of a disc's area within a box, in units of 2^-10 pixel, where the model's bounds of the exact area
do not decide it. Callers hold it between the bounds' roundings. -/
opaque discArea (r : Nat) (x0 y0 x1 y1 : Int) : Nat

/-- R102: the bank (callers take it below 16) and the row that hold a DRAM granule of 64 bytes; the row of a bank that holds a
granule of the render-ahead buffer. -/
opaque dramBank (granule : Nat) : Nat
opaque dramRow (granule : Nat) : Nat
opaque renderRow (granule : Nat) : Nat

/-- 01 R19: bytes that a piece with the number of vertices given takes in the tile queue. -/
opaque pieceBytes (vertices : Nat) : Nat

/-- R359: bits the compressor emits for a render block; only that the stream decodes to its input is fixed, so only its
length matters. The argument is the model's free-value counter. -/
opaque compressedLength (n : Nat) : Nat

/-- R358, R359: the bits the compressor emits for a segment, from the free-value counter, the table choice, BFINAL, the history
and the segment; the verify decompressor judges them. -/
opaque codedBlock (n : Nat) (dynamic final : Bool) (hist segment : List Byte) : List Bool

/-- R298: the tracking loop's next position estimate, in 2^-16 count, from the bandwidth code, the estimate, the
velocity estimate and the residual. -/
opaque trackPosition (bandwidth : Nat) (pos vel resid : Int) : Int

/-- R298: the tracking loop's next velocity estimate (1/256 count per µs). -/
opaque trackVelocity (bandwidth : Nat) (pos vel resid : Int) : Int

/-- R284: the phase of a sin/cos pair, offset and gain corrected, in 1/4,096 period, where the rule's words leave it open: how the
phase correction (2^-16 rad) acts, and the phase of two signals that are both 0. -/
opaque sincosPhase (sin cos phase : Int) : BitVec 12

/-- R315: the jerk-limited profile's next acceleration (2^-24 count per µs²) from position, velocity, acceleration, goal, the
limits of velocity, acceleration, deceleration and jerk, and the tick counter. Callers keep it within the rule's limits. -/
opaque profileAcceleration (pos vel acc goal : Int) (velMax accMax decMax jerk tick : Nat) : Int

/-- R315: the profile's next commanded velocity (1/256 count per µs); callers bound it by the accelerations of the tick. -/
opaque profileVelocity (pos vel acc goal : Int) (velMax accMax decMax jerk tick : Nat) : Int

/-- R315: the profile's next commanded position (2^-16 count); callers bound it by the velocities of the tick. -/
opaque profilePosition (pos vel acc goal : Int) (velMax accMax decMax jerk tick : Nat) : Int

/-- R337: a domain's estimate (lead over the device time, 2^-48 ns) after an accepted sample that differs from it by the second
argument. -/
opaque domainOffset (offset sample : Int) : Int

/-- R337: a domain's rate (0.001 ppm) after an accepted sample. -/
opaque domainRate (rate sample : Int) : Int

/-- R345: the session a boot draws from its hardware random source, by the model's free-value counter. -/
opaque session (n : Nat) : Word

/-- R46 names the device id and the class code of configuration space; the vendor id and the revision id are free. -/
opaque vendorId : BitVec 16
opaque revisionId : BitVec 8

/-- A free word: a value the manual leaves open, by the model's free-value counter. -/
opaque freeWord (n : Nat) : Word

end Sys2Proof.Config
end

