-- ==== Sys2Proof/Machine/Crc.lean ====
section
/-! DEFINITION. Words as bytes, and the check value CRC-32C (00_scope.md R13, 05_geometry_stream.md R119). -/

namespace Sys2Proof.Machine

/-! ### Words and bytes, little-endian (00_scope.md R13) -/

def wordBytes (w : Word) : List Byte := [w.extractLsb' 0 8, w.extractLsb' 8 8, w.extractLsb' 16 8, w.extractLsb' 24 8]

def wordsBytes (ws : List Word) : List Byte := ws.flatMap wordBytes

/-- Words of a byte list; a final part-word is filled with 0. -/
def bytesWords : List Byte → List Word
  | b0 :: b1 :: b2 :: b3 :: rest => (b3 ++ b2 ++ b1 ++ b0) :: bytesWords rest
  | [] => []
  | [b0] => [(0#24) ++ b0]
  | [b0, b1] => [(0#16) ++ b1 ++ b0]
  | [b0, b1, b2] => [(0#8) ++ b2 ++ b1 ++ b0]

/-- Word i of a list, 0 beyond its end. -/
def wordAt (ws : List Word) (i : Nat) : Nat := (ws.getD i 0).toNat

/-- Two words as a 64-bit number, low word first. -/
def word64 (ws : List Word) (i : Nat) : Nat := wordAt ws i + wordAt ws (i + 1) * 2 ^ 32

def lo32 (n : Nat) : Word := BitVec.ofNat 32 n

def hi32 (n : Nat) : Word := BitVec.ofNat 32 (n / 2 ^ 32)

/-! ### CRC-32C (05_geometry_stream.md R119) -/

/-- One bit of the reflected CRC loop. -/
def crcStep (c : Word) : Word := if c.getLsbD 0 then (c >>> 1) ^^^ 0x82F63B78 else c >>> 1

/-- One byte of the loop. -/
def crcByte (c : Word) (b : Byte) : Word :=
  crcStep (crcStep (crcStep (crcStep (crcStep (crcStep (crcStep (crcStep (c ^^^ b.setWidth 32))))))))

/-- CRC-32C of bytes from a seed. -/
def crc32c (seed : Word) (bs : List Byte) : Word := bs.foldl crcByte seed ^^^ 0xFFFFFFFF

def crcWords (seed : Word) (ws : List Word) : Word := crc32c seed (wordsBytes ws)

end Sys2Proof.Machine
end

