-- ==== Sys2Proof/Machine/State.lean ====
section
/-! DEFINITION. The state of the block as plain data, its faults and refusals, and the state after reset. Each field's
docstring gives its meaning and, in brackets, its width, the rule that names it and its reset value; DC marks a reset value
that the spec does not give (DESIGN CHOICE, notes/assumptions/1.md). -/

namespace Sys2Proof.Machine

/-- Reasons to stop with a fault. No command of this block stops: detected faults are data (15_safety_faults.md R379). -/
inductive Fault where
  /-- Never raised: kept so that the type has a member. Safe. -/
  | none
  deriving DecidableEq, Repr

/-- Reasons to refuse a command. -/
inductive Refusal where
  /-- Raised by exec for a row that has no meaning yet. Safe. -/
  | notModelled (mnemonic : String)
  deriving DecidableEq, Repr

/-! ### Device control -/

/-- Variant (00_scope.md Table 0-1). -/
inductive Variant where
  | dg8 | dg4 | dg2
  deriving DecidableEq, Repr

/-- Device states (01_architecture.md Table 1-7). -/
inductive DevState where
  | off | standby | configured | armed | writing | safeDark | halted
  deriving DecidableEq, Repr

/-- Where power-up and boot stand (16_power_thermal.md R406, 18_boot_update.md R448). -/
inductive BootPhase where
  /-- Not powering up: rails without keep are off, or the device runs or is halted. -/
  | idle
  /-- The rail sequence runs at the record's step given (R406). -/
  | rails (step : Nat)
  /-- Domains on; the boot ROM may start (BOOT_START). -/
  | rom
  /-- A bank was chosen and verified; firmware loads (BOOT_COMPLETE). -/
  | loading
  deriving DecidableEq, Repr

/-- What a requested reset will be and why (R438, BOOT_CAUSE). -/
inductive ResetKind where
  | warm | software | sramError | activation | fallBack
  deriving DecidableEq, Repr

/-- Values fused into the silicon. -/
structure Fuses where
  /-- Variant [2; 00 Table 0-1; DC DG-8] -/
  variant : Variant
  /-- DEV_IDENT.stepping [8; 19 DEV_IDENT 'Per silicon'; DC 0xA0] -/
  stepping : Nat
  /-- DEV_SERIAL [64; 19 DEV_SERIAL 'Fused'; DC 0] -/
  serial : BitVec 64
  /-- DEV_MAC base address, even [48; 19 R466 'Fused'; DC 0] -/
  mac : BitVec 48
  /-- DEV_FUSE.key_set [1; 18 R446 'Fused'; DC 1] -/
  keySet : Bool
  /-- DEV_FUSE.min_security [16; 18 R446 R455 'Fused'; DC 0] -/
  minSecurity : Nat
  deriving DecidableEq, Repr

/-- Device-level control state and device-global registers. -/
structure Ctl where
  /-- Device state [3; 01 R39; STANDBY after power-on reset release] -/
  dev : DevState
  /-- Power-up and boot phase [R406 R448; idle] -/
  boot : BootPhase
  /-- HIF_STATUS.ready: the interpreter accepts commands [1; 02 HIF_STATUS; 0] -/
  ready : Bool
  /-- PERST# asserted (pin low) [1; 18 R438; DC asserted] -/
  perst : Bool
  /-- Standby hold in AON [1; 16 R408; 0] -/
  hold : Bool
  /-- DEV_NUM.device_id [10; 19 DEV_NUM; 0] -/
  deviceId : Nat
  /-- Pixel pitch in pm [26; 02 R61 CFG_PIXEL_PITCH; DC 0] -/
  pixelPitch : Nat
  /-- Lane-assignment epoch, DEV_EPOCH [32; 08 R219; 0] -/
  epoch : Nat
  /-- Function in D3hot [1; 02 R48; 0] -/
  d3hot : Bool
  /-- Reset requested by RESET, a firmware update or an SRAM error, performed by the next WARM_RESET or SOFTWARE_RESET
  [18 R439 R451 R456, 04 R113; none] -/
  resetRequest : Option ResetKind
  /-- BOOT_CAUSE.cause [3; 18 BOOT_CAUSE; 0] -/
  bootCause : Nat
  /-- DARK_N low: asserted [1; 15 R375; DC high] -/
  darkN : Bool
  /-- HEAD_TRIP_N asserted [1; 09 R234; DC deasserted] -/
  headTripN : Bool
  /-- DEV_FW [32; 19 DEV_FW; 0] -/
  fw : Word
  /-- DEV_SCRATCH [32; 19 Table 19-2; 0] -/
  scratch : Word
  /-- DEV_ERR: unassigned, width, owned, state_locked in bits 0-3 [4; 19 DEV_ERR; 0] -/
  err : BitVec 4
  /-- DEV_IRQ_STAT.source [28; 19 R468; 0] -/
  irqStat : BitVec 28
  /-- MSI-X per-vector mask bits [64; 02 R50; PRESUMED all ones (PCI Express)] -/
  msixMask : BitVec 64
  /-- MSI-X pending bits [64; 02 R50 R49; 0] -/
  msixPending : BitVec 64
  /-- LANE_SEL.lane [7; 02 R69; 0] -/
  laneSel : Nat
  /-- LANE_SEL.wr_ignored [1; 02 R70; 0] -/
  laneWrIgnored : Bool
  /-- BOOT_STAT.alt_bank, fell_back, trials, bank [18 BOOT_STAT; 0] -/
  altBank : Bool
  fellBack : Bool
  trials : Nat
  bank : Nat
  /-- The fall-back flag in AON [1; 18 R454; 0] -/
  fallBackFlag : Bool
  deriving DecidableEq, Repr

/-! ### Host interface -/

/-- What identifies a command in its status entries (02 Table 2-4). -/
structure Ctx where
  tag : Nat
  opcode : Nat
  urgent : Bool
  slot : Nat
  noIrq : Bool
  /-- Ring generation at fetch: entries of an older generation are discarded (R49, R440). -/
  gen : Nat
  /-- The status ring generation in which the command holds reservations (R54); none if it holds none. -/
  held : Option Nat
  deriving DecidableEq, Repr

/-- A status entry (Table 2-4) before it gets its ring position and phase. -/
structure Entry where
  ctx : Ctx
  more : Bool
  status : Nat
  res : List Nat
  deriving DecidableEq, Repr

/-- A command ring (R51, R52). -/
structure CmdRing where
  /-- HIF_RING_CTRL enable bit [1; 02 HIF_RING_CTRL; 0] -/
  enabled : Bool
  /-- Ring base, bits 63..12 [64; 02 R51; 0] -/
  base : BitVec 64
  /-- log2 of the slot count [4; 02 R51; 4, urgent ring fixed 6] -/
  log2 : Nat
  /-- Device head index [13; 02 R52; 0] -/
  head : Nat
  /-- Host tail index, the doorbell [13; 02 R52; 0] -/
  tail : Nat
  deriving DecidableEq, Repr

/-- The status ring (R54-R56). -/
structure StatRing where
  /-- HIF_RING_CTRL.status_en [1; 02 HIF_RING_CTRL; 0] -/
  enabled : Bool
  /-- Ring base [64; 02 R51; 0] -/
  base : BitVec 64
  /-- log2 of the entry count [4; 02 R51; 6] -/
  log2 : Nat
  /-- Device tail index [13; 02 R54; 0] -/
  tail : Nat
  /-- Host head index, HIF_DB_STAT [13; 02 R54; 0] -/
  head : Nat
  /-- Phase of the next entry [1; 02 R55; 1] -/
  phase : Bool
  /-- Entries reserved for fetched normal-ring commands [13; 02 R54; 0] -/
  reserved : Nat
  /-- Grows when the ring is disabled and its reservations are released (model's own; 02 R56) [DC 0] -/
  gen : Nat
  deriving DecidableEq, Repr

/-- A one-entry command that has started and has not written its entry: it goes on in later steps (R64). -/
inductive Busy where
  | laneTrain (ctx : Ctx) (lanes : List Nat) (target : Nat)
  | lanePower (ctx : Ctx) (lanes : List Nat) (power : Nat)
  | pulseTable (ctx : Ctx) (lanes : List Nat) (image : List Byte) (switching : Bool) (done : List Nat)
  | activate (ctx : Ctx) (lanes : List Nat) (crc : Word) (arming : Bool) (done : List Nat)
  deriving DecidableEq, Repr

/-- The endpoint's configuration registers (02 R46, R47). -/
structure Pcie where
  /-- Base addresses of BAR0 and BAR2 [64, 64; 02 R47; PRESUMED 0 (PCI Express)] -/
  bar0 : BitVec 64
  bar2 : BitVec 64
  /-- Maximum payload size and maximum read request size, 128 * 2^code bytes [3, 3; 02 Table 2-1; PRESUMED 0 and 2 (PCI
  Express)] -/
  mps : Nat
  mrrs : Nat
  deriving DecidableEq, Repr

structure Hif where
  ncmd : CmdRing
  ucmd : CmdRing
  stat : StatRing
  /-- Holding queue of urgent entries, oldest first, at most 64 [02 R54; empty] -/
  holding : List Entry
  /-- Entries that became due in D3hot, written at its exit, oldest first [02 R48; empty] -/
  deferred : List Entry
  /-- A fetched normal-ring command held by its fence or for a free channel, with its outside data and the status ring
  generation of its reservations [02 R65, 03 R73; none] -/
  fenced : Option (Packet × List Word × Nat)
  /-- The one-entry command in progress [02 R64; none] -/
  busy : Option Busy
  /-- Normal-ring commands that have written an interim and owe a final entry [02 R60 R65; empty] -/
  owing : List Ctx
  /-- Ring generation: grows at every reset and link event that discards entries (model's own; 02 R49) [DC 0] -/
  gen : Nat
  /-- HIF_IRQ_COAL.time_us [16; 02 HIF_IRQ_COAL; 0] -/
  coalUs : Nat
  /-- HIF_IRQ_COAL.count [8; 02 HIF_IRQ_COAL; 1] -/
  coalCount : Nat
  /-- Entries written and not yet signalled on vector 0 [02 R71; 0] -/
  unsignalled : Nat
  /-- HIF_ERR: db_range, cfg_locked, fetch_err, status_err in bits 0-3 [4; 02 HIF_ERR; 0] -/
  err : BitVec 4
  deriving DecidableEq, Repr

/-! ### Perimeter -/

/-- A fault record (15_safety_faults.md Table 15-5). -/
structure FaultRecord where
  seq : Nat
  cause : Nat
  unit : Nat
  die : Nat
  permanent : Bool
  injected : Bool
  cls : Nat
  repeats : Nat
  preempted : Bool
  superseded : Bool
  closed : Bool
  storm : Bool
  action : Nat
  detail0 : Word
  detail1 : Word
  ns : Nat
  seconds : Nat
  /-- Kept beside the record for R495: the stripe-pass it concerns, whether its unit was already gone, whether the device
  was already in SAFE_DARK, and the count of entries into SAFE_DARK and HALTED, all at detection. -/
  about : Option (Nat × Nat)
  wasGone : Bool
  wasDark : Bool
  darks : Nat
  deriving DecidableEq, Repr

/-- Perimeter policy and its registers. -/
structure Perim where
  /-- The record whose handling is active and the policy steps it has had [15 R381 R494; none] -/
  active : Option (FaultRecord × Nat)
  /-- Queued records in handling order [15 R381; empty] -/
  waiting : List FaultRecord
  /-- Fault log, oldest first, at most 1,024 [15 R380 R386; empty] -/
  log : List FaultRecord
  /-- PERIM_LOG_NEXT [32; 15 Table 15-8; 0] -/
  nextSeq : Nat
  /-- PERIM_DROPPED [32 saturating; 15 R384; 0] -/
  dropped : Nat
  /-- PERIM_LOG_LOST [32 saturating; 15 R386; 0] -/
  logLost : Nat
  /-- PERIM_GATE_NS [16; 15 R399; 0] -/
  gateNs : Nat
  /-- PERIM_LAST_C4: cause and die [15 PERIM_LAST_C4; none] -/
  lastC4 : Option (Nat × Nat)
  /-- PERIM_STAT.storm [1; 15 R384; 0] -/
  stormSeen : Bool
  /-- Cause STORM active [1; 15 R384 R388; 0] -/
  stormActive : Bool
  /-- Cause PERMANENT: a permanent C3 fault of 0x0009, 0x0015, 0x0025 or 0x0026 since power-on [1; 15 R388; 0] -/
  permanent : Bool
  /-- Die 0 holds a cause under R394 [1; 15 R394; 0] -/
  die0Exhausted : Bool
  /-- Entries into SAFE_DARK and HALTED, counted for R495 (model's own) [DC 0] -/
  darks : Nat
  /-- Every safe-dark gate closed [1; 15 R373; 1] -/
  gateClosed : Bool
  /-- REPLACE_ADVISED as last signalled [1; 15 R395; 0] -/
  replace : Bool
  /-- A pixel column of the effective table is uncompensable [1; 08 R213; 0] -/
  uncomp : Bool
  deriving DecidableEq, Repr

/-! ### Geometry, libraries and tables -/

/-- A point in spu. -/
structure Pt where
  x : Int
  y : Int
  deriving DecidableEq, Repr

/-- An axis-aligned box in spu (R129). -/
structure Box where
  x0 : Int
  y0 : Int
  x1 : Int
  y1 : Int
  deriving DecidableEq, Repr

/-- A path segment: an optional quadratic control point and the end point (05 Table 5-3 PATH). -/
structure PathSeg where
  control : Option Pt
  stop : Pt
  deriving DecidableEq, Repr

/-- A primitive of a cell definition (Table 5-3). -/
inductive Prim where
  | rect (x0 y0 x1 y1 : Int)
  | trap (axis : Bool) (y0 y1 xl0 xr0 xl1 xr1 : Int)
  | poly (evenOdd : Bool) (pts : List Pt)
  | path (evenOdd : Bool) (start : Pt) (segs : List PathSeg)
  | disc (c : Pt) (r : Nat)
  deriving DecidableEq, Repr

/-- A PLACE or ARRAY record: orientation, cell, offset, and columns, rows and pitches (1, 1, 0, 0 for a PLACE). -/
structure Place where
  orient : Nat
  cell : Nat
  ox : Int
  oy : Int
  nx : Nat
  ny : Nat
  px : Int
  py : Int
  deriving DecidableEq, Repr

/-- A cell definition of a library (R130): its primitives with their classes and its placements, each in stream order, and the
order of the two among each other: `marks` is true for a primitive. -/
structure Cell where
  id : Nat
  prims : List (Nat × Prim)
  places : List Place
  marks : List Bool
  extent : Option Box
  depth : Nat
  deriving DecidableEq, Repr

/-- A library load in progress (R131): next seq expected, blocks in the list, whether a part-block follows, the first
malformed list entry, the cell being defined with its current class and record bytes. -/
structure Load where
  ctx : Ctx
  next : Nat
  total : Nat
  partBlock : Bool
  badEntry : Option Nat
  cell : Option Cell
  cls : Nat
  bytes : Nat
  deriving DecidableEq, Repr

/-- A cell library, installed or loading (R131). -/
structure Library where
  id : Nat
  cells : List Cell
  /-- Payload bytes held, for R134. -/
  payload : Nat
  load : Option Load
  deriving DecidableEq, Repr

/-- A pass mask (08 Table 8-1). -/
structure PassMask where
  log2k : Nat
  select : BitVec 64
  weights : List Nat
  deriving DecidableEq, Repr

/-- A stitch ramp (Table 8-2). -/
structure Ramp where
  w : Nat
  ramp : List Nat
  deriving DecidableEq, Repr

/-- One generation of every table (R62, R178). -/
structure Tables where
  /-- Generation counters of tables 0x01-0x07 [32 each; 07 R178; 0] -/
  gens : List Nat
  /-- Dose and ceiling of each class [256 of 2 x 16; 07 Table 7-5; 0] -/
  classes : List (Nat × Nat)
  /-- Long-range radius and coefficients, row by row [07 Table 7-5; k = 0, 0] -/
  lrK : Nat
  lrCoef : List Nat
  /-- Correction table scale and factors [07 Table 7-5; s = 12, all 0x4000] -/
  corrS : Nat
  corrT : List Nat
  /-- Short-range radius and coefficients [07 Table 7-5; r = 0, 0x4000] -/
  srR : Nat
  srCoef : List Int
  /-- Pass mask slots [16; 08 R200; K = 1, select 1, weights 0x8000] -/
  masks : List PassMask
  /-- Stitch ramp slots [16; 08 R201; w = 0] -/
  ramps : List Ramp
  /-- Beam entries (status, gain) that differ from live, 0x800, by beam index [16 each; 08 R205; none differ] -/
  beams : List (Nat × Nat × Nat)
  deriving DecidableEq, Repr

/-- COMPLEXITY of one segment (Table 5-3): active bound, and (edge_px, prims) per column block. -/
structure SegBound where
  active : Nat
  blocks : List (Nat × Nat)
  deriving DecidableEq, Repr

/-- A stripe's header section (R136): STRIPE_ROOT, COMBINE and COMPLEXITY. -/
structure Root where
  stripe : Nat
  lib : Nat
  rows : Nat
  sx : Int
  sy : Int
  firstBlock : Nat
  blocks : Nat
  streamBlocks : Nat
  additive : List Nat
  segs : List SegBound
  deriving DecidableEq, Repr

/-- A staged DGS block. -/
structure Block where
  seq : Nat
  lib : Nat
  payload : List Word
  deriving DecidableEq, Repr

/-- A geometry staging area (R144, R145) and its registers (Table 5-8). -/
structure Area where
  /-- Bound stripe id [32; 05 DGS_SG_STRIPE; none = 0xFFFF_FFFF] -/
  bound : Option Nat
  /-- Class D channel bound [3; 03 R74; 0] -/
  channel : Nat
  /-- First block sequence [64; 05 R143; 0] -/
  first : Nat
  /-- Lowest unreleased sequence [64; 05 R145; 0] -/
  lowest : Nat
  /-- Staged blocks in their slots [2,048 slots; 05 R144; empty] -/
  blocks : List Block
  /-- Bytes of the block being assembled from the channel's stream, at most 65,536 [05 R145; empty] -/
  bytes : List Byte
  /-- The complete block that waits for its slot, its channel paused (R145 case 4) [05 R145; none] -/
  held : Option Block
  /-- Header section, once complete and valid [05 R136; none] -/
  root : Option Root
  /-- DGS_SG_STAT.cause [8; 05 Table 5-8; 0] -/
  cause : Nat
  under : Bool
  fault : Bool
  waiting : Bool
  /-- DGS_SG_EXPECT [64; 05 Table 5-8; 0] -/
  expect : Nat
  bad : Nat
  discard : Nat
  part : Nat
  faultSeq : Nat
  faultOff : Nat
  deriving DecidableEq, Repr

/-! ### Stripes and the ledger -/

/-- Stripe phases (09 Table 9-2); DONE stripes are removed. -/
inductive Phase where
  | queued | prefill | ready | running | ret
  deriving DecidableEq, Repr

/-- A pass descriptor (Table 9-1). -/
structure PassDesc where
  mask : Nat
  ix : Nat
  iy : Nat
  deriving DecidableEq, Repr

/-- A ledger entry (Table 9-6a). -/
structure LedgerEntry where
  stripe : Nat
  cause : Nat
  unconfirmed : Bool
  makeup : Bool
  pass : Nat
  group : Nat
  groups : Nat
  first : Nat
  count : Nat
  epoch : Nat
  lane : Nat
  ns : Nat
  seconds : Nat
  deriving DecidableEq, Repr

/-- What a make-up stripe names (R245): first entry and count, the source stripe's id and since-index (Source), and the
named entries with unconfirmed = 0. -/
structure Makeup where
  first : Nat
  count : Nat
  stripe : Nat
  since : Nat
  named : List LedgerEntry
  deriving DecidableEq, Repr

/-- What a make-up stripe needs of a source stripe (R245, R246), kept while an entry of it is unreleased: the stripe's
description, the ledger index of its first entry (which tells apart stripes with one id), its beam snapshot, the code dose
table of each lane, and the groups of each lane at each lane-assignment epoch of its entries. -/
structure Source where
  stripe : Nat
  since : Nat
  root : Root
  tables : Tables
  passes : List PassDesc
  ramps : List Nat
  snapshot : List (Nat × Nat × Nat)
  ceiling : Nat
  uncomp : List (Nat × Nat)
  codes : List (Nat × List Nat)
  lanesAt : List (Nat × List (Nat × Nat × Nat))
  makeup : Option Makeup
  deriving DecidableEq, Repr

/-- An admitted stripe (R220-R222). -/
structure Stripe where
  id : Nat
  ctx : Ctx
  root : Root
  area : Nat
  passes : List PassDesc
  /-- Ramp slots: west, east, south, north. -/
  ramps : List Nat
  startMode : Nat
  startPos : Int
  stepPos : Int
  startRef : Nat
  /-- Admitted rate, kHz, and prefill depth, rows (R224). -/
  rate : Nat
  prefill : Nat
  tables : Tables
  /-- Effective beam entries at admission, sparse as Tables.beams (R206). -/
  snapshot : List (Nat × Nat × Nat)
  ceiling : Nat
  /-- Uncompensable (pass, column) pairs (R213). -/
  uncomp : List (Nat × Nat)
  /-- Make-up stripes: what they name (R245). -/
  makeup : Option Makeup
  phase : Phase
  pass : Nat
  /-- Crossing 0 of pass 0 has happened (executing, R221). -/
  executing : Bool
  /-- Passes whose rendering has begun (R221). -/
  rendered : Nat
  /-- Consecutive late arms of the pass (R228). -/
  lates : Nat
  /-- Strobes emitted over all passes; closed entries of the stripe (R237). -/
  strobes : Nat
  written : List LedgerEntry
  /-- Pauses of R229 served. -/
  paused : Bool
  /-- Lanes whose PASS_START answer is awaited (R266); none before it is sent. -/
  passStart : Option (List Nat)
  /-- The trigger or synchronized start has fired for the pass (R227). -/
  triggered : Bool
  /-- STITCH_OFFERs sent; SYNC_READY sent; the stitch check failed (R349, R350). -/
  offered : Bool
  syncSent : Bool
  stitchFailed : Bool
  /-- Beams lost during the stripe: (beam, first shot, pass) (R214). -/
  lostBeams : List (Nat × Nat × Nat)
  /-- Crossings of the pass counted in shots; the last crossing of the last pass has closed the gates. -/
  ended : Bool
  deriving DecidableEq, Repr

/-- The stripe sequencer and ledger (09 Table 9-7). -/
structure Seq where
  /-- Admitted stripes in order of admission, at most 16 [09 R221; empty] -/
  stripes : List Stripe
  /-- Shot progress latch in AON: stripe id, pass, strobe count [09 R43; none] -/
  latch : Option (Nat × Nat × Nat)
  /-- What boot needs to write R43 entries for the latched stripe [01 R43; none] -/
  interrupted : Option (Stripe × Nat)
  /-- SEQ_CFG.pause_ms [8; 09 SEQ_CFG; 50] -/
  pauseMs : Nat
  /-- SEQ_CFG.late_limit [4; 09 SEQ_CFG; 3] -/
  lateLimit : Nat
  /-- SEQ_LATE_COUNT, SEQ_SKIP_COUNT, SEQ_DARK_COUNT [32 saturating; 09 Table 9-7; 0] -/
  lateCount : Nat
  skipCount : Nat
  darkCount : Nat
  /-- SEQ_STAT.overspeed, data_late, late, pause, head_warn [1 each; 09 SEQ_STAT; 0] -/
  overspeed : Bool
  dataLate : Bool
  late : Bool
  pause : Bool
  /-- A head pause (R230) and a thermal pause (R419) are being served [1 each; 09 R229; 0] -/
  headPause : Bool
  thermPause : Bool
  /-- Rounds the thermal pause has lasted, in ms (R419) [16 R419; 0] -/
  pauseFor : Nat
  /-- Written, unreleased ledger entries [4,194,304 ring; 09 R241; empty] -/
  ledger : List LedgerEntry
  /-- LEDGER_FIRST [32; 09 Table 9-7; 0] -/
  first : Nat
  /-- Open entries [09 R240; empty] -/
  opened : List LedgerEntry
  /-- LEDGER_STAT.reserve [1; 09 R241; 0] -/
  reserve : Bool
  /-- LEDGER_STREAM class T channel [4; 09 R242; none] -/
  stream : Option Nat
  /-- Closed entries waiting for the aggregator batch (13 R351) [empty] -/
  batch : List (Nat × List Word)
  /-- The stripe that ended last, for the head reports of its last shots (09 R241, R243) [none] -/
  last : Option Stripe
  /-- Kept source stripes (09 R245) [empty] -/
  sources : List Source
  /-- Crossings of the last 8 shots of the pass that were advance pulses (17 R434) [empty] -/
  advanced : List Nat
  /-- Lane assignments of earlier epochs: epoch, then lane, first device group and groups (08 R219, 09 R246) [empty] -/
  epochs : List (Nat × List (Nat × Nat × Nat))
  /-- The stripe admitted last with an uncompensable column (08 R213, REPLACE_ADVISED) [none] -/
  worn : Option Stripe
  /-- Physical faults that strike the records of shots 0 to 3 of the pass being approached (model's own) [DC empty] -/
  strikes : List Strike
  /-- Beam status overlay from head reports: (beam, status) [08 R206; empty] -/
  overlay : List (Nat × Nat)
  deriving DecidableEq, Repr

/-! ### Data path of one die -/

/-- A primitive placed in the stripe frame: class, and its polygon (even-odd flag, points) or disc. -/
inductive Shape where
  | polygon (evenOdd : Bool) (pts : List Pt)
  | circle (c : Pt) (r : Nat)
  deriving DecidableEq, Repr

/-- The pieces of one tile in the tile queue (06 R156): column 0-9 of the tile row, tile row, (class, shape) pieces. -/
structure Tile where
  stripe : Nat
  pass : Nat
  col : Nat
  ty : Int
  pieces : List (Nat × Shape)
  deriving DecidableEq, Repr

/-- A passed tile of the coverage buffer (R165): base dose words, row by row from its lower-left pixel. -/
structure TileOut where
  col : Nat
  ty : Int
  px : List (List Nat)
  deriving DecidableEq, Repr

/-- Tessera and Facet of a die (06 Table 6-3). -/
structure Tess where
  /-- Stripe and pass being rendered [06 R150; none] -/
  work : Option (Nat × Nat)
  /-- Last coarse row completed; next fine tile row [s32; 06 Table 6-3; 0] -/
  coarseRow : Int
  fineRow : Int
  fetchFault : Bool
  geoFault : Bool
  waitCoarse : Bool
  waitRing : Bool
  waitBlock : Bool
  waitQueue : Bool
  /-- TESS_CACHE_MISS, TESS_FETCH_ERR, TESS_INSTANCES [32; 06 Table 6-3; 0] -/
  cacheMiss : Nat
  fetchErr : Nat
  instances : Nat
  /-- Tile queue [1 MiB; 01 Table 1-2; empty] -/
  queue : List Tile
  /-- True instance and edge counts per segment of the current pass (R155) [empty] -/
  counts : List (Nat × Nat × Nat)
  /-- Facet: a tile is being rendered again [06 FACET_STAT.rerender; 0] -/
  rerender : Bool
  /-- Passed tiles [2 MiB; 06 R165; empty] -/
  tiles : List TileOut
  /-- FACET_CHK_COUNT.injected; FACET_CHK_TILE, _STRIPE, _DIFF; FACET_EXCESS; FACET_TILES [06 Table 6-3; 0] -/
  injected : Nat
  chkCol : Nat
  chkRow : Int
  chkStripe : Nat
  chkDiff : Int
  excess : Nat
  passed : Nat
  deriving DecidableEq, Repr

/-- A render block in the render-ahead buffer with its index entry (07 Table 7-8). -/
structure RaBlock where
  stripe : Nat
  pass : Nat
  ty : Nat
  rows : List (List Nat)
  comp : Bool
  offset : Nat
  length : Nat
  dataCrc : Word
  entryCrc : Word
  deriving DecidableEq, Repr

/-- A coarse row in the density ring and the owners whose columns it holds; its densities stand in SRAM slot row mod 128
(07 R184). -/
structure DensRow where
  row : Int
  owners : List Nat
  deriving DecidableEq, Repr

/-- Contour of a die (07 Table 7-10). -/
structure Contour where
  /-- CONTOUR_CFG.compress, cmode [07 CONTOUR_CFG; 0] -/
  compress : Bool
  cmode : Bool
  /-- Stripe-pass the ring belongs to [07 R184; none] -/
  ringOf : Option (Nat × Nat)
  /-- Density ring, at most 128 rows [07 R184; empty] -/
  ring : List DensRow
  /-- Lowest unreleased coarse row of the ring's stripe-pass [07 R188; 0] -/
  ringLow : Int
  /-- Next coarse row expected per owner [07 R186; 0] -/
  expect : List Int
  /-- Density packets waiting in the fabric for this die, oldest first: (owner, words) [07 R187; empty] -/
  fabric : List (Nat × List Word)
  /-- Cell factors, at most 8 rows: (row, (column, Mc)) [07 R188; empty] -/
  factors : List (Nat × List (Int × Nat))
  /-- Next coarse row of the long-range unit [07 R188; 0] -/
  lrNext : Nat
  /-- Next render block [07 R190; 0] -/
  next : Nat
  rdFault : Bool
  densFault : Bool
  waitFactor : Bool
  waitDensity : Bool
  waitTile : Bool
  waitBuffer : Bool
  pass : Nat
  /-- CONTOUR_GEN: class, long-range, correction, short-range [4 x 8; 07 CONTOUR_GEN; 0] -/
  gens : List Nat
  /-- CONTOUR_CEIL, CONTOUR_BLOCK [07 Table 7-10; 0] -/
  ceil : Nat
  block : Int
  ceilCount : Nat
  negCount : Nat
  rawCount : Nat
  rdFail : Nat
  /-- CONTOUR_DENS_FAULT: owner, kind, row [07 CONTOUR_DENS_FAULT; 0] -/
  faultOwner : Nat
  faultKind : Nat
  faultRow : Int
  /-- Render-ahead size in MiB [07 R192, 05 R135; 64] -/
  raMib : Nat
  /-- Render-ahead blocks, oldest first [07 R192; empty] -/
  ra : List RaBlock
  /-- Next data ring offset in 64-byte units [07 R192; 0] -/
  raPut : Nat
  /-- Blocks (stripe, pass, tile row) that the reader has checked and whose rows wait for R21, at most 2 [07 R194; empty] -/
  checked : List (Nat × Nat × Nat)
  /-- Stops of stripe-passes on their way to this die on the fabric's control class [07 R186; empty] -/
  stops : List (Nat × Nat)
  /-- Tile rows of the executing pass lost to R147, R157, R186, R194 (cause RENDER_FAULT) or R189 [09 R232; empty] -/
  lost : List (Nat × Nat × Nat × Bool)
  deriving DecidableEq, Repr

/-- A pixel row present in the beam window; its pixels stand in SRAM slot y mod 4096 (R21, 04 Table 4-3). -/
structure WinRow where
  stripe : Nat
  pass : Nat
  y : Nat
  deriving DecidableEq, Repr

/-- Lattice of a die (08 Table 8-10). -/
structure Lattice where
  /-- Beam window, at most 4,096 rows [01 R21; empty] -/
  window : List WinRow
  regen : Bool
  clamp : Bool
  waitRow : Bool
  /-- LATTICE_CLAMP_COUNT, LATTICE_BEAM_LOST [32 saturating; 08 Table 8-10; 0] -/
  clampCount : Nat
  beamLost : Nat
  /-- LATTICE_GEN: mask, ramp, beam generations [3 x 8; 08 Table 8-10; 0] -/
  gens : List Nat
  /-- LATTICE_SHOT and LATTICE_STAT.pass [08 Table 8-10; 0] -/
  shot : Nat
  pass : Nat
  deriving DecidableEq, Repr

/-! ### Lanes -/

/-- Lane power states (10 Table 10-11). -/
inductive LanePower where
  | l0 | l1 | l2 | off
  deriving DecidableEq, Repr

/-- LANE_STAT.state (10 LANE_STAT). -/
inductive LaneState where
  | down | training | up | retraining | draining | retired
  deriving DecidableEq, Repr

/-- A group record on its way through a lane (10 R255, R259-R262). -/
structure Rec where
  stripe : Nat
  pass : Nat
  shot : Nat
  group : Nat
  epoch : Nat
  codes : List Nat
  /-- Bytes already put into frames, of 194. -/
  sent : Nat
  /-- Frames carrying part of it whose echo is awaited; a frame that failed. -/
  frames : List Nat
  bad : Bool
  /-- Acknowledgement received: placed. -/
  placed : Bool
  rejected : Bool
  /-- A commit naming it has been sent. -/
  committed : Bool
  /-- A FIRED report has named it dark. -/
  dark : Bool
  deriving DecidableEq, Repr

/-- A control element waiting for its slot or its answer (10 Table 10-3, R257). -/
structure Elem where
  type : Nat
  ackReq : Bool
  seq : Nat
  arg : Word
  data : List Byte
  /-- Times sent; to be put into the next control frame. -/
  tries : Nat
  due : Bool
  deriving DecidableEq, Repr

/-- Line side of one direction (10 R251, R252): the last 58 scrambled bits, newest first, the last line bit and its run. -/
structure Line where
  scr : BitVec 58
  last : Bool
  run : Nat
  deriving DecidableEq, Repr

/-- A lane (10 Table 10-12). -/
structure Lane where
  /-- Lane number 0-95 [7; 10 LANE_STAT.lane; its number] -/
  id : Nat
  power : LanePower
  state : LaneState
  /-- Retired: held in AON [1; 10 R274; 0] -/
  retired : Bool
  rate : Nat
  /-- LANE_CTRL: prbs, err_inject, irq_warn, irq_err, retrain [10 LANE_CTRL; 0 0 1 1 0] -/
  prbs : Bool
  errInject : Bool
  irqWarn : Bool
  irqErr : Bool
  headLocked : Bool
  retLocked : Bool
  /-- HEAD_WARN and trip report [1; 10 R276; 0] -/
  headWarn : Bool
  headTrip : Bool
  strobeFault : Bool
  tableOk : Bool
  /-- Last good return header [24; 02 HEAD_QUERY; 0] -/
  header : BitVec 24
  /-- Groups carried per shot and first die group [5, 7; 08 LATTICE_LANE_MAPn; by R218] -/
  groups : Nat
  firstGroup : Nat
  /-- LANE_EYE, LANE_EYE_RET: width, height [10 LANE_EYE; 0] -/
  eye : Nat × Nat
  eyeRet : Nat × Nat
  /-- LANE_ERR [6; 10 LANE_ERR; 0] -/
  err : BitVec 6
  /-- LANE_HEAD_TEMP: hottest [16; 10 Table 10-12; 0]; timebase (2.5 ns) of the last TEMP [none]; no TEMP for 10 ms (R276) -/
  temp : Int
  tempAt : Option Nat
  silent : Bool
  /-- Temperatures reported per sensor [10 Table 10-7; empty] -/
  temps : List (Nat × Int)
  /-- LANE_HEAD_LIM [10 LANE_HEAD_LIM; 0x0460, 0x03C0] -/
  limTrip : Int
  limWarn : Int
  /-- LANE_HEAD_FW, head serial, highest rate and record buffer of HELLO [10 Table 10-7; 0] -/
  headFw : Word
  headSerial : Word
  headRate : Nat
  headBuf : Nat
  /-- HELLO report received in this bring-up; a down lane keeps it only under R449 [1; 10 Table 10-9, 18 R449; 0] -/
  hello : Bool
  /-- LANE_FRAMES, LANE_ECHO_ERR, LANE_RET_CRC_ERR, LANE_RETRAINS total, LANE_NOCOMMIT, LANE_HEAD_DARK,
  LANE_STUFF_MAX [10 Table 10-12; 0] -/
  nFrames : Nat
  echoErr : Nat
  retCrcErr : Nat
  retrains : Nat
  noCommit : Nat
  headDark : Nat
  stuffMax : Nat
  /-- Times (timebase of die 0, 2.5 ns) of the retrains of the last 10 s [10 R274; empty] -/
  retrainAt : List Nat
  /-- Forward and return frame sequences since START [32; 10 R253 R258; 0] -/
  fseq : Nat
  rseq : Nat
  /-- Frames sent and seed lane number: 127 until L0 is first reached [10 R254] -/
  everL0 : Bool
  /-- Transmit and receive line states [10 R251; 0] -/
  tx : Line
  rx : Line
  /-- Sent frames whose echo is awaited: fseq, CRC [10 R259; empty] -/
  echoes : List (Nat × Word)
  /-- fseq of the last error event, for R272 [10 R272; none] -/
  lastError : Option Nat
  /-- Records begun, in stream order [10 R255; empty] -/
  recs : List Rec
  /-- n_s of the retirement whose drain lasts [10 R274; 0] -/
  drainShot : Nat
  /-- Control elements to send or unanswered, and the next element sequence [10 R257; empty, 0] -/
  elems : List Elem
  elemSeq : Nat
  /-- Bring-up step 1-6, rate being tried, target, last rate passed [10 Table 10-9; 0] -/
  step : Nat
  trying : Nat
  target : Nat
  lastPass : Option Nat
  /-- 2.5 Gb/s is being run after a failure (R268) [1; 10 R268; 0] -/
  fallBack : Bool
  /-- In L1 through a hardware stop [1; 16 R417; 0] -/
  thermalL1 : Bool
  /-- Generator of the PRBS31 sequence of TRAIN data and LANE_CTRL.prbs, continued from element to element [31; 10 R256; none drawn] -/
  prbs31 : Option (BitVec 31)
  /-- Code dose table in force, cd[1..63]; staged by PULSE_TABLE_LOAD [08 R208; none] -/
  codes : Option (List Nat)
  /-- A TABLE_REVERT is out to a head that did not answer TABLE_SWITCH [1; 10 R277; 0] -/
  switchUnheard : Bool
  /-- Lane window at retirement, words of 0x00-0x38 [15 x 32; 02 R70; empty] -/
  frozen : List Word
  /-- Shots whose FIRED report has arrived, newest first, at most 16 [10 R264; empty] -/
  fired : List Nat
  deriving DecidableEq, Repr

/-! ### Memory, power, thermal of one die -/

/-- MEM_STAT.state (04 MEM_STAT). -/
inductive MemState where
  | off | training | active | selfRefresh | failed
  deriving DecidableEq, Repr

/-- LPDDR5X controller of a die (04 Table 4-6). -/
structure Mem where
  state : MemState
  /-- MEM_INFO: capacity, rate code, ranks - 1 [04 MEM_INFO; 0] -/
  capacity : Nat
  rate : Nat
  ranks : Nat
  /-- Reader lead as last computed [3; 04 R106; 0] -/
  lead : Nat
  deferred : Bool
  /-- Refresh debt [4; 04 R103; 0] -/
  debt : Nat
  panic : Bool
  /-- MEM_RT_CFG: max_defer_ms, panic_off, panic_on [04 MEM_RT_CFG; 100, 6, 3] -/
  maxDefer : Nat
  panicOff : Nat
  panicOn : Nat
  /-- MEM_ERR: link_ue, train_fail, forced_refresh, forced_retrain in bits 0-3 [4; 04 MEM_ERR; 0] -/
  err : BitVec 4
  linkCe : Nat
  linkUe : Nat
  panicCount : Nat
  forcedRef : Nat
  /-- A make-up burst of all-bank refreshes is being paid [1; 04 R105; 0] -/
  makeUp : Bool
  /-- Bank page histories, 4 bits each, 16 banks [04 R102; 0] -/
  history : List Nat
  /-- Open row of each bank and the timebase count of its last access [16; 04 R102; none] -/
  opened : List (Option (Nat × Nat))
  /-- A measurement forced under R107 is being taken [1; 04 R107; 0] -/
  forced : Bool
  /-- Training values saved in AON: the MEMORY values, their margins and the CRC-32C of both [04 R98 R99; none] -/
  saved : Option (List Int × Nat × Word)
  /-- DRAM bytes that move channels have written, canonical, unlisted = 0 [24 GiB space 0x0; 03 Table 3-6; DC 0] -/
  dram : List Host.Cell
  deriving DecidableEq, Repr

/-- A queued or running scrub (R115-R117). -/
structure Scan where
  first : Nat
  last : Nat
  at_ : Nat
  ctx : Option Ctx
  deriving DecidableEq, Repr

/-- SRAM and scrubber of a die (04 Table 4-6). -/
structure Sram where
  /-- Stored bytes, canonical: strictly rising addresses, none equal to the zero byte with its check bits
  [24 MiB of 13 bits; 04 R109 R110; zeros written at boot, R114] -/
  cells : List (Nat × Stored)
  /-- SRAM_CE_COUNT, SRAM_CE_ADDR [04 Table 4-6; 0] -/
  ceCount : Nat
  ceAddr : Nat
  /-- SRAM_UE_LOG in AON: port, address [04 SRAM_UE_LOG; not valid] -/
  ueLog : Option (Nat × Nat)
  /-- Scans: the running one first [04 R117; empty] -/
  scans : List Scan
  /-- SCRUB_STAT.done, host; SCRUB_FIRST_ADDR, LAST_ADDR, SCANNED, CORRECTED, UNCORR [04 Table 4-6; 0] -/
  done : Bool
  host : Bool
  first : Nat
  last : Nat
  scanned : Nat
  corrected : Nat
  uncorr : Nat
  /-- Lowest correctable and uncorrectable addresses of the scan (SCRUB_FIRST_FAIL) [04 R117; none] -/
  lowCe : Option Nat
  lowUe : Option Nat
  deriving DecidableEq, Repr

/-- A junction sensor (16 THERM_SENSn). -/
structure Sensor where
  excluded : Bool
  temp : Int
  /-- Readings at or above 125 C in a row (R416). -/
  hot : Nat
  /-- Trim offset o_s (R415). -/
  offset : Int
  /-- Converted since the last round end; that conversion failed or was out of range. -/
  fresh : Bool
  deriving DecidableEq, Repr

/-- Power and thermal block of a die (16 Table 16-8). -/
structure Pow where
  /-- PWR_DOM.on and iso: AON, CTRL, FABRIC, MEM, GEO, DOSE, LANE, IO [8, 8; 16 PWR_DOM; 0x01, 0xFE] -/
  on : BitVec 8
  iso : BitVec 8
  sensors : List Sensor
  demand : Bool
  /-- Housekeeping rounds ended [32; 16 R420; 0] -/
  rounds : Nat
  /-- PWR_AVS: commanded mV, lowest slack of the last round, at_limit; rounds in a row above 24 [16 R411; 0] -/
  vcore : Nat
  slack : Nat
  atLimit : Bool
  highRounds : Nat
  deriving DecidableEq, Repr

/-- A rail of the board power record (16 Table 16-2). -/
structure Rail where
  addr : Nat
  page : Nat
  kind : Nat
  die : Nat
  shared : Bool
  step : Nat
  keep : Bool
  avs : Bool
  nominal : Nat
  vmin : Nat
  vmax : Nat
  ramp : Nat
  /-- Enabled by the manager; failed transactions in a row. -/
  on : Bool
  tries : Nat
  deriving DecidableEq, Repr

/-- Device-wide power and thermal manager (16 PT_STAT). -/
structure Therm where
  /-- Board power record [16 R404; empty until read] -/
  rails : List Rail
  recordBad : Bool
  pgoodFail : Bool
  railFail : Nat
  power : Nat
  latched : Bool
  stopped : Bool
  throttle : Bool
  warn : Bool
  /-- No die has a valid sensor: THERMAL until power-on reset [1; 16 R414; 0] -/
  blind : Bool
  margin : Nat
  minPause : Nat
  maxPause : Nat
  pauseCount : Nat
  pauseMs : Nat
  alerts : Nat
  deriving DecidableEq, Repr

/-! ### DMA -/

/-- DMA_D_STAT.state (03 R78). -/
inductive DmaState where
  | stopped | idle | waitBind | active | stopping | error
  deriving DecidableEq, Repr

/-- A class D channel (03 Table 3-7), or a move channel, which has no host registers of its own use. -/
structure DmaD where
  firmware : Bool
  irqBad : Bool
  abort : Bool
  run : Bool
  state : DmaState
  /-- DMA_D_STAT: done, bad, fetch_err, cfg_locked, owner_denied in bits 0-4 [5; 03 DMA_D_STAT; 0] -/
  err : BitVec 5
  ring : BitVec 64
  log2 : Nat
  index : Nat
  badCount : Nat
  discard : Nat
  /-- Bound stripe [32; 03 DMA_D_BOUND; none] -/
  bound : Option Nat
  /-- Descriptor in progress: its words, list as (address, length), entry and byte within it, bytes done, whether its
  stripe has ended (R82) -/
  desc : Option (List Word)
  sgl : List (Nat × Nat)
  entry : Nat
  offset : Nat
  done : Nat
  ended : Bool
  /-- Paused between bursts by staging back-pressure [1; 03 R79; 0] -/
  paused : Bool
  /-- Move channels: the source of an overlapping descriptor that passes a check-value unit, read before anything is written
  [03 R87; empty] -/
  buffer : List Byte
  /-- Move channels: index and words 0, 6 and 7 of the descriptor written back last; the spec does not say where these
  descriptors lie [03 R86; none] -/
  back : Option (Nat × List Word)
  deriving DecidableEq, Repr

/-- Sources of a class T stream (DMA_T_CTRL.source). -/
inductive TSource where
  | none | ledger | counters | locus | datum | chord
  deriving DecidableEq, Repr

/-- A class T channel (03 R89-R93). -/
structure DmaT where
  source : TSource
  fullIrq : Bool
  halfIrq : Bool
  enabled : Bool
  rdRange : Bool
  full : Bool
  half : Bool
  buf : BitVec 64
  log2 : Nat
  wr : Nat
  rd : Nat
  dropped : Nat
  /-- Records waiting to be written, oldest first [03 R92; empty] -/
  waiting : List (List Word)
  deriving DecidableEq, Repr

/-! ### Locus and Arc (die 0) -/

/-- Configuration of a position source (11 Table 11-8 sections 0x01, 0x02). -/
structure SrcCfg where
  mode : Nat
  invert : Bool
  reference : Nat
  filter : Nat
  hysteresis : Nat
  period : Nat
  tolerance : Nat
  teeth : Nat
  ampLow : Nat
  ampHigh : Nat
  bits : Nat
  clock : Nat
  cycle : Nat
  window : Nat
  zTimeout : Nat
  deriving DecidableEq, Repr

/-- A position source, 0-3 POS, 4-11 AUX (11 Table 11-9). -/
structure Source' where
  cfg : SrcCfg
  /-- Position in 2^-16 count [64; 11 R280; 0] -/
  pos : Int
  valid : Bool
  /-- LOCUS_SRC_FAULT bits 1-9 [10; 11 LOCUS_SRC_FAULTs; 0] -/
  faults : BitVec 10
  /-- A fault condition is present now (R289). -/
  bad : Bool
  /-- Source permanently invalid until a LOCUS_CONFIG names it (15 Table 15-6 POS_SOURCE). -/
  barred : Bool
  dir : Bool
  /-- Furthest count in the current direction, for the hysteresis (R291). -/
  extreme : Int
  zLevel : Bool
  bissWarn : Bool
  crcSingle : Nat
  crcRow : Nat
  /-- BiSS cycle started and not answered; the time of its first falling clock edge and the line delay last measured, in 250 ps
  steps [11 R285; DC 0] -/
  cycling : Bool
  cycleAt : Nat
  lineDelay : Nat
  /-- Change of count in the last speed window, and the count at the present window's start (R290). -/
  speed : Int
  windowStart : Int
  /-- Index corrections: last d, count (R293). -/
  lastD : Int
  corrections : Nat
  /-- Count at the reference index since the axis was referenced; the expected count that the last index event matched and
  that has not been passed; the last regular tooth (R293, R295). -/
  refCount : Option Int
  seen : Option Int
  lastTooth : Option Int
  /-- The reference mark of a tooth wheel was found with rising count [11 R295; DC 0] -/
  toothUp : Bool
  /-- Z is stuck: index events are ignored until it falls (Table 11-4). -/
  zIgnored : Bool
  /-- Filtered A and B levels and the time of the last counted edge or sample (R283, R287). -/
  a : Bool
  b : Bool
  lastEdge : Option Nat
  /-- Sin/cos: last phase, and samples in a row outside the amplitude window; BiSS-C: last position word. -/
  phase : Nat
  ampBad : Nat
  deriving DecidableEq, Repr

/-- A digital input (11 R286). -/
structure Din where
  debounce : Nat
  invert : Bool
  capture : Bool
  stuckMs : Nat
  chatterCount : Nat
  chatterMs : Nat
  raw : Bool
  level : Bool
  value : Bool
  stuck : Bool
  chatter : Bool
  /-- Timebase ticks of the raw level's changes that may still lie within the chatter window, newest first. -/
  changes : List Nat
  deriving DecidableEq, Repr

/-- Locus's view of an axis (11 Table 11-8 section 0x04, LOCUS_AXISa). -/
structure LocusAxis where
  primary : Option Nat
  secondary : Option Nat
  negative : Bool
  ratio : Int
  devWindow : Nat
  pitch : Nat
  referenced : Bool
  /-- Axis position minus source position, 2^-16 count, set at referencing (R292). -/
  offset : Int
  /-- Secondary offset of the scan axis, 2^-16 count [64; 11 R297 R292; DC 0] -/
  off2 : Int
  deriving DecidableEq, Repr

/-- Compare unit states (11 Table 11-6). -/
inductive CmpState where
  | idle | waitTrigger | armed | fired | late | cancelled
  deriving DecidableEq, Repr

/-- A compare unit (11 R307-R311). -/
structure Compare where
  state : CmpState
  axis : Nat
  dir : Nat
  target : Int
  irq : Bool
  capture : Bool
  trigger : Nat
  event : Bool
  late : Bool
  pos : Int
  ns : Nat
  deriving DecidableEq, Repr

/-- Pulse generation of a pass (11 R299-R306). -/
structure Gen where
  /-- Next crossing; total crossings of the pass. -/
  next : Nat
  total : Nat
  /-- Time of the last fire pulse and of the last crossing, in 250 ps steps. -/
  lastFire : Option Nat
  lastCross : Option Nat
  deriving DecidableEq, Repr

/-- Locus (11 Table 11-9). -/
structure Locus where
  sources : List Source'
  dins : List Din
  axes : List LocusAxis
  compares : List Compare
  /-- LOCUS_IRQ_EN [15; 11 Table 11-9; 0x7FFF] -/
  irqEn : BitVec 15
  /-- Latency compensation in 250 ps [14; 11 R300; 0] -/
  latency : Nat
  bandwidth : Nat
  /-- lock_win, unlock_win in 1/256 count [16, 16; 11 R298; 256, 4,096] -/
  lockWin : Nat
  unlockWin : Nat
  markEvery : Nat
  captureCh : Option Nat
  locked : Bool
  /-- Measurements in a row within lock_win (R298). -/
  good : Nat
  /-- Estimate of the scan axis's primary count (2^-16 count) and the time it holds for (250 ps steps), velocity estimate
  (1/256 count per us), residual (1/256 count) [11 R298; 0] -/
  est : Int
  estAt : Nat
  vel : Int
  resid : Int
  /-- LOCUS_STAT W1C bits: reversed, deviation, overrun, readback [4; 11 LOCUS_STAT; 0] -/
  reversed : Bool
  deviation : Bool
  overrun : Bool
  readback : Bool
  /-- Deferred index corrections of the scan axis: of its primary and of its secondary source [11 R294; none] -/
  deferred : Option Int
  deferred2 : Option Int
  /-- Crossings of a pass being generated [11 R299; none] -/
  gen : Option Gen
  advances : Nat
  rbErr : Nat
  deriving DecidableEq, Repr

/-- A profile slot (12 R316). -/
structure Slot where
  vel : Nat
  acc : Nat
  dec : Nat
  jerk : Nat
  deriving DecidableEq, Repr

/-- Axis states (12 R329). -/
inductive AxisState where
  | absent | disabled | idle | moving | homing | stopping | sequencer
  deriving DecidableEq, Repr

/-- Where a homing stands (12 R328). -/
inductive HomePhase where
  | search | stopSwitch | backOff | reApproach | indexSearch | limitStop | limitBack | stopEnd
  deriving DecidableEq, Repr

/-- A homing in progress: method, direction, search and creep velocities, deceleration, reference value, back-off
distance; whether a limit has tripped, the position before referencing. -/
structure Homing where
  method : Nat
  positive : Bool
  search : Nat
  creep : Nat
  dec : Nat
  refValue : Int
  backOff : Nat
  phase : HomePhase
  tripped : Bool
  start : Int
  before : Int
  deriving DecidableEq, Repr

/-- An axis of Arc (12 Table 12-7, AXIS_CONFIG). -/
structure Axis where
  state : AxisState
  /-- AXIS_CONFIG: limit and home DINs, soft limits, stall window and time, limits, step and in-position settings. -/
  negDin : Option Nat
  posDin : Option Nat
  homeDin : Option Nat
  softMin : Int
  softMax : Int
  stallWin : Nat
  stallUs : Nat
  velLim : Nat
  accLim : Nat
  faultDec : Nat
  jerkLim : Nat
  perStep : Nat
  stepWidth : Nat
  dirSetup : Nat
  invertDir : Bool
  stepLow : Bool
  inPosWin : Nat
  inPosUs : Nat
  slots : List Slot
  /-- Commanded position (2^-16 count), velocity, acceleration, target and the limits of the move in progress. -/
  cmd : Int
  vel : Int
  acc : Int
  target : Int
  move : Slot
  /-- The move or homing owes its final entry to this command. -/
  ctx : Option Ctx
  homing : Option Homing
  homed : Bool
  /-- After the stop in progress the axis is DISABLED (R325, R326); it is a fault stop (Table 12-2). -/
  disableAfter : Bool
  faultStop : Bool
  inPosition : Bool
  chatter : Bool
  driveFault : Bool
  stall : Bool
  /-- Step pulses issued, remainder and last direction (R321). -/
  steps : Nat
  remainder : Int
  stepDir : Bool
  deriving DecidableEq, Repr

/-- Arc (12 Table 12-7). -/
structure Arc where
  axes : List Axis
  overspeedDecel : Bool
  spLinkFault : Bool
  spRunning : Bool
  settleUs : Nat
  spCycle : Nat
  spErr : Nat
  /-- Consecutive bad or missing status packets; last drive bits ready0 fault0 ready1 fault1 (R319). -/
  spBad : Nat
  driveBits : BitVec 4
  /-- Running disparity of the setpoint line is positive [12 R318; DC 0] -/
  spDisparity : Bool
  /-- Profile ticks so far (model's own, argument of the free profile) [DC 0] -/
  ticks : Nat
  /-- Scan velocity being held (1/256 count per us); the pass's approach point (R322, R323). -/
  scanVel : Nat
  approach : Int
  deriving DecidableEq, Repr

/-! ### Datum and Chord (die 0) -/

/-- An Ethernet port (13 R331, R340; TIME_CONFIG section 0x01). -/
structure EthPort where
  speed : Nat
  fec : Nat
  vlan : Bool
  vlanId : Nat
  ip : Nat
  prefixLen : Nat
  rxLat : Nat
  txLat : Nat
  link : Bool
  /-- Transmit timestamp queue, at most 16: (sequence, message type, domain, time) [13 R340; empty] -/
  txts : List (Nat × Nat × Nat × Nat)
  ovf : Nat
  drop : Nat
  /-- Sequence of the next event message sent [16; 13 R336; DC 0] -/
  seq : Nat
  deriving DecidableEq, Repr

/-- Domain states (13 Table 13-3). -/
inductive DomState where
  | disabled | listening | acquiring | locked | lost
  deriving DecidableEq, Repr

/-- A PTP domain (13 R336-R338; TIME_CONFIG section 0x02). Message times and the path delay are in 2^-8 ns. -/
structure Domain where
  state : DomState
  number : Nat
  enabled : Bool
  port : Nat
  l2 : Bool
  p2p : Bool
  logDelay : Int
  lockThr : Nat
  jumpThr : Nat
  sdoId : Nat
  good : Nat
  discards : Nat
  /-- Estimate: its lead over the device time (2^-48 ns) and rate (0.001 ppm), valid once a sample came; the last sample's
  offset from it (2^-8 ns). -/
  known : Bool
  offset : Int
  rate : Int
  lastOff : Int
  /-- Selected foreign master: identity and its Announce dataset. -/
  master : Option (Nat × List Nat)
  /-- Two-step Sync waiting for its Follow_Up; delay exchange in progress (sequence, send time); the peer's response with the
  send time; sent and received times of the last Sync; measured path delay. -/
  pendingSync : Option PtpMsg
  delayReq : Option (Nat × Nat)
  pdelay : Option (PtpMsg × Nat)
  syncPair : Option (Int × Int)
  path : Int
  deriving DecidableEq, Repr

/-- A trigger (13 R341): 0 IDLE, 1 ARMED, 2 FIRED. -/
structure Trigger where
  state : Nat
  late : Bool
  /-- Time in ns and 2^-16 ns. -/
  ns : Nat
  frac : Nat
  deriving DecidableEq, Repr

/-- Datum (13 Table 13-9). -/
structure Datum where
  /-- Device time in 2^-48 ns [13 R333; 0] -/
  time : Nat
  disciplined : Bool
  stepPending : Bool
  far : Bool
  holdover : Bool
  /-- Selected domain [1; 13 R338; 0] -/
  selected : Nat
  /-- Residue rho in 2^-48 ns, read in 2^-8 ns as DATUM_SLEW [s32; 13 R338; 0] -/
  rho : Int
  /-- Rate applied to the timebase increment, 0.001 ppm [13 R333; 0] -/
  rate : Int
  /-- DATUM_CTRL: irq_trig, irq_sel, irq_ovf [3; 13 Table 13-9; 7] -/
  irq : BitVec 3
  preferred : Nat
  revert : Bool
  stepFirst : Bool
  captureCh : Option Nat
  ports : List EthPort
  domains : List Domain
  triggers : List Trigger
  /-- Latches of the die 0 block and of the alias: seconds high, ns, frac [13 Table 13-9, 19 R461; 0] -/
  latch : Nat × Nat × Nat
  alias_ : Nat × Nat × Nat
  deriving DecidableEq, Repr

/-- A Chord message waiting to be sent or acknowledged (13 R343-R348). -/
structure ChordMsg where
  type : Nat
  role : Option Nat
  epoch : Nat
  seq : Nat
  payload : List Word
  /-- CHORD_SEND's command; re-resolutions so far. -/
  ctx : Option Ctx
  retries : Nat
  deriving DecidableEq, Repr

/-- A peer table entry and its two streams (13 R345, CHORD_CONFIG section 0x02). -/
structure Peer where
  id : Nat
  port : Nat
  ip : Nat
  /-- Receive stream: session last seen, last seq delivered. -/
  session : Word
  last : Nat
  /-- Send stream: next seq, unacknowledged messages (at most 8), queued messages, resends without progress. -/
  next : Nat
  unacked : List ChordMsg
  queued : List ChordMsg
  tries : Nat
  /-- The backup port is in use after a link loss. -/
  failedOver : Bool
  deriving DecidableEq, Repr

/-- A role table entry (13 R347): holder and epoch. -/
structure Role where
  holder : Nat
  epoch : Nat
  deriving DecidableEq, Repr

/-- A stitch offer (13 Table 13-6, R350). -/
structure Offer where
  group : Nat
  west : Bool
  pitch : Nat
  x : Int
  w : Nat
  ramp : List Nat
  deriving DecidableEq, Repr

/-- A synchronization group at the coordinator (13 R349): members that reported, whether it was aborted, T if sent. -/
structure SyncGroup where
  group : Nat
  members : List Nat
  aborted : Bool
  go : Option Nat
  deriving DecidableEq, Repr

/-- Chord (13 Table 13-9, CHORD_CONFIG). -/
structure Chord where
  enabled : Bool
  udpPort : Nat
  rtoUs : Nat
  retriesMax : Nat
  syncMs : Nat
  aggregate : Bool
  stitchEast : Bool
  stitchWest : Bool
  receiveCh : Option Nat
  session : Word
  peers : List Peer
  /-- Coordinator, aggregator, east neighbour, west neighbour [13 R347; holder 0, epoch 0 (DC)] -/
  roles : List Role
  groups : List SyncGroup
  offers : List Offer
  unreach : Bool
  unreachId : Nat
  rxDrop : Nat
  retry : Nat
  stale : Nat
  /-- Highest ledger index acknowledged by the aggregator, plus one [13 R351; 0] -/
  ackedTo : Nat
  deriving DecidableEq, Repr

/-! ### Compression, check values, calibration, counters, flash -/

/-- What a job carries along a stream, and a context saves (14 R361): coded bits that do not fill a byte yet, the history, the
input (of the current segment when compressing, of the whole stream when decompressing) and the bytes decoded so far. -/
structure JobData where
  bits : List Bool
  hist : List Byte
  input : List Byte
  given : Nat
  deriving DecidableEq, Repr

/-- Compression engine of a die (14 Table 14-5). -/
structure Comp where
  ctxBusy : Bool
  verifySeen : Bool
  selftestOk : Bool
  final : Bool
  dynamic : Bool
  dir : Bool
  /-- COMP_JOB_CTRL.save reading 1; a context restored for the next job [14 COMP_JOB_CTRL, R361; 0] -/
  save : Bool
  restored : Bool
  /-- COMP_JOB_STAT.state, error, fallback [14 COMP_JOB_STAT; 0] -/
  job : Nat
  error : Nat
  fallback : Bool
  ctx : Nat
  limit : Nat
  inBytes : Nat
  outBytes : Nat
  verifyFail : Nat
  decompErr : Nat
  blocks : Nat
  /-- The job's stream; output that waits for its descriptor; input complete; error found [14 R354, R357, R360; empty] -/
  data : JobData
  out : List Byte
  inDone : Bool
  fault : Nat
  /-- Saved contexts by slot and check word: the state's layout is the engine's own (R361) [14 R361; none] -/
  saved : List (Nat × Word × JobData)
  /-- Render compression off on the die: COMP_VERIFY, COMP_SELFTEST (15 Table 15-6) [0] -/
  off : Bool
  deriving DecidableEq, Repr

/-- A check-value unit (14 Table 14-5). -/
structure CrcUnit where
  mode : Nat
  width : Nat
  refin : Bool
  refout : Bool
  poly : Word
  init : Word
  xorout : Word
  fold0 : Word
  fold1 : Word
  fold2 : Word
  value : Word
  bytes : Nat
  mismatches : Nat
  selftestOk : Bool
  cfgErr : Bool
  cfgLocked : Bool
  mismatch : Bool
  busy : Bool
  deriving DecidableEq, Repr

/-- Calibration of a die (17 Table 17-1, Table 17-7): values in force, measurements and quality words per item. -/
structure Cal where
  values : List (List Int)
  measured : List (List Int)
  quality : List (List Nat)
  sensorOut : BitVec 12
  noRecord : Bool
  below : BitVec 5
  auto : BitVec 4
  steps : Nat
  gen : Nat
  /-- SENSOR measurement of 10 s in progress; completed, waiting for the round end. -/
  sensorRun : Bool
  sensorNew : List (Nat × Int)
  deriving DecidableEq, Repr

/-- A CAL_RUN in progress (17 R427): command, target dies, mask. -/
structure CalRun where
  ctx : Ctx
  dies : List Nat
  mask : Nat
  deriving DecidableEq, Repr

/-- A calibration record in flash (17 R430): generation, check, values of every die, sensor offsets. -/
structure CalRecord where
  generation : Nat
  check : Word
  values : List (List (List Int))
  offsets : List (List Int)
  deriving DecidableEq, Repr

/-- A bank selector copy (18 Table 18-3). -/
structure Selector where
  sequence : Nat
  validA : Bool
  validB : Bool
  trials : Nat
  trial : Bool
  active : Nat
  versionA : Word
  versionB : Word
  deriving DecidableEq, Repr

/-- The boot flash and the firmware update (18 R442-R457). -/
structure Flash where
  /-- Selector copies 0 and 1; none = not valid [18 R443; DC none] -/
  sel : List (Option Selector)
  /-- Contents of banks A and B with what R446's cryptography says of them; none = erased
  [62 MiB each; 18 R442, R444; DC a set of version 0x0001_0000 in both] -/
  banks : List (Option BankImage)
  /-- Calibration slots A0, A1, B0, B1 [17 R430; DC none] -/
  cal : List (Option CalRecord)
  /-- UPD_STAT.busy, UPD_BLOCKS [18 UPD_STAT; 0] -/
  busy : Nat
  blocks : Nat
  /-- UPDATE_STAGE in progress and its content's length in words [18 R450; none] -/
  staging : Option (Ctx × Nat)
  deriving DecidableEq, Repr

/-- Performance counters of a die (17 Table 17-5). -/
structure Perf where
  /-- Live counters [192 of 48; 17 R433; 0] -/
  cnt : List Nat
  /-- Snapshot registers [192 of 48; 17 R435; 0] -/
  snap : List Nat
  /-- _HI latches by register offset within the counter block [16; 19 R461; 0] -/
  hi : List (Nat × Nat)
  deriving DecidableEq, Repr

/-- Global snapshot and mirror control (17 PERF_CTRL). -/
structure PerfCtl where
  mirrorUs : Nat
  userEn : Bool
  snapSeq : Nat
  /-- BAR2 contents: header words 0-4 and counters 0-62 of each die, update word [17 R437; 0] -/
  mirror : List Nat
  mirrorCnt : List (List Nat)
  update : Nat
  /-- COUNTER_STREAM channel and period [17 R436; none] -/
  stream : Option (Nat × Nat)
  deriving DecidableEq, Repr

/-! ### A die, and the whole -/

/-- One die (01 Table 1-1, 19 Table 19-3). -/
structure Die where
  id : Nat
  /-- Retired, in AON [1; 15 R393; 0] -/
  retired : Bool
  facetFailed : Bool
  contourFailed : Bool
  latticeFailed : Bool
  memFailed : Bool
  crcFailed : Bool
  /-- Counts in AON (15 Table 15-6): Facet mismatches (FACET_CHK_COUNT.count), clamp and verify failures [0] -/
  facetCount : Nat
  clampCount : Nat
  verifyCount : Nat
  /-- DIE_APEX: state, image_ok [19 DIE_APEX; 0] -/
  apex : Nat
  imageOk : Bool
  /-- Tightly coupled memory of the Apex pair, canonical, unlisted = 0: firmware's own, no command shows it
  [512 KiB; 01 R18; DC empty] -/
  tcm : List Host.Cell
  /-- Timebase counter and its _HI latch [64, 32; 01 R32, 19 DIE_TB; 0] -/
  tb : BitVec 64
  tbHi : Word
  /-- Registers of the blocks a retirement switches off, as they stood then: die offset, value [19 R465; empty] -/
  frozen : List (Nat × Word)
  pow : Pow
  mem : Mem
  sram : Sram
  tess : Tess
  con : Contour
  lat : Lattice
  lanes : List Lane
  comp : Comp
  crc : List CrcUnit
  moves : List DmaD
  cal : Cal
  perf : Perf
  deriving DecidableEq, Repr

/-- What leaves the package, in order (the model's own record; 00_scope.md R1 puts the receivers outside). -/
inductive Emission where
  /-- The first posted write of a status entry: the entry's address, its word 0 and its words 2-7 (R55). Word 1 follows as a
  write of its own. -/
  | entryHead (addr : Nat) (w0 : Word) (rest : List Word)
  /-- An MSI-X message. -/
  | msix (vector : Nat)
  /-- A posted write of words to a host address. -/
  | write (addr : Nat) (ws : List Word)
  /-- A posted write of bytes to a host address. -/
  | writeBytes (addr : Nat) (bs : List Byte)
  /-- A pulse on SHOT and SHOTR: time, fire (40 ns) or advance (10 ns). -/
  | pulse (t : Nat) (fire : Bool)
  /-- A forward frame on a lane: its line bits. -/
  | frame (lane : Nat) (bits : List Bool)
  /-- A setpoint packet: its 8b/10b characters, first bit highest (12 R318). -/
  | setpoint (chars : List (BitVec 10))
  /-- Step pulses of an auxiliary axis in one profile tick: count and direction. -/
  | steps (axis count : Nat) (positive : Bool)
  /-- A PTP message sent: port, type, sequence, domain. -/
  | ptp (port type seq domain : Nat)
  /-- A Chord datagram to a device: port and words. -/
  | chord (port dst : Nat) (ws : List Word)
  /-- An ARP reply or ICMP echo reply. -/
  | arpReply (port mac ip : Nat)
  | echoReply (port : Nat) (ws : List Word)
  /-- A PMBus command: rail entry, code, data. -/
  | pmbus (entry code value : Nat)
  /-- A BiSS-C cycle started on a source. -/
  | bissClock (src : Nat)
  deriving DecidableEq, Repr

/-- The state of the block. -/
structure State where
  fuses : Fuses
  ctl : Ctl
  pcie : Pcie
  hif : Hif
  perim : Perim
  tables : Tables
  libs : List Library
  areas : List Area
  seq : Seq
  dies : List Die
  dmaD : List DmaD
  dmaT : List DmaT
  therm : Therm
  locus : Locus
  arc : Arc
  datum : Datum
  chord : Chord
  flash : Flash
  calRuns : List CalRun
  perf : PerfCtl
  /-- Free values drawn so far: the argument of the next (model's own, not the spec's) [DC 0] -/
  free : Nat
  /-- What has left the package, oldest first (model's own) [DC empty] -/
  out : List Emission
  /-- Commands waiting, first in, first out [empty] -/
  pending : List Instr
  deriving DecidableEq, Repr

/-- The outcome of a command. -/
abbrev Res := Host.Outcome State Fault Refusal

/-! ### Reset values -/

def Fuses.reset : Fuses := { variant := .dg8, stepping := 0xA0, serial := 0, mac := 0, keySet := true, minSecurity := 0 }

def Ctl.reset : Ctl :=
  { dev := .standby, boot := .idle, ready := false, perst := true, hold := false, deviceId := 0, pixelPitch := 0,
    epoch := 0, d3hot := false, resetRequest := none, bootCause := 0, darkN := false, headTripN := false, fw := 0,
    scratch := 0, err := 0, irqStat := 0, msixMask := BitVec.allOnes 64, msixPending := 0, laneSel := 0,
    laneWrIgnored := false, altBank := false, fellBack := false, trials := 0, bank := 0,
    fallBackFlag := false }

def Pcie.reset : Pcie := { bar0 := 0, bar2 := 0, mps := 0, mrrs := 2 }

def CmdRing.reset (log2 : Nat) : CmdRing := { enabled := false, base := 0, log2 := log2, head := 0, tail := 0 }

def StatRing.reset : StatRing :=
  { enabled := false, base := 0, log2 := 6, tail := 0, head := 0, phase := true, reserved := 0,
    gen := 0 }

def Hif.reset : Hif :=
  { ncmd := CmdRing.reset 4, ucmd := CmdRing.reset 6, stat := StatRing.reset, holding := [], deferred := [],
    fenced := none, busy := none,
    owing := [], gen := 0, coalUs := 0, coalCount := 1, unsignalled := 0, err := 0 }

def Perim.reset : Perim :=
  { active := none, waiting := [], log := [], nextSeq := 0, dropped := 0, logLost := 0, gateNs := 0, lastC4 := none,
    stormSeen := false, stormActive := false, permanent := false, die0Exhausted := false, darks := 0, gateClosed := true,
    replace := false, uncomp := false }

def PassMask.reset : PassMask := { log2k := 0, select := 1, weights := List.replicate 64 0x8000 }

def Ramp.reset : Ramp := { w := 0, ramp := List.replicate 256 0 }

/-- The power-on defaults of every table (07 Table 7-5, 08 R200, R201, R205). -/
def Tables.reset : Tables :=
  { gens := List.replicate 7 0, classes := List.replicate 256 (0, 0), lrK := 0, lrCoef := [0], corrS := 12,
    corrT := List.replicate 1024 0x4000, srR := 0, srCoef := [0x4000], masks := List.replicate 16 PassMask.reset,
    ramps := List.replicate 16 Ramp.reset, beams := [] }

def Area.reset : Area :=
  { bound := none, channel := 0, first := 0, lowest := 0, blocks := [], bytes := [], held := none, root := none,
    cause := 0,
    under := false, fault := false, waiting := false, expect := 0, bad := 0, discard := 0, part := 0, faultSeq := 0,
    faultOff := 0 }

def Seq.reset : Seq :=
  { stripes := [], latch := none, interrupted := none, pauseMs := 50, lateLimit := 3, lateCount := 0, skipCount := 0,
    darkCount := 0, overspeed := false, dataLate := false, late := false, pause := false, headPause := false, thermPause := false,
    pauseFor := 0, ledger := [], first := 0, opened := [], reserve := false, stream := none, batch := [], last := none, sources := [],
    advanced := [], epochs := [], worn := none, strikes := [], overlay := [] }

def Tess.reset : Tess :=
  { work := none, coarseRow := 0, fineRow := 0, fetchFault := false, geoFault := false, waitCoarse := false,
    waitRing := false, waitBlock := false, waitQueue := false, cacheMiss := 0, fetchErr := 0, instances := 0, queue := [], counts := [],
    rerender := false, tiles := [], injected := 0, chkCol := 0, chkRow := 0, chkStripe := 0, chkDiff := 0, excess := 0,
    passed := 0 }

def Contour.reset : Contour :=
  { compress := false, cmode := false, ringOf := none, ring := [], ringLow := 0, expect := List.replicate 8 0,
    fabric := [], factors := [], lrNext := 0, next := 0, rdFault := false, densFault := false, waitFactor := false,
    waitDensity := false, waitTile := false, waitBuffer := false, pass := 0, gens := [0, 0, 0, 0], ceil := 0, block := 0,
    ceilCount := 0, negCount := 0, rawCount := 0, rdFail := 0, faultOwner := 0, faultKind := 0, faultRow := 0, raMib := 64,
    ra := [], raPut := 0, checked := [], stops := [], lost := [] }

def Lattice.reset : Lattice :=
  { window := [], regen := false, clamp := false, waitRow := false, clampCount := 0, beamLost := 0, gens := [0, 0, 0], shot := 0, pass := 0 }

def Line.reset : Line := { scr := 0, last := false, run := 0 }

/-- Groups carried by lane n of a die with no retired lane, and the first of them (08 LATTICE_LANE_MAPn). -/
def Lane.resetMap (n : Nat) : Nat × Nat := if n < 8 then (11, 11 * n) else (10, 88 + 10 * (n - 8))

def Lane.reset (die n : Nat) : Lane :=
  { id := 12 * die + n, power := .off, state := .down, retired := false, rate := 0, prbs := false, errInject := false,
    irqWarn := true, irqErr := true, headLocked := false, retLocked := false, headWarn := false, headTrip := false,
    strobeFault := false, tableOk := false, header := 0, groups := (Lane.resetMap n).1, firstGroup := (Lane.resetMap n).2,
    eye := (0, 0), eyeRet := (0, 0), err := 0, temp := 0, tempAt := none, silent := false, temps := [], limTrip := 0x0460, limWarn := 0x03C0,
    headFw := 0, headSerial := 0, headRate := 0, headBuf := 0, hello := false, nFrames := 0, echoErr := 0, retCrcErr := 0,
    retrains := 0, noCommit := 0, headDark := 0, stuffMax := 0, retrainAt := [], fseq := 0, rseq := 0, everL0 := false,
    tx := Line.reset, rx := Line.reset, echoes := [], lastError := none, recs := [], drainShot := 0, elems := [],
    elemSeq := 0, step := 0, trying := 0, target := 0, lastPass := none, fallBack := false, thermalL1 := false,
    prbs31 := none, codes := none, switchUnheard := false, frozen := [], fired := [] }

def Mem.reset : Mem :=
  { state := .off, capacity := 0, rate := 0, ranks := 0, lead := 0, deferred := false, debt := 0, panic := false,
    maxDefer := 100, panicOff := 6, panicOn := 3, err := 0, linkCe := 0, linkUe := 0, panicCount := 0, forcedRef := 0,
    makeUp := false, history := List.replicate 16 0, opened := List.replicate 16 none, forced := false, saved := none,
    dram := [] }

def Sram.reset : Sram :=
  { cells := [], ceCount := 0, ceAddr := 0, ueLog := none, scans := [], done := false, host := false, first := 0, last := 0,
    scanned := 0, corrected := 0, uncorr := 0, lowCe := none, lowUe := none }

def Sensor.reset : Sensor := { excluded := false, temp := 0, hot := 0, offset := 0, fresh := false }

def Pow.reset : Pow :=
  { on := 0x01, iso := 0xFE, sensors := List.replicate 12 Sensor.reset, demand := false, rounds := 0, vcore := 0, slack := 0,
    atLimit := false, highRounds := 0 }

def Therm.reset : Therm :=
  { rails := [], recordBad := false, pgoodFail := false, railFail := 0, power := 0, latched := false, stopped := false,
    throttle := false, warn := false, blind := false, margin := 10, minPause := 20, maxPause := 2000, pauseCount := 0,
    pauseMs := 0, alerts := 0 }

/-- A class D channel; channels 6 and 7 are firmware-owned at reset (03 R73). -/
def DmaD.reset (firmware : Bool) : DmaD :=
  { firmware := firmware, irqBad := true, abort := false, run := false, state := .stopped, err := 0, ring := 0, log2 := 4,
    index := 0, badCount := 0, discard := 0, bound := none, desc := none, sgl := [], entry := 0, offset := 0, done := 0,
    ended := false, paused := false, buffer := [], back := none }

def DmaT.reset : DmaT :=
  { source := .none, fullIrq := false, halfIrq := false, enabled := false, rdRange := false, full := false, half := false,
    buf := 0, log2 := 12, wr := 0, rd := 0, dropped := 0, waiting := [] }

def SrcCfg.reset : SrcCfg :=
  { mode := 0, invert := false, reference := 0, filter := 0, hysteresis := 0, period := 0, tolerance := 0, teeth := 0,
    ampLow := 40, ampHigh := 130, bits := 0, clock := 0, cycle := 0, window := 0, zTimeout := 0 }

def Source'.reset : Source' :=
  { cfg := SrcCfg.reset, pos := 0, valid := false, faults := 0, bad := false, barred := false, dir := false, extreme := 0,
    zLevel := false, bissWarn := false, crcSingle := 0, crcRow := 0, cycling := false, cycleAt := 0, lineDelay := 0, speed := 0,
    windowStart := 0, lastD := 0, corrections := 0, refCount := none, seen := none, lastTooth := none, toothUp := false,
    zIgnored := false, a := false, b := false, lastEdge := none,
    phase := 0, ampBad := 0 }

def Din.reset : Din :=
  { debounce := 0, invert := false, capture := false, stuckMs := 0, chatterCount := 0, chatterMs := 0, raw := false,
    level := false, value := false, stuck := false, chatter := false, changes := [] }

def LocusAxis.reset : LocusAxis :=
  { primary := none, secondary := none, negative := false, ratio := 0, devWindow := 0, pitch := 0, referenced := false,
    offset := 0, off2 := 0 }

def Compare.reset : Compare :=
  { state := .idle, axis := 0, dir := 0, target := 0, irq := false, capture := false, trigger := 0, event := false,
    late := false, pos := 0, ns := 0 }

def Locus.reset : Locus :=
  { sources := List.replicate 12 Source'.reset, dins := List.replicate 16 Din.reset,
    axes := List.replicate 10 LocusAxis.reset, compares := List.replicate 16 Compare.reset, irqEn := 0x7FFF, latency := 0,
    bandwidth := 0, lockWin := 256, unlockWin := 4096, markEvery := 0, captureCh := none, locked := false, good := 0,
    est := 0, estAt := 0, vel := 0, resid := 0, reversed := false, deviation := false, overrun := false, readback := false,
    deferred := none, deferred2 := none, gen := none, advances := 0, rbErr := 0 }

def Slot.reset : Slot := { vel := 0, acc := 0, dec := 0, jerk := 0 }

def Axis.reset : Axis :=
  { state := .absent, negDin := none, posDin := none, homeDin := none, softMin := 0, softMax := 0, stallWin := 0,
    stallUs := 0, velLim := 0, accLim := 0, faultDec := 0, jerkLim := 0, perStep := 0, stepWidth := 0, dirSetup := 0,
    invertDir := false, stepLow := false, inPosWin := 0, inPosUs := 0, slots := List.replicate 8 Slot.reset, cmd := 0,
    vel := 0, acc := 0, target := 0, move := Slot.reset, ctx := none, homing := none, homed := false, disableAfter := false,
    faultStop := false, inPosition := false, chatter := false, driveFault := false, stall := false, steps := 0,
    remainder := 0, stepDir := false }

def Arc.reset : Arc :=
  { axes := List.replicate 10 Axis.reset, overspeedDecel := false, spLinkFault := false, spRunning := false,
    settleUs := 2000, spCycle := 0, spErr := 0, spBad := 0, driveBits := 0, spDisparity := false, ticks := 0, scanVel := 0, approach := 0 }

def EthPort.reset : EthPort :=
  { speed := 0, fec := 0, vlan := false, vlanId := 0, ip := 0, prefixLen := 0, rxLat := 0, txLat := 0, link := false,
    txts := [], ovf := 0, drop := 0, seq := 0 }

def Domain.reset : Domain :=
  { state := .disabled, number := 0, enabled := false, port := 0, l2 := false, p2p := false, logDelay := 0, lockThr := 100,
    jumpThr := 1000, sdoId := 0, good := 0, discards := 0, known := false, offset := 0, rate := 0, lastOff := 0,
    master := none, pendingSync := none, delayReq := none, pdelay := none, syncPair := none, path := 0 }

def Trigger.reset : Trigger := { state := 0, late := false, ns := 0, frac := 0 }

def Datum.reset : Datum :=
  { time := 0, disciplined := false, stepPending := false, far := false, holdover := false, selected := 0, rho := 0,
    rate := 0, irq := 7, preferred := 0, revert := false, stepFirst := true, captureCh := none,
    ports := List.replicate 2 EthPort.reset, domains := List.replicate 2 Domain.reset,
    triggers := List.replicate 16 Trigger.reset, latch := (0, 0, 0), alias_ := (0, 0, 0) }

def Role.reset : Role := { holder := 0, epoch := 0 }

def Chord.reset : Chord :=
  { enabled := false, udpPort := 47020, rtoUs := 500, retriesMax := 6, syncMs := 10, aggregate := false,
    stitchEast := false, stitchWest := false, receiveCh := none, session := 0, peers := [],
    roles := List.replicate 4 Role.reset, groups := [], offers := [], unreach := false, unreachId := 0, rxDrop := 0,
    retry := 0, stale := 0, ackedTo := 0 }

def JobData.empty : JobData := { bits := [], hist := [], input := [], given := 0 }

def Comp.reset : Comp :=
  { ctxBusy := false, verifySeen := false, selftestOk := false, final := true, dynamic := false, dir := false, save := false,
    restored := false, job := 0, error := 0, fallback := false, ctx := 0, limit := 0, inBytes := 0, outBytes := 0,
    verifyFail := 0, decompErr := 0, blocks := 0, data := JobData.empty, out := [], inDone := false, fault := 0, saved := [],
    off := false }

def CrcUnit.reset : CrcUnit :=
  { mode := 0, width := 32, refin := true, refout := true, poly := 0x1EDC6F41, init := 0xFFFFFFFF, xorout := 0xFFFFFFFF,
    fold0 := 0, fold1 := 0, fold2 := 0, value := 0, bytes := 0, mismatches := 0, selftestOk := false, cfgErr := false,
    cfgLocked := false, mismatch := false, busy := false }

/-- Default values of the calibration items (17 R431): 36 FFE codes, 4 encoder quadruples with ratio 0x8000, 2 trims,
18 memory settings; SENSOR keeps its values in the sensors. -/
def Cal.resetValues : List (List Int) :=
  [List.replicate 36 0, [0, 0, 0x8000, 0, 0, 0, 0x8000, 0, 0, 0, 0x8000, 0, 0, 0, 0x8000, 0], [0, 0],
    List.replicate 18 0, List.replicate 12 0]

def Cal.reset : Cal :=
  { values := Cal.resetValues, measured := Cal.resetValues,
    quality := [List.replicate 12 0, List.replicate 4 0, List.replicate 2 0, [0], List.replicate 12 0],
    sensorOut := 0, noRecord := false, below := 0, auto := 0xF, steps := 0, gen := 0, sensorRun := false, sensorNew := [] }

/-! ### Flash blocks (18 R442, R444) -/

/-- Flash address of a bank (18 Table 18-2). -/
def bankBase (b : Nat) : Nat := if b = 0 then 0x0200000 else 0x4200000

/-- The check word of the flash block at an address (R444). -/
def blockCheck (addr : Nat) (data : List Word) : Word := crcWords (0xFFFFFFFF ^^^ BitVec.ofNat 32 addr) data

/-- Flash blocks from an address up, each of 1,023 data words and its check word (R444). -/
def flashBlocks (addr : Nat) : List (List Word) → List Word
  | [] => []
  | data :: rest => data ++ [blockCheck addr data] ++ flashBlocks (addr + 4096) rest

/-- Entry k of the initial set's manifest: an image of 4 bytes in flash block 4 + k. -/
def initialEntry (k : Nat) : List Word :=
  let kind := if k < 8 then 1 + 256 * k else k - 6 + 0xFF00
  [BitVec.ofNat 32 kind, 0x00010000, BitVec.ofNat 32 (4096 * (4 + k)), 4] ++ List.replicate 12 0

/-- The data words of the initial set's manifest: header, ten entries, key and signature, and zeros to 4,092 words. -/
def initialManifest : List Word :=
  [0x57464744, 0x01070A01, 0x00010000, 0] ++ List.replicate 12 0 ++ (List.range 10).flatMap initialEntry
    ++ List.replicate 3916 0

/-- The set both banks hold in the model's initial flash: version 0x0001_0000, security 0, for every variant, without head
firmware (DESIGN CHOICE, notes/assumptions/1.md). -/
def BankImage.initial (b : Nat) : BankImage :=
  { content := flashBlocks (bankBase b)
      ((List.range 4).map (fun k => (initialManifest.drop (1023 * k)).take 1023) ++ List.replicate 10 (List.replicate 1023 0)),
    keyOk := true, signatureOk := true, digestsOk := true }

def Flash.reset : Flash :=
  { sel := [none, none], banks := [some (BankImage.initial 0), some (BankImage.initial 1)], cal := [none, none, none, none],
    busy := 0, blocks := 0, staging := none }

def Perf.reset : Perf := { cnt := List.replicate 192 0, snap := List.replicate 192 0, hi := [] }

def PerfCtl.reset : PerfCtl :=
  { mirrorUs := 1000, userEn := false, snapSeq := 0, mirror := [0, 0, 0, 0, 0], mirrorCnt := [], update := 0,
    stream := none }

def Die.reset (d : Nat) : Die :=
  { id := d, retired := false, facetFailed := false, contourFailed := false, latticeFailed := false, memFailed := false,
    crcFailed := false, facetCount := 0, clampCount := 0, verifyCount := 0, apex := 0, imageOk := false, tcm := [], tb := 0, tbHi := 0,
    frozen := [],
    pow := Pow.reset, mem := Mem.reset, sram := Sram.reset, tess := Tess.reset, con := Contour.reset, lat := Lattice.reset,
    lanes := (List.range 12).map (Lane.reset d), comp := Comp.reset, crc := List.replicate 4 CrcUnit.reset,
    moves := List.replicate 4 (DmaD.reset true), cal := Cal.reset, perf := Perf.reset }

/-- Dies of a variant (00_scope.md R4). -/
def Variant.dies : Variant → Nat
  | .dg8 => 8
  | .dg4 => 4
  | .dg2 => 2

/-- The state of a device with the fuses given right after the power-on reset is released: STANDBY, every item of the
power-on column of 18_boot_update.md Table 18-1 at its reset value. -/
def State.powerOn (f : Fuses) (flash : Flash) : State :=
  { fuses := f, ctl := Ctl.reset, pcie := Pcie.reset, hif := Hif.reset, perim := Perim.reset, tables := Tables.reset, libs := [],
    areas := List.replicate 2 Area.reset, seq := Seq.reset, dies := (List.range f.variant.dies).map Die.reset,
    dmaD := List.replicate 6 (DmaD.reset false) ++ List.replicate 2 (DmaD.reset true),
    dmaT := List.replicate 8 DmaT.reset, therm := Therm.reset, locus := Locus.reset, arc := Arc.reset,
    datum := Datum.reset, chord := Chord.reset, flash := flash, calRuns := [], perf := PerfCtl.reset, free := 0, out := [],
    pending := [] }

/-- The machine right after reset: a DG-8 whose power-on reset has just been released (18 R438, 20 R476). -/
def State.reset : State := State.powerOn Fuses.reset Flash.reset

end Sys2Proof.Machine
end

