-- ==== Sys2Proof/Machine/Ops.lean ====
section
/-! DEFINITION. The named operations every meaning is built from: bit fields, counters, canonical sparse lists, check
values, access to dies and lanes, time, interrupts and emissions. -/

namespace Sys2Proof.Machine

/-! ### Numbers and bit fields -/

/-- Bits [hi:lo] of a number. -/
def bits (v hi lo : Nat) : Nat := v / 2 ^ lo % 2 ^ (hi + 1 - lo)

/-- Bit i of a number. -/
def bit (v i : Nat) : Bool := v / 2 ^ i % 2 == 1

def b2n (b : Bool) : Nat := if b then 1 else 0

/-- A number as w-bit two's complement, read as signed. -/
def signed (w v : Nat) : Int := if v % 2 ^ w < 2 ^ (w - 1) then (v % 2 ^ w : Nat) else (v % 2 ^ w : Nat) - (2 ^ w : Nat)

/-- A signed number in w bits of two's complement. -/
def unsigned (w : Nat) (i : Int) : Nat := (i % (2 ^ w : Nat)).toNat

/-- A 32-bit saturating counter (19_register_map.md R464). -/
def satInc (n : Nat) : Nat := if n < 0xFFFFFFFF then n + 1 else n

def satAdd (n k : Nat) : Nat := min (n + k) 0xFFFFFFFF

/-- A 32-bit wrapping counter (R464). -/
def wrapAdd (n k : Nat) : Nat := (n + k) % 2 ^ 32

/-- Ceiling division. -/
def ceilDiv (a b : Nat) : Nat := (a + b - 1) / b

/-- floor(a/b + 1/2) for a signed a and positive b. -/
def roundDiv (a : Int) (b : Nat) : Int := (2 * a + b) / (2 * (b : Int))

/-- Clamp a signed value to s32. -/
def satS32 (i : Int) : Int := max (-(2 ^ 31)) (min i (2 ^ 31 - 1))

/-! ### Canonical sparse lists: keys strictly rising, no entry equal to the default -/

/-- The value at a key. -/
def sparseGet {α : Type} (dflt : α) : List (Nat × α) → Nat → α
  | [], _ => dflt
  | (k, v) :: rest, a => if k = a then v else sparseGet dflt rest a

/-- Writing a value; writing the default removes the entry. -/
def sparseSet {α : Type} [DecidableEq α] (dflt : α) : List (Nat × α) → Nat → α → List (Nat × α)
  | [], a, v => if v = dflt then [] else [(a, v)]
  | (k, w) :: rest, a, v =>
    if a < k then (if v = dflt then (k, w) :: rest else (a, v) :: (k, w) :: rest)
    else if a = k then (if v = dflt then rest else (a, v) :: rest)
    else (k, w) :: sparseSet dflt rest a v

/-- The canonical form. -/
def sparseWf {α : Type} [DecidableEq α] (dflt : α) : List (Nat × α) → Bool
  | [] => true
  | [(_, v)] => decide (v ≠ dflt)
  | (k, v) :: (k', v') :: rest => decide (v ≠ dflt) && decide (k < k') && sparseWf dflt ((k', v') :: rest)

/-- Writing consecutive values from a key up. -/
def sparseSetRange {α : Type} [DecidableEq α] (dflt : α) (m : List (Nat × α)) (a : Nat) : List α → List (Nat × α)
  | [] => m
  | v :: vs => sparseSetRange dflt (sparseSet dflt m a v) (a + 1) vs

/-- Reading n consecutive values. -/
def sparseRange {α : Type} (dflt : α) (m : List (Nat × α)) (a n : Nat) : List α :=
  (List.range n).map fun i => sparseGet dflt m (a + i)

/-! ### Dies and lanes -/

def State.nDies (s : State) : Nat := s.fuses.variant.dies

/-- Die d; a retired placeholder with its reset contents where the variant has none. -/
def State.die (s : State) (d : Nat) : Die := s.dies.getD d { Die.reset d with retired := true }

def State.modDie (s : State) (d : Nat) (f : Die → Die) : State := { s with dies := s.dies.modify d f }

def State.modDies (s : State) (f : Die → Die) : State := { s with dies := s.dies.map f }

/-- Lane l of the device is lane l mod 12 of die l div 12 (10_rolgo_lanes.md R248). -/
def State.lane (s : State) (l : Nat) : Lane := (s.die (l / 12)).lanes.getD (l % 12) (Lane.reset (l / 12) (l % 12))

def State.modLane (s : State) (l : Nat) (f : Lane → Lane) : State :=
  s.modDie (l / 12) fun d => { d with lanes := d.lanes.modify (l % 12) f }

def State.modLanes (s : State) (f : Lane → Lane) : State :=
  s.modDies fun d => { d with lanes := d.lanes.map f }

def State.nLanes (s : State) : Nat := 12 * s.nDies

def State.lanes (s : State) : List Lane := s.dies.flatMap (·.lanes)

/-- Numbers of the non-retired dies. -/
def State.liveDies (s : State) : List Nat := (s.dies.filter fun d => !d.retired).map (·.id)

def State.dieLive (s : State) (d : Nat) : Bool := d < s.nDies && !(s.die d).retired

/-- Domains of PWR_DOM (16_power_thermal.md PWR_DOM). -/
def State.domOn (s : State) (d i : Nat) : Bool := (s.die d).pow.on.getLsbD i

/-- BAR0 answers: the IO domain of die 0 is on, and the function is not in D3hot (16 R401, 19 R459). -/
def State.hifOn (s : State) : Bool := s.domOn 0 7 && !s.ctl.d3hot

/-- The device runs: CONFIGURED, ARMED, WRITING or SAFE_DARK (Table 1-8). -/
def State.running (s : State) : Bool :=
  s.ctl.ready && (s.ctl.dev == .configured || s.ctl.dev == .armed || s.ctl.dev == .writing || s.ctl.dev == .safeDark)

/-- ARMED or WRITING. -/
def State.active (s : State) : Bool := s.ctl.dev == .armed || s.ctl.dev == .writing

/-! ### Time (13_time_chord.md R333) -/

/-- Device time in ns. -/
def State.ns (s : State) : Nat := s.datum.time / 2 ^ 48

def State.timeSec (s : State) : Nat := s.ns / 1000000000

def State.timeNs (s : State) : Nat := s.ns % 1000000000

/-- The fraction in 2^-16 ns. -/
def State.timeFrac (s : State) : Nat := s.datum.time / 2 ^ 32 % 2 ^ 16

/-! ### Emissions, interrupts, counters -/

def State.emit (s : State) (e : Emission) : State := { s with out := s.out ++ [e] }

def State.emits (s : State) (es : List Emission) : State := { s with out := s.out ++ es }

/-- An event of MSI-X vector v without its message: DEV_IRQ_STAT (19 R468). -/
def State.irqSeen (s : State) (v : Nat) : State :=
  { s with ctl.irqStat := s.ctl.irqStat ||| BitVec.ofNat 28 (2 ^ v) }

/-- The message of vector v: sent, or left pending while the vector is masked or the function is in D3hot (02 R50). -/
def State.message (s : State) (v : Nat) : State :=
  if s.ctl.msixMask.getLsbD v || s.ctl.d3hot then
    { s with ctl.msixPending := s.ctl.msixPending ||| BitVec.ofNat 64 (2 ^ v) }
  else s.emit (.msix v)

/-- The messages that wait for no mask are sent (02 R50): pending bits of unmasked vectors, in D0. -/
def State.sendPending (s : State) : State :=
  if s.ctl.d3hot then s
  else
    let sent := (List.range 28).filter fun v => s.ctl.msixPending.getLsbD v && !s.ctl.msixMask.getLsbD v
    { s.emits (sent.map Emission.msix) with
      ctl.msixPending := sent.foldl (fun b v => b &&& ~~~(BitVec.ofNat 64 (2 ^ v))) s.ctl.msixPending }

/-- The endpoint's own state after a reset of the function: configuration registers at reset, every vector masked and none
pending (02 R49, R50; the first two as PCI Express has them, notes/assumptions/45.md). -/
def State.resetFunction (s : State) : State :=
  { s with pcie := Pcie.reset, ctl.msixMask := BitVec.allOnes 64, ctl.msixPending := 0 }

/-- An event of vector v while the endpoint is powered (02 R50, 19 R468). -/
def State.signal (s : State) (v : Nat) : State := if s.domOn 0 7 then (s.irqSeen v).message v else s

/-- Add to a performance counter of a die while its FABRIC domain is on; it wraps at 2^48 (17 R433). -/
def State.count (s : State) (d i n : Nat) : State :=
  if s.domOn d 2 then
    s.modDie d fun x => { x with perf.cnt := x.perf.cnt.modify i fun c => (c + n) % 2 ^ 48 }
  else s

/-- Bytes written to host memory in bursts of up to 512, none across a 4 KiB boundary (03 R88). The fuel bounds the bursts. -/
def byteBursts : Nat → Nat → List Byte → List Emission
  | 0, _, _ => []
  | fuel + 1, addr, bs =>
    let n := min 512 (4096 - addr % 4096)
    if bs.isEmpty then [] else .writeBytes addr (bs.take n) :: byteBursts fuel (addr + n) (bs.drop n)

/-- The same for words at a word's address. -/
def wordBursts : Nat → Nat → List Word → List Emission
  | 0, _, _ => []
  | fuel + 1, addr, ws =>
    let n := min 128 (1024 - addr % 4096 / 4)
    if ws.isEmpty then [] else .write addr (ws.take n) :: wordBursts fuel (addr + 4 * n) (ws.drop n)

/-- Words written to host memory: bursts of words, or of bytes where the address is not that of a word (R88). -/
def hostBursts (addr : Nat) (ws : List Word) : List Emission :=
  if addr % 4 = 0 then wordBursts ws.length addr ws else byteBursts (4 * ws.length) addr (wordsBytes ws)

/-- Words written to host memory (03 R85); the bytes are counted (Table 17-5). -/
def State.hostWrite (s : State) (addr : Nat) (ws : List Word) : State :=
  (s.emits (hostBursts addr ws)).count 0 180 (4 * ws.length)

/-- Bytes read from host memory are counted (Table 17-5). -/
def State.hostRead (s : State) (n : Nat) : State := s.count 0 179 n

/-- Draw a free value: the argument the opaque functions of Config take. -/
def State.draw (s : State) : Nat × State := (s.free, { s with free := s.free + 1 })

/-- Set a bit of DEV_ERR (19 DEV_ERR): 0 unassigned, 1 width, 2 owned, 3 state_locked. -/
def State.devErr (s : State) (i : Nat) : State := { s with ctl.err := s.ctl.err ||| BitVec.ofNat 4 (2 ^ i) }

/-- Set a bit of HIF_ERR (02 HIF_ERR): 0 db_range, 1 cfg_locked, 2 fetch_err, 3 status_err. -/
def State.hifErr (s : State) (i : Nat) : State := { s with hif.err := s.hif.err ||| BitVec.ofNat 4 (2 ^ i) }

end Sys2Proof.Machine
end

