-- ==== Sys2Proof/Machine/Clock.lean ====
section
/-! DEFINITION. The passing of time: one tick of the 400 MHz timebase (01 R32, 13 R333, R338). -/

namespace Sys2Proof.Machine

/-- The device time's increment of a 2.5 ns tick at a rate in 0.001 ppm, in 2^-48 ns (R333). -/
def tickIncrement (rate : Int) : Int := (5 * 2 ^ 47 * (1000000000 + rate)) / 1000000000

/-- What a tick takes off the residue: 10 ppm of 2.5 ns, in 2^-48 ns (R338). -/
def tickSlew (rho : Int) : Int := max (-7036874417) (min rho 7036874417)

/-- A domain's estimate goes on at its own rate while the device time moves by `step` (2^-48 ns). -/
def Domain.tick (step : Int) (d : Domain) : Domain :=
  if d.known then { d with offset := d.offset + tickIncrement d.rate - step } else d

/-- One timebase tick: the timebase of every die whose CTRL domain runs counts, and while Datum's domain, IO, is on (01
Table 1-1) the device time goes on at its rate, bringing the residue towards 0. -/
def State.tick (s : State) : State :=
  let s := s.modDies fun d => if d.pow.on.getLsbD 1 then { d with tb := d.tb + 1 } else d
  if s.domOn 0 7 then
    let slew := tickSlew s.datum.rho
    let step := tickIncrement s.datum.rate - slew
    { s with
      datum.time := ((s.datum.time : Int) + step).toNat, datum.rho := s.datum.rho - slew
      datum.domains := s.datum.domains.map (Domain.tick step) }
  else s

end Sys2Proof.Machine
end

