-- ==== Sys2Proof/Machine/Frames.lean ====
section
/-! DEFINITION. Lane frames: line coding, forward frames with their records, commits and control elements, the entry to L0,
and the registers of the lane window (10_rolgo_lanes.md R250-R263, Table 10-12). -/

namespace Sys2Proof.Machine

/-! ### Line coding (R250-R252) -/

/-- A bit on the line: the run of identical bits it ends. -/
def Line.put (l : Line) (b : Bool) : Line := { l with last := b, run := if l.run != 0 && b == l.last then l.run + 1 else 1 }

/-- The scrambler's feedback: the scrambled bits 39 and 58 back (R251). -/
def Line.feedback (l : Line) : Bool := l.scr.getLsbD 38 != l.scr.getLsbD 57

def Line.shift (l : Line) (b : Bool) : Line := { l with scr := (l.scr <<< 1) ||| BitVec.ofNat 58 (b2n b) }

/-- A direction's transmitter: line state, line bits newest first, stuff bits. -/
structure Tx where
  line : Line
  out : List Bool
  stuffed : Nat
  deriving DecidableEq, Repr

/-- One content bit scrambled, sent, and followed by a stuff bit after a run of 24 (R251, R252). -/
def Tx.bit (t : Tx) (c : Bool) : Tx :=
  let b := c != t.line.feedback
  let line := (t.line.shift b).put b
  if line.run = 24 then { line := line.put (!b), out := (!b) :: b :: t.out, stuffed := t.stuffed + 1 }
  else { line := line, out := b :: t.out, stuffed := t.stuffed }

/-- Fill: alternating bits from the complement of the last line bit (R252). -/
def Tx.fill (t : Tx) : Nat → Tx
  | 0 => t
  | n + 1 => Tx.fill { t with line := t.line.put (!t.line.last), out := (!t.line.last) :: t.out } n

def byteBits (b : Byte) : List Bool := (List.range 8).map fun i => b.getLsbD i

/-- A frame of `len` bit-times: its line bits and the transmitter after it. -/
def sendBits (line : Line) (len : Nat) (content : List Byte) : Tx :=
  let t := (content.flatMap byteBits).foldl Tx.bit { line := line, out := [], stuffed := 0 }
  t.fill (len - t.out.length)

/-- A direction's receiver: line state, content bits newest first, a stuff bit of the wrong value, and whether the fill has
begun (R252). -/
structure Rx where
  line : Line
  got : List Bool
  bad : Bool
  fill : Bool
  deriving DecidableEq, Repr

/-- One line bit: stuff after a run of 24, also after the last content bit; content; or fill beyond n content bits. -/
def Rx.bit (n : Nat) (r : Rx) (b : Bool) : Rx :=
  if r.fill then { r with line := r.line.put b }
  else if r.line.run = 24 then
    { r with line := r.line.put b, bad := r.bad || b == r.line.last, fill := decide (n ≤ r.got.length) }
  else if n ≤ r.got.length then { r with line := r.line.put b, fill := true }
  else { r with line := (r.line.shift b).put b, got := (b != r.line.feedback) :: r.got }

/-- The content bits of a received frame, in line order. -/
def receiveBits (line : Line) (n : Nat) (bits : List Bool) : Rx := bits.foldl (Rx.bit n) 
  { line := line, got := [], bad := false, fill := false }

/-- A number from bits, first bit least. -/
def bitsNat : List Bool → Nat
  | [] => 0
  | b :: bs => b2n b + 2 * bitsNat bs

/-! ### Records and commits (R217, R255, R259-R261) -/

/-- The 6-bit codes of a record as one number (Table 8-6). -/
def codesNat (cs : List Nat) : Nat := cs.foldr (fun c n => c % 64 + 64 * n) 0

/-- Little-endian bytes of a number. -/
def natBytes (n : Nat) : Nat → List Byte
  | 0 => []
  | k + 1 => BitVec.ofNat 8 n :: natBytes (n / 256) k

/-- The 194 bytes of a group record (Table 8-6). -/
def Rec.bytes (r : Rec) : List Byte :=
  natBytes (r.epoch % 8 * 2 ^ 13 + r.shot % 8 * 2 ^ 10 + r.group % 1024) 2 ++ natBytes (codesNat r.codes) 192

/-- Two bookkeeping entries stand for one record. -/
def Rec.same (a b : Rec) : Bool :=
  a.stripe == b.stripe && a.pass == b.pass && a.shot == b.shot && a.group == b.group && a.epoch == b.epoch

/-- Every frame that carries part of the record is good (R259). -/
def Rec.echoed (r : Rec) : Bool := r.sent == 194 && r.frames.isEmpty && !r.bad

/-- Confirmed (R260). -/
def Rec.confirmed (r : Rec) : Bool := r.placed && r.echoed

/-- The record whose bytes come next: one begun goes on; else ascending shot, then group (R255). -/
def nextRec (rs : List Rec) : Option Rec :=
  match rs.find? fun r => 0 < r.sent && r.sent < 194 with
  | some r => some r
  | none => (rs.filter fun r => r.sent == 0).foldl (fun best r => match best with
      | none => some r
      | some b => if r.shot < b.shot || (r.shot = b.shot && r.group < b.group) then some r else some b) none

/-- What a DATA payload is filled with. -/
structure Payload where
  recs : List Rec
  bytes : List Byte
  first : Option Nat
  ended : Nat
  deriving DecidableEq, Repr

/-- Fill a payload of 480 bytes from the record stream (R255); the fuel bounds the records that touch one frame. -/
def fillPayload (fseq : Nat) : Nat → Payload → Payload
  | 0, p => p
  | fuel + 1, p =>
    if 480 ≤ p.bytes.length then p
    else
      match nextRec p.recs with
      | none => p
      | some r =>
        let k := min (194 - r.sent) (480 - p.bytes.length)
        let r' := { r with sent := r.sent + k, frames := r.frames ++ [fseq] }
        fillPayload fseq fuel
          { recs := p.recs.map fun x => if x.same r then r' else x
            bytes := p.bytes ++ (r.bytes.drop r.sent).take k
            first := if r.sent = 0 && p.first.isNone then some p.bytes.length else p.first
            ended := p.ended + b2n (r'.sent == 194) }

/-- The commit of a header (R261): shot, epoch parity and the records named; the oldest shot whose strobe is not emitted and
that has a confirmed record; the parities of one shot alternate by frame. -/
def commitOf (recs : List Rec) (next fseq : Nat) : Option (Nat × Nat × List Rec) :=
  let ready := recs.filter fun r => r.confirmed && next ≤ r.shot
  match ready with
  | [] => none
  | r :: rs =>
    let n := rs.foldl (fun m x => min m x.shot) r.shot
    let mine := ready.filter fun x => x.shot == n
    let both := (mine.any fun x => x.epoch % 2 == 0) && mine.any fun x => x.epoch % 2 == 1
    let par := if both then fseq % 2 else (mine.map fun x => x.epoch % 2).foldl max 0
    some (n, par, mine.filter fun x => x.epoch % 2 == par)

/-- The commit mask: bit g mod 16 of each record (R261). -/
def commitMask (rs : List Rec) : Nat := ((List.range 16).map fun b => if rs.any fun r => r.group % 16 == b then 2 ^ b else 0).sum

/-- The header of a forward frame (Table 10-2). -/
def frameHeader (control : Bool) (commit : Option (Nat × Nat × List Rec)) (fill : Bool) (first : Nat) : Nat :=
  let c := match commit with | some (n, p, rs) => n % 8 * 2 ^ 28 + p * 2 ^ 27 + commitMask rs * 2 ^ 11 | none => 0
  b2n control * 2 ^ 31 + c + b2n fill * 2 ^ 10 + first

/-! ### Control elements (Table 10-3) -/

def Elem.bytes (e : Elem) : List Byte :=
  [BitVec.ofNat 8 e.type, BitVec.ofNat 8 (b2n e.ackReq)] ++ natBytes e.seq 2 ++ wordBytes e.arg
    ++ (e.data ++ List.replicate 32 0).take 32

/-- An element to send that no rule numbers. -/
def Elem.of (type : Nat) (arg : Word) (data : List Byte) : Elem :=
  { type := type, ackReq := false, seq := 0, arg := arg, data := data, tries := 0, due := true }

/-- Queue an element on a lane: one that asks for an answer takes the next element sequence (R256). -/
def Lane.addElem (l : Lane) (type : Nat) (arg : Word) (data : List Byte) (ack : Bool) : Lane :=
  { l with
    elems := l.elems ++ [{ Elem.of type arg data with ackReq := ack, seq := l.elemSeq }]
    elemSeq := if ack then (l.elemSeq + 1) % 65536 else l.elemSeq }

/-- One step of the PRBS31 generator x^31 + x^28 + 1 (PRESUMED, notes/assumptions/50.md): its new low bit is the output. -/
def prbsNext (v : BitVec 31) : BitVec 31 := (v <<< 1) ||| BitVec.ofNat 31 (b2n (v.getLsbD 30 != v.getLsbD 27))

/-- The next bits of the sequence, and the generator after them. -/
def prbsBits : Nat → BitVec 31 → List Bool × BitVec 31
  | 0, v => ([], v)
  | n + 1, v =>
    let v := prbsNext v
    let r := prbsBits n v
    (v.getLsbD 0 :: r.1, r.2)

/-- The next bytes of the sequence, each bit 0 first, and the generator after them. -/
def prbsBytes : Nat → BitVec 31 → List Byte × BitVec 31
  | 0, v => ([], v)
  | n + 1, v =>
    let b := prbsBits 8 v
    let r := prbsBytes n b.2
    (BitVec.ofNat 8 (bitsNat b.1) :: r.1, r.2)

/-- A lane's generator: where no rule states its start, a free value that is not 0. -/
def State.generator (s : State) (l : Lane) : BitVec 31 :=
  l.prbs31.getD (let v := (Config.freeWord s.free).extractLsb' 0 31
    if v = 0 then 1 else v)

/-- The elements a control frame takes, and those that remain afterwards. -/
def Lane.takeElems (l : Lane) : List Elem × List Elem :=
  let now := (l.elems.filter (·.due)).take 12
  (now, l.elems.filterMap fun e =>
    if now.contains e then (if e.ackReq then some { e with due := false, tries := e.tries + 1 } else none) else some e)

/-! ### Forward frames (R253-R255) -/

/-- The lane number and sequence of the seeds: 127 and 0 until L0 is first reached (R254). -/
def Lane.seed (l : Lane) (base : Word) (seq : Nat) : Word :=
  let n := if l.everL0 then l.id else 127
  base ^^^ BitVec.ofNat 32 (if l.everL0 then seq else 0) ^^^ BitVec.ofNat 32 (n * 2 ^ 24)

/-- A lane with its training frames. -/
def Lane.trains (l : Lane) : Bool := l.state == .training || l.state == .retraining || (l.state == .down && l.hello)

/-- The timebase that times retrains and reports: die 0's, 2.5 ns a step. -/
def State.now (s : State) : Nat := (s.die 0).tb.toNat

/-- A lane sends its next forward frame: CONTROL where asked, at the fixed positions, and while it trains; else DATA. A CONTROL
frame that has no other element in L0 carries a HEARTBEAT (no rule says when one is sent: DESIGN CHOICE,
notes/assumptions/50.md). -/
def State.sendFrame (s : State) (n : Nat) (control : Bool) : State :=
  let l := s.lane n
  let recs := if l.trains || l.state == .draining then [] else l.recs
  let more := (nextRec recs).isSome && !l.prbs
  let control := l.trains || l.fseq % 200 == 199 || (control && !more)
  let crossed := match s.locus.gen with | some g => g.next | none => 0
  let commit := if s.locus.gen.isNone || l.trains then none else commitOf l.recs crossed l.fseq
  let (due, rest) := l.takeElems
  let now := if due.isEmpty && !l.trains then [Elem.of 0x01 (BitVec.ofNat 32 s.now) []] else due
  let p := fillPayload l.fseq 5 { recs := l.recs, bytes := [], first := none, ended := 0 }
  let p := if control || !more then { p with recs := l.recs, bytes := [], first := none, ended := 0 } else p
  let pad := 12 - now.length
  let prbs := prbsBytes (if l.trains then 32 * pad else if l.prbs && !control then 480 else 0) (s.generator l)
  let train := (List.range pad).flatMap fun i =>
    (if l.trains then Elem.of 0x04 0 (prbs.1.drop (32 * i)) else Elem.of 0 0 []).bytes
  let payload :=
    if control then now.flatMap Elem.bytes ++ train
    else if l.prbs && !l.trains then prbs.1
    else (p.bytes ++ List.replicate 480 0).take 480
  let header := if control then frameHeader true commit false 0
    else frameHeader false commit (decide (p.bytes.length < 480)) (p.first.getD 511)
  let content := wordBytes (BitVec.ofNat 32 header) ++ payload
  let good := crc32c (l.seed 0xFFFFFFFF l.fseq) content
  let crc := if l.errInject then good ^^^ (Config.freeWord (s.free + 1) ||| 1#32) else good
  let tx := sendBits l.tx 4096 (content ++ wordBytes crc)
  let named := match commit with | some (_, _, rs) => rs | none => []
  let watched := l.state == .up || l.state == .draining
  let s := s.modLane n fun x =>
    { x with
      recs := p.recs.map fun r => if named.any fun c => c.same r then { r with committed := true } else r
      elems := if control then rest else x.elems
      fseq := (x.fseq + 1) % 2 ^ 32, nFrames := wrapAdd x.nFrames 1, errInject := false, tx := tx.line
      prbs31 := some prbs.2
      stuffMax := max x.stuffMax tx.stuffed
      echoes := if watched then x.echoes ++ [(l.fseq, crc)] else x.echoes }
  let e := 64 + 8 * (n % 12)
  let s := ((({ s with free := s.free + 2 }.count (n / 12) e 1).count (n / 12) (e + 1) (b2n (!control && more))).count
    (n / 12) (e + 2) p.ended)
  s.emit (.frame n tx.out.reverse)

/-- A lane's pending LANE_EQ steps are discarded (17 R426). -/
def Die.dropLaneEq (d : Die) (lane : Nat) : Die :=
  { d with cal := { d.cal with measured := d.cal.measured.modify 0 fun l =>
      [3 * lane, 3 * lane + 1, 3 * lane + 2].foldl (fun l i => l.set i ((d.cal.values.getD 0 []).getD i 0)) l } }

/-! ### L0 (R267, R270, R273, R276) -/

/-- HEAD_WARN of a lane (R276). -/
def Lane.warns (l : Lane) : Bool :=
  l.header.getLsbD 18 || l.silent || l.temps.any fun t => decide (l.limWarn ≤ t.2)

/-- A trip report of a lane (R276). -/
def Lane.trips (l : Lane) : Bool := l.header.getLsbD 19 || l.temps.any fun t => decide (l.limTrip ≤ t.2)

/-- Records that no commit has named are lost with a retrain (R273). -/
def Rec.lose (r : Rec) : Rec := if r.committed then r else { r with bad := true, sent := 194 }

/-- Elements still unanswered get the sequences after START, from 0 (R267). -/
def renumber : Nat → List Elem → List Elem
  | _, [] => []
  | k, e :: es =>
    if e.ackReq then { e with seq := k, tries := 0, due := true } :: renumber (k + 1) es else { e with due := true } :: renumber k es

/-- Sequences and bookkeeping at entry to L0. -/
def Lane.enterL0 (l : Lane) (elems : List Elem) : Lane :=
  let l := { l with
    state := .up, power := .l0, everL0 := true, retLocked := true, fseq := 0, rseq := 0, step := 0, fallBack := false
    elems := renumber 0 elems, elemSeq := (elems.filter fun (e : Elem) => e.ackReq).length, echoes := [], lastError := none
    silent := false, recs := l.recs.map Rec.lose }
  { l with headWarn := l.warns }

/-- HEAD_WARN without the missing TEMP report, which counts only in L0 outside retrains (R276). -/
def Lane.hushed (l : Lane) : Lane :=
  let l := { l with silent := false }
  { l with headWarn := l.warns }

/-- A lane leaves L1 by TRAIN frames at the rate it holds (Table 10-11). -/
def Lane.leaveL1 (l : Lane) : Lane :=
  { l with state := .training, step := 8, trying := l.rate, target := l.rate, lastPass := none, thermalL1 := false }

/-- On the way to STANDBY every lane in L0 is sent to L2; no answer is awaited (R270; DEDUCED, notes/assumptions/50.md). -/
def State.lanesToL2 (s : State) : State :=
  ((s.lanes.filter fun l => l.state == .up && l.power == .l0 && !l.retired).map (·.id)).foldl (fun s n =>
    (s.modLane n fun l => { l with elems := [{ Elem.of 0x06 2 [] with ackReq := true, seq := l.elemSeq }] }).sendFrame n true) s

/-- START ends training, a retrain or a low-power state (R267, R270, R273): it goes out in a CONTROL frame, and the lane is in
L0. -/
def State.startLane (s : State) (n : Nat) : State :=
  let elems := (s.lane n).elems
  let s := (s.modLane n fun l => { l with elems := [Elem.of 0x05 0 []] }).sendFrame n true
  s.modLane n fun l => l.enterL0 elems

/-! ### Registers (Table 10-12) -/

/-- Retrains of the last 10 s. -/
def State.recentRetrains (s : State) (l : Lane) : Nat := (l.retrainAt.filter fun t => s.now < t + 4000000000).length

def LanePower.code : LanePower → Nat
  | .l0 => 0
  | .l1 => 1
  | .l2 => 2
  | .off => 3

def LaneState.code : LaneState → Nat
  | .down => 0
  | .training => 1
  | .up => 2
  | .retraining => 3
  | .draining => 4
  | .retired => 5

def Lane.ctrlWord (l : Lane) : Nat :=
  b2n l.prbs * 128 + b2n l.errInject * 64 + b2n l.irqWarn * 32 + b2n l.irqErr * 16 + b2n (l.state == .retraining) * 4

/-- Bits 31-24 of LANE_STAT and LANE_SUM. -/
def Lane.topBits (l : Lane) : Nat :=
  b2n l.retired * 2 ^ 31 + l.power.code * 2 ^ 29 + l.rate % 4 * 2 ^ 27 + l.state.code * 2 ^ 24

def Lane.statWord (l : Lane) : Nat :=
  l.topBits + b2n l.headLocked * 2 ^ 23 + b2n l.retLocked * 2 ^ 22 + b2n l.headWarn * 2 ^ 21 + b2n l.headTrip * 2 ^ 20
    + b2n l.strobeFault * 2 ^ 19 + b2n l.tableOk * 2 ^ 18 + l.groups * 256 + l.id

def eyeWord (e : Nat × Nat) : Nat := e.2 % 1024 * 2 ^ 16 + e.1 % 256

/-- LANE_HEAD_TEMP. -/
def State.headTempWord (s : State) (l : Lane) : Nat :=
  let ms := match l.tempAt with | none => 0 | some t => min ((s.now - t) / 400000) 65535
  ms * 2 ^ 16 + unsigned 16 l.temp

/-- A live lane's window word at an offset; none where Table 10-12 names no register. -/
def State.liveLaneWord (s : State) (l : Lane) (off : Nat) : Option Nat :=
  match off with
  | 0x00 => some l.ctrlWord
  | 0x04 => some l.statWord
  | 0x08 => some (eyeWord l.eye)
  | 0x0C => some (eyeWord l.eyeRet)
  | 0x10 => some l.err.toNat
  | 0x14 => some (s.headTempWord l)
  | 0x18 => some (unsigned 16 l.limTrip * 2 ^ 16 + unsigned 16 l.limWarn)
  | 0x1C => some l.headFw.toNat
  | 0x20 => some l.nFrames
  | 0x24 => some l.echoErr
  | 0x28 => some l.retCrcErr
  | 0x2C => some (min l.retrains 0xFFFFFF * 256 + min (s.recentRetrains l) 255)
  | 0x30 => some l.noCommit
  | 0x34 => some l.headDark
  | 0x38 => some (l.stuffMax % 256)
  | _ => none

/-- The window of a lane as a list of words, for its retirement (02 R70). -/
def State.laneWindow (s : State) (l : Lane) : List Word :=
  (List.range 15).map fun i => BitVec.ofNat 32 ((s.liveLaneWord l (4 * i)).getD 0)

/-- A lane's window word: that of its retirement once it is retired (R70). -/
def State.laneWord (s : State) (n off : Nat) : Option Nat :=
  let l := s.lane n
  match s.liveLaneWord l off with
  | none => none
  | some v => some (if !l.retired || l.frozen.isEmpty then v else wordAt l.frozen (off / 4))

/-- LANE_SUMn. -/
def State.laneSum (s : State) (l : Lane) : Nat :=
  l.topBits + b2n l.headWarn * 2 ^ 23 + b2n l.headTrip * 2 ^ 22
    + (if l.retired then wordAt l.frozen 11 % 256 else min (s.recentRetrains l) 255) * 256 + l.eye.1 % 256

end Sys2Proof.Machine
end

