-- ==== Sys2Proof/Machine/Flags.lean ====
section
/-! DEFINITION. Status codes, fault causes and status flags: the status entry's words, the codes of 19_register_map.md
Table 19-5, the classes and actions of 15_safety_faults.md Table 15-6, the SAFE_DARK causes and replace advice. -/

namespace Sys2Proof.Machine

/-! ### Status codes (19 Table 19-5) -/

def ok : Nat := 0x0000
def admitRateLimited : Nat := 0x0001
def partialLedgered : Nat := 0x0002
def badOpcode : Nat := 0x8001
def badParam : Nat := 0x8002
def wrongState : Nat := 0x8003
def queueFull : Nat := 0x8004
def dmaChannelBusy : Nat := 0x8005
def admitRefused : Nat := 0x8010
def stripeLate : Nat := 0x8011
def stripeUnknown : Nat := 0x8012
def stripeAborted : Nat := 0x8013
def stripeUnbound : Nat := 0x8014
def stripeExists : Nat := 0x8015
def ledgerInUse : Nat := 0x8016
def makeupSource : Nat := 0x8017
def ledgerFull : Nat := 0x8018
def laneRetired : Nat := 0x8020
def dieRetired : Nat := 0x8021
def codeTableOrder : Nat := 0x8022
def tableFormat : Nat := 0x8023
def passWeight : Nat := 0x8024
def codeRange : Nat := 0x8025
def headRejected : Nat := 0x8026
def headTimeout : Nat := 0x8027
def laneNotReady : Nat := 0x8028
def profileInflightDenied : Nat := 0x8030
def moveLimit : Nat := 0x8031
def axisDisabled : Nat := 0x8032
def axisBusy : Nat := 0x8033
def moveInterrupted : Nat := 0x8034
def homingFailed : Nat := 0x8035
def axisUnreferenced : Nat := 0x8038
def compareReserved : Nat := 0x8039
def staleRoleStatus : Nat := 0x8040
def chordUnreachable : Nat := 0x8041
def stitchMismatch : Nat := 0x8042
def timeStepDenied : Nat := 0x8043
def updateSignature : Nat := 0x8050
def updateCheck : Nat := 0x8051
def updateState : Nat := 0x8052
def updateImage : Nat := 0x8053
def updateFlash : Nat := 0x8054
def geoFormat : Nat := 0x8060
def libExists : Nat := 0x8061
def libUnknown : Nat := 0x8062
def libInUse : Nat := 0x8063
def libSpace : Nat := 0x8064
def geoNotReady : Nat := 0x8065
def stagingFull : Nat := 0x8066
def calIncomplete : Nat := 0x8070
def calConditions : Nat := 0x8071
def calStoreFailed : Nat := 0x8072
def injectMissed : Nat := 0x8080
def safeDarkActive : Nat := 0x80F0

/-- The words of a status entry (02 Table 2-4) at the phase given. -/
def Entry.words (e : Entry) (phase : Bool) : List Word :=
  let w0 := e.ctx.tag % 2 ^ 16 * 2 ^ 16 + e.ctx.opcode % 2 ^ 16
  let w1 := b2n phase * 2 ^ 31 + b2n e.ctx.urgent * 2 ^ 21 + b2n e.more * 2 ^ 20
    + min e.res.length 5 * 2 ^ 16 + e.status % 2 ^ 16
  (([w0, w1, e.ctx.slot % 2 ^ 12] ++ (List.range 5).map fun i => e.res.getD i 0).map (BitVec.ofNat 32))

/-! ### Fault causes (15 Table 15-6) -/

/-- Class of the first detection of a cause. DIE_RETIRED is C3 for die 0 (R394). -/
def causeClass (cause die : Nat) : Nat :=
  if cause = 0x0024 then (if die = 0 then 3 else 2)
  else if cause ∈ [0x0008, 0x000A, 0x0011, 0x0014, 0x0020] then 2
  else if cause ∈ [0x0009, 0x000F, 0x0013, 0x0015, 0x0018, 0x001A, 0x001B, 0x001E, 0x0021, 0x0022, 0x0023, 0x0025, 0x0026]
    then 3
  else if cause ∈ [0x001C, 0x001D, 0x001F] then 4
  else 1

/-- Class of the permanent entry of a cause, if it has one. -/
def causePermClass (cause : Nat) : Option Nat :=
  if cause ∈ [0x0001, 0x0003, 0x0004, 0x0005, 0x0006, 0x000C, 0x0015] then some 3
  else if cause ∈ [0x0007, 0x0016] then some 2
  else if cause ∈ [0x000F, 0x001A, 0x001B] then some 4
  else none

/-- Causes that are permanent at detection (R387). -/
def causePermAtDetection (cause : Nat) : Bool := cause ∈ [0x0009, 0x0025, 0x0026]

/-- The count at which a counted cause becomes permanent (R387). -/
def causePermCount (cause : Nat) : Option Nat :=
  if cause = 0x0001 ∨ cause = 0x0006 then some 2 else if cause = 0x0007 then some 8 else none

/-- The action code of a record (R493). -/
def causeAction (cause cls : Nat) (perm : Bool) : Nat :=
  if cls = 3 then 7
  else if cls = 4 then 8
  else if perm then (if cause = 0x0007 then 12 else if cause = 0x0016 then 14 else 0)
  else if cause = 0x0001 then 1
  else if cause ∈ [0x0002, 0x0003, 0x0004, 0x0005, 0x0006] then 6
  else if cause = 0x0008 then 12
  else if cause = 0x000A then 9
  else if cause = 0x0010 then 2
  else if cause = 0x0011 then 3
  else if cause = 0x0012 then 13
  else if cause = 0x0014 then 5
  else if cause = 0x0016 then 14
  else if cause = 0x0019 then 10
  else if cause = 0x0020 then 4
  else if cause = 0x0024 then 11
  else 0

/-- Policy steps an action takes at most (R494 Table 15-10). -/
def actionSteps (action : Nat) : Nat :=
  if action = 0 ∨ action = 13 then 1
  else if action ∈ [2, 4, 5, 8, 9, 10, 12, 14] then 2
  else if action ∈ [1, 6, 7] then 4
  else if action = 3 then 8
  else if action = 11 then 16
  else 1

/-! ### SAFE_DARK causes (15 Table 15-7) -/

/-- Heads that report a trip and are not retired (09 R234). -/
def State.headTrip (s : State) : Bool := s.ctl.headTripN || s.lanes.any fun l => l.headTrip && (!l.retired || l.state == .draining)

/-- A non-retired die has a failed unit, or die 0 holds a cause of R394 (Table 15-7 bit 5). -/
def State.unitFailed (s : State) : Bool :=
  s.perim.die0Exhausted || s.dies.any fun d =>
    !d.retired && (d.facetFailed || d.contourFailed || d.latticeFailed || d.memFailed || d.crcFailed)

/-- A C3 record is active or queued (Table 15-7 bit 7). -/
def State.transientCause (s : State) : Bool :=
  (s.perim.active.any fun r => r.1.cls == 3) || s.perim.waiting.any fun r => r.cls == 3

/-- PERIM_CAUSE (R388). -/
def State.causes (s : State) : Nat :=
  b2n s.ctl.darkN * 2 + b2n s.headTrip * 4 + b2n (s.therm.stopped || s.therm.blind) * 8 + b2n s.perim.stormActive * 16
    + b2n s.unitFailed * 32 + b2n s.perim.permanent * 64 + b2n s.transientCause * 128

/-- FAULT_N (R376): high only in CONFIGURED, ARMED and WRITING, with boot complete and no SAFE_DARK cause. -/
def State.faultN (s : State) : Bool :=
  s.ctl.ready && (s.ctl.dev == .configured || s.ctl.dev == .armed || s.ctl.dev == .writing) && s.causes == 0

/-- The package dark line (R373): asserted in STANDBY, SAFE_DARK and HALTED and while DARK_N is low. -/
def State.darkLine (s : State) : Bool :=
  s.ctl.dev == .standby || s.ctl.dev == .safeDark || s.ctl.dev == .halted || s.ctl.darkN

/-! ### Replace advice (15 R395) -/

def Die.retiredLanes (d : Die) : Nat := (d.lanes.filter (·.retired)).length

def Die.excluded (d : Die) : Nat := (d.pow.sensors.filter (·.excluded)).length

def State.die0Failed (s : State) : Bool :=
  s.perim.die0Exhausted ||
    (let d := s.die 0; d.facetFailed || d.contourFailed || d.latticeFailed || d.memFailed || d.crcFailed)

/-- PERIM_REPLACE: lanes, uncomp, die, sensors in bits 0-3. -/
def State.replaceBits (s : State) : Nat :=
  b2n (s.dies.any fun d => 2 ≤ d.retiredLanes) + b2n s.perim.uncomp * 2
    + b2n (s.die0Failed || s.dies.any (·.retired)) * 4 + b2n (s.dies.any fun d => 3 ≤ d.excluded) * 8

/-- Raising REPLACE_ADVISED signals vector 3 (R395). -/
def State.updateReplace (s : State) : State :=
  let now := s.replaceBits != 0
  let s' := { s with perim.replace := now }
  if now && !s.perim.replace then s'.signal 3 else s'

/-! ### Published capability (15 R396) -/

/-- First and last die of the longest run of non-retired dies, the lowest on a tie: (start, length). -/
def bestRun : List Bool → Nat → Nat → Nat → Nat × Nat → Nat × Nat
  | [], _, start, len, best => if best.2 < len then (start, len) else best
  | live :: rest, d, start, len, best =>
    if live then bestRun rest (d + 1) (if len = 0 then d else start) (len + 1) best
    else bestRun rest (d + 1) start 0 (if best.2 < len then (start, len) else best)

/-- Usable beam columns, first and last (R396); (0, 0) when no die is left. -/
def State.usableColumns (s : State) : Nat × Nat :=
  let r := bestRun (s.dies.map fun d => !d.retired) 0 0 0 (0, 0)
  (64 * r.1, 64 * (r.1 + r.2) - 1)

def State.dieMask (s : State) : Nat := (s.dies.map fun d => if d.retired then 0 else 2 ^ d.id).sum

/-! ### Maximum shot rate (01 R27-R29) -/

/-- f_lane(S, G) in kHz, a multiple of 10: rate code S, G groups per shot. -/
def laneRate (rate groups : Nat) : Nat :=
  if groups = 0 then 2000
  else
    let payload := if rate = 0 then 2343750 else if rate = 1 then 9375000 else if rate = 2 then 18750000 else 37500000
    min 2000 (min (995 * payload / (1000 * groups * 1552) / 10 * 10) (23400 / groups / 10 * 10))

/-- The device's maximum shot rate in kHz: the least over non-retired lanes of non-retired dies; 0 while such a lane is
down or untrained, and while die 0 holds a cause of R394. -/
def State.maxRate (s : State) : Nat :=
  if s.perim.die0Exhausted then 0
  else
    ((s.dies.filter fun d => !d.retired).flatMap (·.lanes)).foldl
      (fun m l => if l.retired then m
        else if l.state == .down || l.state == .training then 0 else min m (laneRate l.rate l.groups)) 2000

/-! ### Interrupts of a device state change -/

/-- Panic is never raised outside WRITING (04 R106): leaving it clears panic, and a make-up burst pays the debt (R105). -/
def Die.calm (d : Die) : Die :=
  if d.mem.panic then { d with mem := { d.mem with panic := false, makeUp := 0 < d.mem.debt } } else d

/-- Change of the device state (01 R39): vector 2 (Table 2-2). -/
def State.setDev (s : State) (d : DevState) : State :=
  if s.ctl.dev = d then s
  else
    let s := if d = .writing then s else s.modDies Die.calm
    ({ s with ctl.dev := d }).signal 2

end Sys2Proof.Machine
end

