-- ==== Sys2Proof/Machine/Completion.lean ====
section
/-! DEFINITION. Status entries: reservations, the holding queue, coalescing (02_host_commands.md R54-R57, R60, R71). -/

namespace Sys2Proof.Machine

/-- Entries the ring can still take: size - 1 less those not consumed (R52, R54). -/
def StatRing.free (r : StatRing) : Nat := 2 ^ r.log2 - 1 - (r.tail + 2 ^ r.log2 - r.head) % 2 ^ r.log2

/-- Room beyond the reservations. -/
def StatRing.room (r : StatRing) : Nat := r.free - r.reserved

/-- Signal vector 0 for an entry under coalescing, or vector 1 (R71, R468). -/
def State.entryIrq (s : State) (e : Entry) : State :=
  if e.ctx.urgent then
    let s := s.irqSeen 1
    if e.ctx.noIrq then s else s.message 1
  else
    let s := s.irqSeen 0
    if e.ctx.noIrq then s
    else if (!e.more && 0x8000 ≤ e.status) || max 1 s.hif.coalCount ≤ s.hif.unsignalled + 1 then
      ({ s with hif.unsignalled := 0 }).message 0
    else { s with hif.unsignalled := s.hif.unsignalled + 1 }

/-- The two posted writes of an entry at the tail: words 0 and 2-7, then word 1 with the phase (R55). -/
def StatRing.writes (r : StatRing) (e : Entry) : List Emission :=
  let a := r.base.toNat + 32 * r.tail
  let ws := e.words r.phase
  [.entryHead a (ws.getD 0 0) (ws.drop 2), .write (a + 4) [ws.getD 1 0]]

/-- Write an entry at the tail; the phase inverts at a wrap (R55). -/
def State.putEntry (s : State) (e : Entry) : State :=
  let r := s.hif.stat
  let s := s.emits (r.writes e)
  let last := r.tail + 1 = 2 ^ r.log2
  let s := { s with hif.stat.tail := if last then 0 else r.tail + 1, hif.stat.phase := if last then !r.phase else r.phase }
  ((s.count 0 178 1).count 0 180 32).entryIrq e

/-- Move holding-queue entries into room that has come free, oldest first (R54). -/
def State.drain (s : State) : List Entry → State
  | [] => { s with hif.holding := [] }
  | e :: es =>
    if s.hif.stat.enabled && !s.ctl.d3hot && 0 < s.hif.stat.room then (s.putEntry e).drain es
    else { s with hif.holding := e :: es }

def State.drainHolding (s : State) : State := s.drain s.hif.holding

/-- The command still holds its reservations: they end when the status ring is disabled (R56). -/
def Ctx.holds (c : Ctx) (s : State) : Bool := c.held == some s.hif.stat.gen

/-- Write an entry, or keep or discard it: entries of an ended ring generation are discarded (R49), as are those produced
while the status ring is disabled (R56); in D3hot none is written (R48); without room an entry that holds no reservation
waits in the holding queue (R54). `release` counts the reservations given up with it. -/
def State.writeEntry (s : State) (e : Entry) (release : Nat) : State :=
  if e.ctx.gen ≠ s.hif.gen then s
  else
    let holds := e.ctx.holds s
    let s := if holds then { s with hif.stat.reserved := s.hif.stat.reserved - release } else s
    if !s.hif.stat.enabled then s
    else if s.ctl.d3hot then { s with hif.deferred := s.hif.deferred ++ [e] }
    else if holds then (s.putEntry e).drainHolding
    else if s.hif.holding.isEmpty && 0 < s.hif.stat.room then s.putEntry e
    else { s with hif.holding := s.hif.holding ++ [e] }

/-- The only entry of a command, or a failing interim entry: both reservations are released (R54, R60). -/
def State.finish (s : State) (c : Ctx) (status : Nat) (res : List Nat) : State :=
  s.writeEntry { ctx := c, more := false, status := status, res := res } 2

/-- An accepted interim entry: the command owes its final entry (R60). -/
def State.interim (s : State) (c : Ctx) (status : Nat) (res : List Nat) : State :=
  let s := s.writeEntry { ctx := c, more := true, status := status, res := res } 1
  if c.urgent || c.gen ≠ s.hif.gen then s else { s with hif.owing := s.hif.owing ++ [c] }

/-- A final entry (R60). -/
def State.final (s : State) (c : Ctx) (status : Nat) (res : List Nat) : State :=
  let s := s.writeEntry { ctx := c, more := false, status := status, res := res } 1
  { s with hif.owing := s.hif.owing.erase c }

/-- A final entry of a command that may have none to write. -/
def State.finalOpt (s : State) (c : Option Ctx) (status : Nat) (res : List Nat) : State :=
  match c with
  | none => s
  | some c => s.final c status res

end Sys2Proof.Machine
end

