-- ==== Sys2Proof/Machine/Motion.lean ====
section
/-! DEFINITION. Stopping axes, the axis position, and completing a move: what the commands of Arc and the device's state
changes share (12_motion.md R314-R329, 11_position_shot.md R292). -/

namespace Sys2Proof.Machine

def State.axis (s : State) (a : Nat) : Axis := s.arc.axes.getD a Axis.reset

def State.modAxis (s : State) (a : Nat) (f : Axis → Axis) : State := { s with arc.axes := s.arc.axes.modify a f }

def State.locusAxis (s : State) (a : Nat) : LocusAxis := s.locus.axes.getD a LocusAxis.reset

def State.modLocusAxis (s : State) (a : Nat) (f : LocusAxis → LocusAxis) : State :=
  { s with locus.axes := s.locus.axes.modify a f }

def State.source (s : State) (n : Nat) : Source' := s.locus.sources.getD n Source'.reset

def State.modSource (s : State) (n : Nat) (f : Source' → Source') : State :=
  { s with locus.sources := s.locus.sources.modify n f }

def State.din (s : State) (n : Nat) : Din := s.locus.dins.getD n Din.reset

/-- Position of an axis, in the counts of its primary source (11 R280, R292). -/
def State.axisPos (s : State) (a : Nat) : Int :=
  let la := s.locusAxis a
  match la.primary with
  | none => 0
  | some p => (s.source p).pos + la.offset

/-- An axis whose enable output is asserted (R320). -/
def Axis.enabled (x : Axis) : Bool :=
  x.state == .idle || x.state == .moving || x.state == .homing || x.state == .stopping || x.state == .sequencer

/-- An axis that a command moves, or that is still stopping. -/
def Axis.busy (x : Axis) : Bool := x.state == .moving || x.state == .homing || x.state == .stopping

/-- The commanded trajectory is brought to rest: at once where it is at rest, else the axis is STOPPING (R325, R329). A fault stop
has the fault deceleration and the jerk of slot 0 (R324; for the other fault stops DESIGN CHOICE, notes/assumptions/50.md). -/
def Axis.stop (x : Axis) (fault disable : Bool) : Axis :=
  let disable := disable || x.disableAfter
  { x with
    ctx := none, homing := none, inPosition := false
    state := if x.vel = 0 then (if disable then .disabled else .idle) else .stopping
    disableAfter := if x.vel = 0 then false else disable
    faultStop := fault && x.vel != 0
    acc := if x.vel = 0 then 0 else x.acc
    move := if fault then { x.move with dec := x.faultDec, jerk := (x.slots.getD 0 Slot.reset).jerk } else x.move }

/-- Stop an enabled axis; a move or homing that it interrupts ends with MOVE_INTERRUPTED and the reason given (Table 12-5). -/
def State.stopAxis (s : State) (a : Nat) (fault disable : Bool) (reason : Nat) : State :=
  let x := s.axis a
  if x.enabled then (s.modAxis a fun x => x.stop fault disable).finalOpt x.ctx moveInterrupted [reason] else s

/-- Every axis stops with its fault deceleration and then holds (R329, SAFE_DARK). -/
def State.arcSafeDark (s : State) : State :=
  (List.range 10).foldl (fun s a => s.stopAxis a true false 4) s

/-- The sequencer gives its axes back: Arc decelerates with the profile (Table 1-7, Table 9-5). -/
def State.releaseAxes (s : State) : State :=
  (List.range 2).foldl (fun s a =>
    if (s.axis a).state == .sequencer then s.modAxis a fun x => x.stop false false else s)
    { s with arc.overspeedDecel := false, arc.scanVel := 0 }

/-- HALTED, STANDBY and resets: the setpoint port stops, enables deassert, every axis is unreferenced (R329). -/
def State.arcOff (s : State) : State :=
  { s with
    arc.spRunning := false, arc.overspeedDecel := false, arc.scanVel := 0
    arc.axes := s.arc.axes.map fun x =>
      { x with state := if x.state == .absent then .absent else .disabled, vel := 0, acc := 0, ctx := none, homing := none,
               homed := false, disableAfter := false, faultStop := false, inPosition := false }
    locus.axes := s.locus.axes.map fun la => { la with referenced := false, offset := 0 } }

/-- Locus's estimate of the scan axis position (11 R298), in 2^-16 count. -/
def State.scanEst (s : State) : Int := s.locus.est + (s.locusAxis 0).offset

/-- The scan velocity of a rate in kHz: f x Pc in 1/256 count per us (R322). -/
def State.scanVelocity (s : State) (f : Nat) : Nat := f * (s.locusAxis 0).pitch / (2 ^ 16 * 1000)

/-- The direction of the count along +y (11 R299). -/
def State.sigma (s : State) : Int := if (s.locusAxis 0).negative then -1 else 1

/-- Arc slows the scan to a rate; it never raises the velocity within a pass (R323). -/
def State.slowTo (s : State) (f : Nat) : State :=
  { s with arc.scanVel := min s.arc.scanVel (s.scanVelocity f), arc.overspeedDecel := true }

/-- Whether the limit input on a side of an axis is active (R324). -/
def State.limitActive (s : State) (a : Nat) (positive : Bool) : Bool :=
  match if positive then (s.axis a).posDin else (s.axis a).negDin with
  | none => false
  | some d => (s.din d).value

end Sys2Proof.Machine
end

