-- ==== Sys2Proof/Machine/Operands.lean ====
section
/-! DEFINITION. Command packets: their fields (02_host_commands.md Table 2-3), the opcode table (Table 2-6, Table 2-11) and
the checks every command meets (R59, R42). -/

namespace Sys2Proof

/-! ### Packet fields -/

namespace Packet

def word (p : Packet) (i : Nat) : Nat := (p.words.getD i 0).toNat
def opcode (p : Packet) : Nat := p.word 0 % 2 ^ 16
def tag (p : Packet) : Nat := p.word 0 / 2 ^ 16
def target (p : Packet) : Nat := p.word 1 / 2 ^ 16
def plen (p : Packet) : Nat := p.word 1 / 2 ^ 8 % 2 ^ 8
def flags (p : Packet) : Nat := p.word 1 % 2 ^ 8
def fence (p : Packet) : Bool := p.flags % 2 == 1
def noIrq (p : Packet) : Bool := p.flags / 2 % 2 == 1
def admitOnly (p : Packet) : Bool := p.flags / 4 % 2 == 1
def isDev (p : Packet) : Bool := p.target == 0xFFFF

/-- Parameter i; a parameter beyond plen reads as 0 (R58). -/
def param (p : Packet) (i : Nat) : Nat := if i < p.plen then p.word (2 + i) else 0

/-- Parameters i and i + 1 as a 64-bit number. -/
def param64 (p : Packet) (i : Nat) : Nat := p.param i + p.param (i + 1) * 2 ^ 32

end Packet

namespace Machine

/-- What a target may be (Table 2-6). -/
inductive TargetKind where
  | dev | die | dieOrDev | lane | laneOrDev | axis | axisOrDev | unit
  deriving DecidableEq, Repr

/-- A row of Table 2-6 with its minimum plen (Table 2-11): allowed on the urgent ring, states (1 CONFIGURED, 2 ARMED,
4 WRITING, 8 SAFE_DARK), target. -/
structure OpRow where
  urgent : Bool
  states : Nat
  target : TargetKind
  minPlen : Nat
  deriving DecidableEq, Repr

/-- Table 2-6. -/
def opRow : Nat → Option OpRow
  | 0x0000 => some ⟨true, 15, .dev, 0⟩
  | 0x0001 => some ⟨true, 15, .dev, 0⟩
  | 0x0002 => some ⟨true, 15, .dev, 0⟩
  | 0x0003 => some ⟨true, 8, .dev, 0⟩
  | 0x0004 => some ⟨false, 15, .dev, 1⟩
  | 0x0005 => some ⟨false, 3, .dev, 0⟩
  | 0x0006 => some ⟨false, 2, .dev, 0⟩
  | 0x0100 => some ⟨false, 1, .dev, 1⟩
  | 0x0101 => some ⟨false, 1, .dev, 1⟩
  | 0x0102 => some ⟨false, 1, .dieOrDev, 1⟩
  | 0x0103 => some ⟨false, 7, .dieOrDev, 4⟩
  | 0x0104 => some ⟨false, 15, .die, 4⟩
  | 0x0200 => some ⟨false, 7, .dev, 4⟩
  | 0x0201 => some ⟨false, 3, .dev, 1⟩
  | 0x0202 => some ⟨false, 6, .dev, 4⟩
  | 0x0300 => some ⟨false, 6, .dev, 12⟩
  | 0x0301 => some ⟨true, 14, .dev, 1⟩
  | 0x0302 => some ⟨false, 6, .dev, 14⟩
  | 0x0303 => some ⟨false, 15, .dev, 4⟩
  | 0x0304 => some ⟨false, 15, .dev, 2⟩
  | 0x0305 => some ⟨false, 15, .dev, 1⟩
  | 0x0400 => some ⟨false, 1, .axis, 13⟩
  | 0x0401 => some ⟨false, 7, .axis, 5⟩
  | 0x0402 => some ⟨false, 1, .axis, 7⟩
  | 0x0403 => some ⟨false, 3, .axis, 3⟩
  | 0x0404 => some ⟨true, 15, .axisOrDev, 1⟩
  | 0x0405 => some ⟨false, 1, .dev, 0⟩
  | 0x0406 => some ⟨false, 7, .unit, 4⟩
  | 0x0500 => some ⟨false, 1, .dev, 0⟩
  | 0x0501 => some ⟨true, 15, .dev, 0⟩
  | 0x0502 => some ⟨false, 7, .dev, 5⟩
  | 0x0503 => some ⟨false, 1, .dev, 0⟩
  | 0x0504 => some ⟨false, 15, .dev, 3⟩
  | 0x0505 => some ⟨false, 15, .dev, 1⟩
  | 0x0600 => some ⟨false, 1, .laneOrDev, 1⟩
  | 0x0601 => some ⟨false, 1, .laneOrDev, 1⟩
  | 0x0602 => some ⟨false, 7, .lane, 0⟩
  | 0x0603 => some ⟨false, 15, .lane, 0⟩
  | 0x0604 => some ⟨false, 15, .lane, 0⟩
  | 0x0605 => some ⟨false, 1, .laneOrDev, 3⟩
  | 0x0700 => some ⟨false, 7, .dieOrDev, 1⟩
  | 0x0701 => some ⟨false, 15, .die, 3⟩
  | 0x0702 => some ⟨false, 1, .dev, 0⟩
  | 0x0800 => some ⟨true, 15, .dev, 3⟩
  | 0x0801 => some ⟨true, 7, .dev, 0⟩
  | 0x0802 => some ⟨false, 15, .die, 0⟩
  | 0x0803 => some ⟨false, 1, .die, 2⟩
  | 0x0900 => some ⟨false, 15, .dev, 3⟩
  | 0x0901 => some ⟨false, 1, .dev, 0⟩
  | 0x0902 => some ⟨false, 15, .dev, 0⟩
  | 0x0903 => some ⟨false, 1, .dev, 0⟩
  | 0x0A00 => some ⟨false, 15, .dev, 2⟩
  | 0x0A01 => some ⟨false, 15, .dev, 2⟩
  | 0x0A02 => some ⟨false, 15, .die, 2⟩
  | 0x0B00 => some ⟨false, 1, .dev, 0⟩
  | 0x0B01 => some ⟨false, 15, .die, 2⟩
  | 0x0B02 => some ⟨false, 1, .dieOrDev, 1⟩
  | _ => none

/-- The minimum plen of a section of LOCUS_CONFIG, TIME_CONFIG and CHORD_CONFIG (R492); none for an undefined section. -/
def sectionMin (opcode sec : Nat) : Option Nat :=
  if opcode = 0x0405 then
    (match sec with | 0x01 => some 7 | 0x02 => some 7 | 0x03 => some 4 | 0x04 => some 6 | 0x05 => some 4 | 0x06 => some 2
                    | _ => none)
  else if opcode = 0x0500 then
    (match sec with | 0x01 => some 5 | 0x02 => some 4 | 0x03 => some 2 | 0x04 => some 4 | 0x05 => some 2 | _ => none)
  else (match sec with | 0x01 => some 5 | 0x02 => some 4 | 0x03 => some 2 | _ => none)

/-- The minimum plen of a packet (Table 2-11); none where a section is undefined. param0 itself is read only where it lies
below plen (R58). -/
def Packet.minPlen (p : Packet) (r : OpRow) : Option Nat :=
  let op := p.opcode
  if op = 0x0405 ∨ op = 0x0500 ∨ op = 0x0503 then sectionMin op (p.param 0 % 256)
  else if op = 0x0401 then some (if bit (p.param 0) 8 then 4 else 5)
  else if op = 0x0502 then some (if bit (p.param 0) 4 then 1 else 5)
  else if op = 0x0B02 then some (if p.isDev then 3 else 1)
  else some r.minPlen

/-- Whether a target is one the row accepts, within the device's ranges (R5, R59). -/
def State.targetOk (s : State) (k : TargetKind) (t : Nat) : Bool :=
  match k with
  | .dev => t == 0xFFFF
  | .die => t < s.nDies
  | .dieOrDev => t == 0xFFFF || t < s.nDies
  | .lane => t < s.nLanes
  | .laneOrDev => t == 0xFFFF || t < s.nLanes
  | .axis => t < 10
  | .axisOrDev => t == 0xFFFF || t < 10
  | .unit => t < 16

/-- The device state's bit in OpRow.states. -/
def DevState.mask : DevState → Nat
  | .configured => 1
  | .armed => 2
  | .writing => 4
  | .safeDark => 8
  | .off | .standby | .halted => 0

/-- A command's state rule failed (R42). -/
def State.stateStatus (s : State) : Nat := if s.ctl.dev = .safeDark then safeDarkActive else wrongState

/-- Checks 2 of R59. -/
def State.packetOk (s : State) (p : Packet) (r : OpRow) : Bool :=
  let exact := p.opcode == 0x0300 || p.opcode == 0x0302
  p.plen ≤ 14
    && (match Packet.minPlen p r with | none => false | some m => m ≤ p.plen && (!exact || p.plen == r.minPlen))
    && p.flags / 8 == 0 && (!p.admitOnly || exact) && s.targetOk r.target p.target

/-- The first failing check of R59 before those of the opcode itself; none when all pass. -/
def State.preCheck (s : State) (p : Packet) : Option Nat :=
  match opRow p.opcode with
  | none => some badOpcode
  | some r =>
    if p.urgent && !r.urgent then some badOpcode
    else if !s.packetOk p r then some badParam
    else if r.states / s.ctl.dev.mask % 2 = 0 || s.ctl.dev.mask = 0 then some s.stateStatus
    else
      match r.target with
      | .lane | .laneOrDev => if !p.isDev && (s.lane p.target).retired then some laneRetired else none
      | .die | .dieOrDev => if !p.isDev && (s.die p.target).retired then some dieRetired else none
      | .dev | .axis | .axisOrDev | .unit => none

/-- What identifies a command, with the reservations it holds. -/
def State.ctxOf (s : State) (p : Packet) (held : Option Nat) : Ctx :=
  { tag := p.tag, opcode := p.opcode, urgent := p.urgent, slot := p.slot, noIrq := p.noIrq, gen := s.hif.gen, held := held }

/-- Run a command body after the shared checks; a command that fails one has no other effect (R59). -/
def State.checked (s : State) (p : Packet) (c : Ctx) (body : State → State) : State :=
  match s.preCheck p with
  | some st => s.finish c st []
  | none => body s

/-- Commands that name a host address and so need a firmware-owned class D channel (03 R73). -/
def namesHost (p : Packet) : Bool :=
  p.opcode ∈ [0x0103, 0x0104, 0x0200, 0x0303, 0x0605, 0x0701, 0x0800, 0x0900, 0x0A00, 0x0B01]
    || (p.opcode == 0x0503 && p.param 0 % 256 == 2)

/-- A firmware-owned class D channel is free (03 R73): library loads and a firmware staging hold one each while they last, and
one with a descriptor in progress serves a command (DEDUCED, notes/assumptions/33.md). -/
def State.channelFree (s : State) : Bool :=
  let fw := s.dmaD.filter (·.firmware)
  let jobs := (s.libs.filter fun l => l.load.isSome).length + b2n s.flash.staging.isSome
  decide (max jobs (fw.filter fun c => c.desc.isSome).length < fw.length)

/-- A command may start as far as its channel goes. -/
def State.servable (s : State) (p : Packet) : Bool := !namesHost p || s.channelFree

/-- The interpreter starts a command: a normal one waits for one in progress and for one that is held (R64), if it is fenced
itself for every earlier normal command's final entry (R65), and for a channel that it needs (03 R73). -/
def State.accepts (s : State) (p : Packet) : Bool :=
  s.ctl.ready && !s.ctl.d3hot
    && (p.urgent || (s.hif.busy.isNone && s.hif.fenced.isNone && (!p.fence || s.hif.owing.isEmpty))) && s.servable p

/-- A command row: the packet, whose opcode the row fixes, runs as fetched from its ring, holding no reservation. -/
def State.direct (s : State) (opcode : Nat) (p : Packet) (body : Packet → Ctx → State → State) : Res :=
  let w0 := BitVec.ofNat 32 (p.tag * 2 ^ 16 + opcode)
  let p := { p with words := w0 :: p.words.tail }
  let c := s.ctxOf p none
  .next (if s.accepts p then s.checked p c (body p c) else s)

end Machine
end Sys2Proof
end

