-- ==== Sys2Proof/Machine/Beams.lean ====
section
/-! DEFINITION. Beams, groups and lanes: which beam lies over which pixel, pass masks and ramps, the quantizer chain, column
outcomes at admission, the lane assignment, and lost dose (08_beam_mapping.md R196-R218, 09_stripes_ledger.md R231, R246). -/

namespace Sys2Proof.Machine

/-! ### Geometry of the array (R196, R231) -/

/-- Positions of half h that a select word selects, ascending. -/
def selectedIn (select : BitVec 64) (h : Nat) : List Nat :=
  (List.range 32).filterMap fun j => if select.getLsbD (32 * h + j) then some (32 * h + j) else none

/-- First shots at which a selected beam of half h lies over row 0, ascending: 8r for r = 8j + t. -/
def firstShots (select : BitVec 64) (h : Nat) : List Nat :=
  (selectedIn select h).flatMap fun j => (List.range 8).map fun t => 64 * j + 8 * t

/-- Whether a group of half h is live at shot n of a pass over L rows (R231). -/
def liveAt (select : BitVec 64) (h rows n : Nat) : Bool :=
  (firstShots select h).any fun a => a ≤ n && n < a + rows

/-- Live shots of a group of half h from shot a to shot b - 1: the union of the beams' intervals. -/
def liveShots (select : BitVec 64) (h rows a b : Nat) : Nat :=
  ((firstShots select h).foldl
    (fun (acc : Nat × Nat) st =>
      let lo := max acc.1 st
      let hi := min b (st + rows)
      if lo < hi then (hi, acc.2 + (hi - lo)) else acc) (a, 0)).2

/-- Shots of a pass over L rows (R24). -/
def passShots (rows : Nat) : Nat := rows + 4088

/-! ### Lanes of groups (R218) -/

/-- The assignment of 128 groups to a die's non-retired lanes (R218). -/
def assignLanes : List Lane → Nat → Nat → Nat → List Lane
  | [], _, _, _ => []
  | l :: ls, k, m, next =>
    if l.retired then { l with groups := 0, firstGroup := 0 } :: assignLanes ls k m next
    else
      let n := 128 / m + b2n (decide (k < 128 % m))
      { l with groups := n, firstGroup := next } :: assignLanes ls (k + 1) m (next + n)

def Die.assign (d : Die) : Die :=
  { d with lanes := assignLanes d.lanes 0 (d.lanes.filter (!·.retired)).length 0 }

/-- The lane that carries device group g, if any. -/
def State.laneOf (s : State) (g : Nat) : Option Lane :=
  (s.die (g / 128)).lanes.find? fun l => !l.retired && l.firstGroup ≤ g % 128 && g % 128 < l.firstGroup + l.groups

/-- Device groups a lane carries. -/
def Lane.groupList (l : Lane) : List Nat :=
  (List.range l.groups).map fun i => 128 * (l.id / 12) + l.firstGroup + i

/-- A lane assignment as kept: lane, first device group, groups. -/
def State.laneMap (s : State) : List (Nat × Nat × Nat) :=
  s.lanes.map fun l => (l.id, 128 * (l.id / 12) + l.firstGroup, l.groups)

/-- The lane that carries group g under a kept assignment. -/
def mapLane (m : List (Nat × Nat × Nat)) (g : Nat) : Option Nat :=
  (m.find? fun x => x.2.1 ≤ g && g < x.2.1 + x.2.2).map (·.1)

/-- The assignment of an epoch: the present one, or one of those left behind (R219). -/
def State.mapAt (s : State) (epoch : Nat) : List (Nat × Nat × Nat) :=
  if epoch = s.ctl.epoch then s.laneMap else ((s.seq.epochs.find? fun e => e.1 == epoch).map (·.2)).getD []

/-! ### Beams -/

/-- A beam's (status, gain) in a sparse table; live with gain 0x800 where it lists none (R205). -/
def beamAt (t : List (Nat × Nat × Nat)) (beam : Nat) : Nat × Nat := sparseGet (0, 0x800) t beam

/-- Live and weak beams are usable (R205). -/
def usableStatus (st : Nat) : Bool := st < 2

/-- Severity order live, weak, quarantined, dead (R206). -/
def severity (st : Nat) : Nat := if st = 2 then 3 else if st = 3 then 2 else st

def worse (a b : Nat) : Nat := if severity a < severity b then b else a

/-- The effective table: the loaded entries under the status overlay (R206). -/
def effectiveBeams (beams : List (Nat × Nat × Nat)) (overlay : List (Nat × Nat)) : List (Nat × Nat × Nat) :=
  overlay.foldl (fun t o =>
    let e := beamAt t o.1
    sparseSet (0, 0x800) t o.1 (worse e.1 o.2, e.2)) beams

/-! ### The quantizer chain (R210) -/

/-- One selected beam as the chain sees it: usable, gain, and its lane's code dose table cd[0..63]. -/
structure Tap where
  usable : Bool
  gain : Nat
  cd : List Nat
  deriving DecidableEq, Repr

def Tap.dose (b : Tap) (q : Nat) : Nat := b.cd.getD q 0 * b.gain

def Tap.cap (b : Tap) : Nat := b.dose 63

/-- The largest code whose dose does not exceed a limit. -/
def Tap.code (b : Tap) (limit : Nat) : Nat :=
  (List.range 64).foldl (fun best q => if b.dose q ≤ limit then q else best) 0

/-- Codes of the beams in passing order and the shortfall, from R and C before the first. -/
def chain : List Tap → Nat → Nat → List Nat × Nat
  | [], r, _ => ([], r)
  | b :: rest, r, c =>
    if !b.usable then
      let t := chain rest r c
      (0 :: t.1, t.2)
    else
      let share := if rest.all (!·.usable) then r else if c = 0 then 0 else r * b.cap / c
      let q := b.code share
      let t := chain rest (r - b.dose q) (c - b.cap)
      (q :: t.1, t.2)

def chainCap (bs : List Tap) : Nat := ((bs.filter (·.usable)).map Tap.cap).sum

/-- The chain of one pixel with pass target T. -/
def quantize (bs : List Tap) (target : Nat) : List Nat × Nat := chain bs target (chainCap bs)

/-- The largest step of a beam (R211). -/
def Tap.maxStep (b : Tap) : Nat := (List.range 63).foldl (fun m q => max m (b.dose (q + 1) - b.dose q)) 0

/-- The headroom test over the usable beams (R212). -/
def headroom (bs : List Tap) (tMax : Nat) : Bool :=
  let us := bs.filter (·.usable)
  match us.getLast? with
  | none => false
  | some last =>
    let e := (us.dropLast.map fun b => b.maxStep + 1).sum
    e ≤ last.cap && tMax * last.cap ≤ chainCap us * (last.cap - e)

/-- Outcomes of Table 8-5; the fourth is a column that is uncompensable and fails R213's evaluation. -/
inductive Column where
  | normal | compensated | uncompensable | range
  deriving DecidableEq, Repr

def columnOutcome (bs : List Tap) (tMax : Nat) : Column :=
  if bs.all (·.usable) then (if headroom bs tMax then .normal else .range)
  else if bs.any (·.usable) && 2 ≤ bs.length && headroom bs tMax then .compensated
  else if headroom (bs.map fun b => { b with usable := true, gain := 0x800 }) tMax then .uncompensable
  else .range

/-! ### Stripes -/

/-- The code dose table cd[0..63] of a lane; zeros where none is loaded. -/
def cdList (t : Option (List Nat)) : List Nat := 0 :: t.getD []

def Tables.mask (t : Tables) (slot : Nat) : PassMask := t.masks.getD slot PassMask.reset

def Root.hasColumn (r : Root) (x : Nat) : Bool := 512 * r.firstBlock ≤ x && x < 512 * (r.firstBlock + r.blocks)

/-- Positions that a select word selects, ascending. -/
def selected (select : BitVec 64) : List Nat := (List.range 64).filter fun j => select.getLsbD j

/-- Row of the array of position j over pixel column x. -/
def rowOf (x j : Nat) : Nat := x % 8 + 8 * j

/-- Beam index of position j over pixel column x (R204). -/
def beamOf (x j : Nat) : Nat := x / 8 * 512 + rowOf x j

/-- Group of position j over pixel column x (R196). -/
def groupOf (x j : Nat) : Nat := 2 * (x / 8) + rowOf x j / 256

/-- The chain's beams of pixel column x; in an uncompensable column every one counts as usable at gain 0x800 (R213). -/
def columnTaps (select : BitVec 64) (snapshot : List (Nat × Nat × Nat)) (cdOf : Nat → List Nat) (uncomp : Bool) (x : Nat) :
    List Tap :=
  (selected select).map fun j =>
    let e := beamAt snapshot (beamOf x j)
    { usable := uncomp || usableStatus e.1, gain := if uncomp then 0x800 else e.2, cd := cdOf (groupOf x j) }

def rampAt (r : Ramp) (d : Int) : Nat := if 0 ≤ d && d < r.w then r.ramp.getD d.toNat 0 else 0x8000

/-- The factors of R203 at pixel (x, y): pass weight, west, east, south, north. -/
def passFactors (root : Root) (t : Tables) (pd : PassDesc) (ramps : List Nat) (x y : Nat) : List Nat :=
  let m := t.mask pd.mask
  let slot := fun i => t.ramps.getD (ramps.getD i 0) Ramp.reset
  let dist : List Int :=
    [(x : Int) - 512 * root.firstBlock, 512 * (root.firstBlock + root.blocks) - 1 - x, y, (root.rows : Int) - 1 - y]
  m.weights.getD (8 * ((y + pd.iy) % 8) + (x + pd.ix) % 8) 0
    :: (List.range 4).map fun i => rampAt (slot i) (dist.getD i 0)

/-- The pass target of R203 from P1 * 2,048 and the factors. -/
def applyFactors (t : Nat) (fs : List Nat) : Nat := fs.foldl (fun t w => t * w / 32768) t

/-- A stripe as later make-ups see it (R245). -/
def State.sourceOf (s : State) (st : Stripe) (since : Nat) : Source :=
  { stripe := st.id, since := since, root := st.root, tables := st.tables, passes := st.passes, ramps := st.ramps,
    snapshot := st.snapshot, ceiling := st.ceiling, uncomp := st.uncomp,
    codes := s.lanes.filterMap fun l => l.codes.map fun c => (l.id, c),
    lanesAt := [(s.ctl.epoch, s.laneMap)], makeup := st.makeup }

/-- The code dose table of group g under an epoch, from a kept source. -/
def Source.cdOf (src : Source) (epoch g : Nat) : List Nat :=
  let map := ((src.lanesAt.find? fun e => e.1 == epoch).map (·.2)).getD []
  cdList ((mapLane map g).bind fun l => (src.codes.find? fun c => c.1 == l).map (·.2))

/-- Whether an entry's rectangle holds a group-shot of a pass. -/
def LedgerEntry.covers (e : LedgerEntry) (pass g n : Nat) : Bool :=
  e.pass == pass && e.group ≤ g && g < e.group + e.groups && e.first ≤ n && n < e.first + e.count

/-- What enters the pass target of pixel (x, y) with corrected dose P: P1 * 2,048 and the five factors of R203, or for a make-up
the lost dose m and its weight (R246). In an uncompensable column of the source the codes are those of R213's evaluation, and
an UNCOMPENSABLE entry's gain is its 0x800; in the other columns of a group such an entry names no evaluation of R213 exists, and
the codes and gains that the source used stand (DEDUCED, notes/assumptions/12.md). The fuel bounds the chain of make-ups, which
is no longer than the kept sources. -/
def passInput (sources : List Source) : Nat → Source → Nat → Nat → Nat → Nat → Nat × List Nat
  | fuel, src, p, dose, x, y =>
    let pd := src.passes.getD p { mask := 0, ix := 0, iy := 0 }
    let fs := passFactors src.root src.tables pd src.ramps x y
    match src.makeup, fuel with
    | none, _ => (min dose src.ceiling * 2048, fs)
    | some _, 0 => (0, fs.take 1)
    | some mk, fuel + 1 =>
      match sources.find? fun o => o.stripe == mk.stripe && o.since == mk.since with
      | none => (0, fs.take 1)
      | some o =>
        let m := ((List.range o.passes.length).map fun p' =>
          let i := passInput sources fuel o p' dose x y
          let t := applyFactors i.1 i.2
          let sel := (o.tables.mask (o.passes.getD p' { mask := 0, ix := 0, iy := 0 }).mask).select
          let js := selected sel
          ((List.range js.length).map fun k =>
            let j := js.getD k 0
            match mk.named.find? fun e => e.covers p' (groupOf x j) (y + 8 * rowOf x j) with
            | none => 0
            | some e =>
              let un := o.uncomp.contains (p', x)
              let taps := columnTaps sel o.snapshot (o.cdOf e.epoch) un x
              let q := (quantize taps t).1.getD k 0
              let g := if un && e.cause == 0x20 then 0x800 else (beamAt o.snapshot (beamOf x j)).2
              (o.cdOf e.epoch (groupOf x j)).getD q 0 * g).sum).sum
        (m, fs.take 1)

/-- The pass target T of pixel (x, y) (R203), or T' of a make-up (R246). -/
def passTarget (sources : List Source) (src : Source) (p dose x y : Nat) : Nat :=
  let i := passInput sources (sources.length + 1) src p dose x y
  applyFactors i.1 i.2

/-- T_max of a column in a pass (R212, R246). -/
def columnTMax (root : Root) (t : Tables) (pd : PassDesc) (ceiling x : Nat) : Nat :=
  let w := ((List.range 8).map fun b => (t.mask pd.mask).weights.getD (8 * b + (x + pd.ix) % 8) 0).foldl max 0
  if root.hasColumn x then ceiling * 2048 * w / 32768 else 0

end Sys2Proof.Machine
end

