-- ==== Sys2Proof/Machine/DieBlocks.lean ====
section
/-! DEFINITION. What reads of the memory, SRAM, Tessera / Facet, Contour, Lattice and lane blocks of a die return (04 Table 4-6,
06 Table 6-3, 07 Table 7-10, 08 Table 8-10, 10 LANE_SUMn); on a retired die, as they stood at retirement (19 R465). -/

namespace Sys2Proof.Machine

/-- A signed value as a 32-bit register shows it. -/
def s32 (i : Int) : Nat := unsigned 32 i

/-- SCRUB_FIRST_FAIL and res3 (04 R117). -/
def Sram.firstFail (m : Sram) : Nat :=
  match m.lowUe, m.lowCe with
  | some a, _ => a
  | none, some a => a + 2 ^ 31
  | none, none => 0xFFFFFFFF

def MemState.code : MemState → Nat
  | .off => 0
  | .training => 1
  | .active => 2
  | .selfRefresh => 3
  | .failed => 4

/-- Memory controller registers, by offset within the block. -/
def Mem.reg (m : Mem) (off : Nat) : Option Nat :=
  if off = 0x00 then some (m.capacity % 16 * 256 + m.rate % 4 * 16 + m.ranks % 2)
  else if off = 0x04 then
    some (m.lead % 8 * 2 ^ 16 + b2n m.deferred * 2 ^ 12 + m.debt % 16 * 256 + b2n m.panic * 16 + m.state.code)
  else if off = 0x08 then some (m.maxDefer % 256 * 2 ^ 16 + m.panicOff % 8 * 16 + m.panicOn % 8)
  else if off = 0x0C then some m.err.toNat
  else if off = 0x10 then some m.linkCe
  else if off = 0x14 then some m.linkUe
  else if off = 0x18 then some m.panicCount
  else if off = 0x1C then some m.forcedRef
  else none

/-- SRAM and scrubber registers. -/
def Sram.reg (m : Sram) (off : Nat) : Option Nat :=
  if off = 0x00 then some m.ceCount
  else if off = 0x04 then some m.ceAddr
  else if off = 0x08 then some (match m.ueLog with | some (port, a) => 2 ^ 31 + port % 16 * 2 ^ 25 + a % 2 ^ 25 | none => 0)
  else if off = 0x10 then some (b2n m.host * 4 + b2n m.done * 2 + b2n (!m.scans.isEmpty))
  else if off = 0x14 then some m.first
  else if off = 0x18 then some m.last
  else if off = 0x1C then some m.scanned
  else if off = 0x20 then some m.corrected
  else if off = 0x24 then some m.uncorr
  else if off = 0x28 then some m.firstFail
  else none

/-- The stripe of a die's rendering. -/
def State.workStripe (s : State) (d : Die) : Option Stripe := d.tess.work.bind fun w => s.seq.stripes.find? fun st => st.id == w.1

def State.tessStat (s : State) (d : Die) : Nat :=
  let t := d.tess
  let busy := t.work.isSome
  let coarse := match s.workStripe d with
    | some st => decide (t.coarseRow < ((st.root.rows + 31) / 32 : Nat) - 1 + (st.tables.lrK : Int))
    | none => false
  let fine := match s.workStripe d with
    | some st => decide (t.fineRow ≤ ((st.root.rows + 63) / 64 : Nat))
    | none => false
  (match t.work with | some w => w.2 % 8 * 512 | none => 0) + b2n t.fetchFault * 256 + b2n t.geoFault * 128
    + b2n t.waitCoarse * 64 + b2n t.waitRing * 32 + b2n t.waitQueue * 16 + b2n t.waitBlock * 8 + b2n coarse * 4 + b2n fine * 2 + b2n busy

/-- The tile coverage buffer cannot take another whole tile (06 R165). -/
def Tess.full (t : Tess) : Bool := decide (2 ^ 21 < 4 * ((t.tiles.map fun x => (x.px.map List.length).sum).sum) + 16384)

def facetStat (d : Die) : Nat :=
  let t := d.tess
  b2n d.facetFailed * 512 + b2n t.rerender * 256 + b2n (t.work.isSome && t.queue.isEmpty) * 4
    + b2n (!t.queue.isEmpty && t.full) * 2 + b2n (!t.queue.isEmpty)

/-- Tessera and Facet registers. -/
def State.tessReg (s : State) (d : Die) (off : Nat) : Option Nat :=
  let t := d.tess
  if off = 0x000 then some (s.tessStat d)
  else if off = 0x004 then some (s32 t.fineRow)
  else if off = 0x008 then some (s32 t.coarseRow)
  else if off = 0x00C then some t.cacheMiss
  else if off = 0x010 then some t.fetchErr
  else if off = 0x014 then some t.instances
  else if off = 0x100 then some (facetStat d)
  else if off = 0x104 then some (t.injected % 65536 * 65536 + min d.facetCount 2)
  else if off = 0x108 then some (t.chkCol % 16 * 2 ^ 28 + unsigned 26 t.chkRow)
  else if off = 0x10C then some t.chkStripe
  else if off = 0x110 then some (unsigned 64 t.chkDiff % 2 ^ 32)
  else if off = 0x114 then some (unsigned 64 t.chkDiff / 2 ^ 32)
  else if off = 0x118 then some t.excess
  else if off = 0x11C then some t.passed
  else none

/-- Contour registers. -/
def Contour.reg (c : Contour) (off : Nat) : Option Nat :=
  if off = 0x00 then some (b2n c.cmode * 2 + b2n c.compress)
  else if off = 0x04 then
    some (c.pass % 8 * 256 + b2n c.rdFault * 64 + b2n c.densFault * 32 + b2n c.waitFactor * 16 + b2n c.waitDensity * 8
      + b2n c.waitTile * 4 + b2n c.waitBuffer * 2 + b2n c.ringOf.isSome)
  else if off = 0x08 then
    some (c.gens.getD 3 0 % 256 * 2 ^ 24 + c.gens.getD 2 0 % 256 * 2 ^ 16 + c.gens.getD 1 0 % 256 * 256 + c.gens.getD 0 0 % 256)
  else if off = 0x0C then some (c.ceil % 65536)
  else if off = 0x10 then some (s32 c.block)
  else if off = 0x14 then some (((c.ra.map fun b => (b.length + 63) / 64 * 64).sum) / 1024)
  else if off = 0x18 then some c.ceilCount
  else if off = 0x1C then some c.negCount
  else if off = 0x20 then some c.rawCount
  else if off = 0x24 then some c.rdFail
  else if off = 0x28 then some (c.faultOwner % 8 * 2 ^ 29 + c.faultKind % 4 * 2 ^ 27 + unsigned 27 c.faultRow)
  else none

/-- Beams of a die with a status, in the effective table. -/
def State.beamsWith (s : State) (d st : Nat) : Nat :=
  ((effectiveBeams s.tables.beams s.seq.overlay).filter fun b => b.1 / 32768 == d && b.2.1 == st).length

def State.execStripe (s : State) : Option Stripe := s.seq.stripes.find? (·.executing)

/-- LATTICE_STAT: dark_only outside ARMED and WRITING and on a retired die; busy while a pass's records are emitted. -/
def State.latticeStat (s : State) (d : Die) : Nat :=
  let st := s.execStripe
  let on := s.active && !d.retired
  let emits := on && (match st with
    | some st => st.phase == .running && st.root.hasColumn (512 * d.id)
    | none => false)
  let cols := (st.elim [] fun st => st.uncomp).filter fun u => u.2 / 512 == d.id
  s.ctl.epoch % 256 * 2 ^ 24 + d.lat.pass % 8 * 512 + b2n d.lat.regen * 32 + b2n (!cols.isEmpty) * 16 + b2n d.lat.clamp * 8
    + b2n (!on) * 4 + b2n d.lat.waitRow * 2 + b2n emits

/-- Lattice registers but the lane maps. -/
def State.latticeReg (s : State) (d : Die) (off : Nat) : Option Nat :=
  let cols := ((((s.execStripe.elim [] fun st => st.uncomp).map (·.2)).filter fun x => x / 512 == d.id).map (· % 512)).dedup
  if off = 0x00 then some (s.latticeStat d)
  else if off = 0x04 then some ((d.lanes.map fun l => if l.codes.isSome then 2 ^ (l.id % 12) else 0).sum)
  else if off = 0x08 then
    some (d.lat.gens.getD 2 0 % 256 * 2 ^ 16 + d.lat.gens.getD 1 0 % 256 * 256 + d.lat.gens.getD 0 0 % 256)
  else if off = 0x0C then some d.lat.clampCount
  else if off = 0x10 then some ((cols.min?.getD 65535) * 65536 + cols.length)
  else if off = 0x14 then some d.lat.beamLost
  else if off = 0x18 then some (s.beamsWith d.id 1)
  else if off = 0x1C then some (s.beamsWith d.id 3 * 65536 + s.beamsWith d.id 2)
  else if off = 0x20 then some d.lat.shot
  else none

/-- LATTICE_LANE_MAPn. -/
def Lane.mapWord (l : Lane) : Nat :=
  if l.retired then 2 ^ 31 else l.groups % 32 * 65536 + l.firstGroup % 128

/-- Offsets of the blocks that a retirement switches off, but the lane maps and LANE_SUMn. -/
def frozenOffsets : List Nat :=
  ((List.range 8).map fun i => 0x20000 + 4 * i) ++ ((List.range 11).map fun i => 0x30000 + 4 * i)
    ++ ((List.range 6).map fun i => 0x40000 + 4 * i) ++ ((List.range 8).map fun i => 0x40100 + 4 * i)
    ++ ((List.range 11).map fun i => 0x50000 + 4 * i) ++ ((List.range 9).map fun i => 0x60000 + 4 * i)

/-- A register of those blocks on a live die, by die offset. -/
def State.liveReg (s : State) (d : Die) (off : Nat) : Option Nat :=
  let o := off % 0x10000
  match off / 0x10000 with
  | 2 => d.mem.reg o
  | 3 => d.sram.reg o
  | 4 => s.tessReg d o
  | 5 => d.con.reg o
  | 6 => s.latticeReg d o
  | _ => none

/-- What the blocks read as at a die's retirement. -/
def State.freezeDie (s : State) (d : Die) : List (Nat × Word) :=
  frozenOffsets.filterMap fun off => (s.liveReg d off).map fun v => (off, BitVec.ofNat 32 v)

/-- LATTICE_STAT.dark_only, which a retired die shows (19 R465). -/
def darkOnly (v : Nat) : Nat := if bit v 2 then v else v + 4

/-- A register of the blocks named above: live, or as at retirement. -/
def State.blockReg (s : State) (d : Die) (off : Nat) : Option Nat :=
  if 0x60040 ≤ off ∧ off < 0x60070 ∧ off % 4 = 0 then
    some ((d.lanes.getD ((off - 0x60040) / 4) (Lane.reset d.id 0)).mapWord)
  else if 0x70000 ≤ off ∧ off < 0x70030 ∧ off % 4 = 0 then
    some (s.laneSum (d.lanes.getD ((off - 0x70000) / 4) (Lane.reset d.id 0)))
  else if d.retired then
    ((d.frozen.find? fun x => x.1 == off).map fun x => if off = 0x60000 then darkOnly x.2.toNat else x.2.toNat)
  else s.liveReg d off

end Sys2Proof.Machine
end

