-- ==== Sys2Proof/Machine/Ledger.lean ====
section
/-! DEFINITION. The make-up ledger: class T records, forming, extending and closing entries, the rest of a stripe
(03_dma.md R89-R92, 09_stripes_ledger.md R231-R243). -/

namespace Sys2Proof.Machine

/-! ### Class T records -/

/-- Bytes of the records waiting on a channel. -/
def DmaT.waitingBytes (c : DmaT) : Nat := (c.waiting.map fun r => 4 * r.length).sum

/-- Bytes the channel's buffer can still take (R90). -/
def DmaT.room (c : DmaT) : Nat := 2 ^ c.log2 - (c.wr + 2 ^ 32 - c.rd) % 2 ^ 32

/-- A source produces a record: a ledger record waits for room, any other that does not fit is dropped whole (R92); a
disabled channel takes none. -/
def State.record (s : State) (ch : Nat) (src : TSource) (ws : List Word) : State :=
  let lost : Bool := match s.dmaT[ch]? with
    | some c => c.source == src && c.enabled && src != .ledger && decide (c.room < c.waitingBytes + 4 * ws.length)
    | none => false
  let s := if lost then s.count 0 183 1 else s
  { s with
    dmaT := s.dmaT.modify ch fun c =>
      if c.source ≠ src || !c.enabled then c
      else if src == .ledger || c.waitingBytes + 4 * ws.length ≤ c.room then { c with waiting := c.waiting ++ [ws] }
      else { c with dropped := wrapAdd c.dropped 1 } }

/-- Whether a source may be bound to a channel: the channel carries no other (R89). -/
def State.bindable (s : State) (ch : Nat) (src : TSource) : Bool :=
  match s.dmaT[ch]? with
  | some c => c.source == .none || c.source == src
  | none => false

/-- Bind a source to a channel; a source is carried by one channel. -/
def State.bindT (s : State) (ch : Nat) (src : TSource) : State :=
  { s with
    dmaT := (s.dmaT.map fun c => if c.source = src then { c with source := .none } else c).modify ch fun c =>
      { c with source := src } }

def State.unbindT (s : State) (src : TSource) : State :=
  { s with dmaT := s.dmaT.map fun c => if c.source = src then { c with source := .none, waiting := [] } else c }

/-! ### Entries -/

/-- The words of an entry (Table 9-6a). -/
def LedgerEntry.words (e : LedgerEntry) : List Word :=
  [e.stripe, e.cause * 2 ^ 24 + b2n e.unconfirmed * 2 ^ 21 + b2n e.makeup * 2 ^ 20 + e.pass * 2 ^ 16 + e.group, e.first,
    e.count, e.groups * 2 ^ 16 + e.epoch % 256 * 256 + e.lane, e.ns, e.seconds % 2 ^ 32, e.seconds / 2 ^ 32].map
    (BitVec.ofNat 32)

/-- Entries the ring holds (R241). -/
def ledgerSize : Nat := 4194304

/-- Index of the next entry (LEDGER_NEXT): indices are 32 bits wide and wrap (R241). -/
def State.ledgerNext (s : State) : Nat := wrapAdd s.seq.first s.seq.ledger.length

/-- Place of an index in the unreleased entries, modulo 2^32: below their number for those written, in the upper half for
released ones. -/
def State.ledgerPlace (s : State) (i : Nat) : Nat := (i + (2 ^ 32 - s.seq.first)) % 2 ^ 32

/-- One index is at or before another: fewer than 2^31 lie between. -/
def indexAtOrBefore (a b : Nat) : Bool := decide ((b + (2 ^ 32 - a)) % 2 ^ 32 < 2 ^ 31)

def State.ledgerFree (s : State) : Nat := ledgerSize - s.seq.ledger.length

/-- Causes whose entries span consecutive groups whether or not each is live at the shot (R240). -/
def causeWhole (cause : Nat) : Bool := cause ≤ 0x02 || (0x07 ≤ cause && cause ≤ 0x0F)

/-- Consecutive runs of an ascending list: (first, length). -/
def runsOf : List Nat → List (Nat × Nat)
  | [] => []
  | g :: gs =>
    match runsOf gs with
    | (h, n) :: rest => if h = g + 1 then (g, n + 1) :: rest else (g, 1) :: (h, n) :: rest
    | [] => [(g, 1)]

/-- A rectangle of a pass: first group, groups, first shot, shots. -/
structure Rect where
  group : Nat
  groups : Nat
  first : Nat
  count : Nat
  deriving DecidableEq, Repr

def LedgerEntry.rect (e : LedgerEntry) : Rect := { group := e.group, groups := e.groups, first := e.first, count := e.count }

/-- A rectangle less another: the groups left and right of the cut, then the shots before and after it. -/
def Rect.minus (r c : Rect) : List Rect :=
  let g0 := max r.group c.group
  let g1 := min (r.group + r.groups) (c.group + c.groups)
  let n0 := max r.first c.first
  let n1 := min (r.first + r.count) (c.first + c.count)
  if g0 < g1 && n0 < n1 then
    [{ r with groups := g0 - r.group }, { r with group := g1, groups := r.group + r.groups - g1 },
      { group := g0, groups := g1 - g0, first := r.first, count := n0 - r.first },
      { group := g0, groups := g1 - g0, first := n1, count := r.first + r.count - n1 }].filter
      fun x => 0 < x.groups && 0 < x.count
  else [r]

/-- A rectangle less every cut. -/
def Rect.minusAll (r : Rect) (cuts : List Rect) : List Rect :=
  cuts.foldl (fun rs c => rs.flatMap fun x => x.minus c) [r]

/-- The stripe an id names: admitted, or the one that ended last (R241). -/
def State.stripe? (s : State) (id : Nat) : Option Stripe :=
  match s.seq.stripes.find? fun st => st.id == id with
  | some st => some st
  | none => s.seq.last.filter fun st => st.id == id

def State.modStripe (s : State) (id : Nat) (f : Stripe → Stripe) : State :=
  { s with
    seq.stripes := s.seq.stripes.map fun st => if st.id = id then f st else st
    seq.last := s.seq.last.map fun st => if st.id = id then f st else st }

/-- The executing stripe (R221). -/
def State.executing? (s : State) : Option Stripe := s.seq.stripes.find? (·.executing)

def Stripe.select (st : Stripe) (pass : Nat) : BitVec 64 :=
  (st.tables.mask (st.passes.getD pass { mask := 0, ix := 0, iy := 0 }).mask).select

/-- First group and number of groups of the stripe's column blocks. -/
def Stripe.groupSpan (st : Stripe) : Nat × Nat := (128 * st.root.firstBlock, 128 * st.root.blocks)

/-- Live group-shots of a rectangle in a pass of a stripe (R231). -/
def Stripe.liveIn (st : Stripe) (pass : Nat) (r : Rect) : Nat :=
  let span := st.groupSpan
  let lo := max r.group span.1
  let hi := min (r.group + r.groups) (span.1 + span.2)
  let even := (hi + 1) / 2 - (lo + 1) / 2
  let odd := hi / 2 - lo / 2
  if lo < hi then
    even * liveShots (st.select pass) 0 st.root.rows r.first (r.first + r.count)
      + odd * liveShots (st.select pass) 1 st.root.rows r.first (r.first + r.count)
  else 0

/-- Entries, open or written, that already cover group-shots of a pass. -/
def State.coverOf (s : State) (st : Stripe) (pass : Nat) : List LedgerEntry :=
  (s.seq.opened.filter (fun e => e.stripe == st.id && e.pass == pass)) ++ st.written.filter fun e => e.pass == pass

/-- Lane number of an entry's first group (Table 9-6a); 0x7F where no lane carries it. -/
def State.entryLane (s : State) (g : Nat) : Nat := ((s.laneOf g).map (·.id)).getD 0x7F

/-- A new open entry of a rectangle. -/
def State.newEntry (s : State) (st : Stripe) (cause : Nat) (pass epoch : Nat) (r : Rect) (lane : Option Nat) : LedgerEntry :=
  { stripe := st.id, cause := cause, unconfirmed := cause == 0x06, makeup := st.makeup.isSome, pass := pass, group := r.group,
    groups := r.groups, first := r.first, count := r.count, epoch := epoch, lane := lane.getD (s.entryLane r.group),
    ns := s.timeNs, seconds := s.timeSec }

/-- Rectangles forced dark with one cause: each part that no entry of the pass covers and that holds a live group-shot opens
an entry (R238, R240); SEQ_DARK_COUNT counts the live group-shots. -/
def State.darkRect (s : State) (st : Stripe) (cause pass : Nat) (r : Rect) (lane : Option Nat) : State :=
  let parts := (r.minusAll ((s.coverOf st pass).map (·.rect))).filter fun x => 0 < st.liveIn pass x
  { s with
    seq.opened := s.seq.opened ++ parts.map fun x => s.newEntry st cause pass s.ctl.epoch x lane
    seq.darkCount := satAdd s.seq.darkCount (parts.map (st.liveIn pass)).sum }

/-- Extend the open entry of a run by one shot, or open one (R240). -/
def State.darkRun (s : State) (st : Stripe) (cause pass n epoch : Nat) (run : Nat × Nat) (lane : Option Nat) : State :=
  let r : Rect := { group := run.1, groups := run.2, first := n, count := 1 }
  let live := st.liveIn pass r
  if live = 0 then s
  else
    let same := fun (e : LedgerEntry) =>
      e.stripe == st.id && e.pass == pass && e.cause == cause && e.group == run.1 && e.groups == run.2
        && e.epoch == epoch && e.first + e.count == n
    let opened :=
      if s.seq.opened.any same then s.seq.opened.map fun e => if same e then { e with count := e.count + 1 } else e
      else s.seq.opened ++ [s.newEntry st cause pass epoch r lane]
    { s with seq.opened := opened, seq.darkCount := satAdd s.seq.darkCount live }

/-- Groups forced dark at shot n with one cause, under a lane-assignment epoch. -/
def State.darkUnder (s : State) (epoch : Nat) (st : Stripe) (cause pass n : Nat) (groups : List Nat) (lane : Option Nat) : State :=
  let cover := s.coverOf st pass
  let gs := groups.filter fun g =>
    !(cover.any fun e => e.covers pass g n)
      && (causeWhole cause || liveAt (st.select pass) (g % 2) st.root.rows n)
  (runsOf gs).foldl (fun s run => s.darkRun st cause pass n epoch run lane) s

/-- Groups forced dark at shot n with one cause. -/
def State.dark (s : State) (st : Stripe) (cause pass n : Nat) (groups : List Nat) (lane : Option Nat) : State :=
  s.darkUnder s.ctl.epoch st cause pass n groups lane

/-- Records forced dark at one shot: their entries carry the epoch of the records, whose code dose tables give the lost dose
(R246; DEDUCED, notes/assumptions/49.md). -/
def State.darkRecs (s : State) (st : Stripe) (cause : Nat) (rs : List Rec) (lane : Option Nat) : State :=
  (rs.map fun r => (r.epoch, r.pass, r.shot)).dedup.foldl (fun s k =>
    let mine := rs.filter fun r => r.epoch == k.1 && r.pass == k.2.1 && r.shot == k.2.2
    s.darkUnder k.1 st cause k.2.1 k.2.2 ((mine.map Rec.group).insertionSort (· ≤ ·)) lane) s

/-! ### Closing -/

/-- What is already kept of a stripe: a source since its first entry (R245). -/
def State.kept (s : State) (st : Stripe) (o : Source) : Bool :=
  o.stripe == st.id && (!st.written.isEmpty || o.since == s.ledgerNext)

/-- Keep what a make-up will need of the stripe of a written entry, and the lane assignment of the entry's epoch (R245). -/
def State.keepSource (s : State) (st : Stripe) (epoch : Nat) : State :=
  let at_ := fun (o : Source) => { o with lanesAt := o.lanesAt ++ [(epoch, s.mapAt epoch)] }
  if s.seq.sources.any (s.kept st) then
    { s with seq.sources := s.seq.sources.map fun o =>
        if s.kept st o && !(o.lanesAt.any fun x => x.1 == epoch) then at_ o else o }
  else
    let o := s.sourceOf st s.ledgerNext
    { s with seq.sources := (if epoch = s.ctl.epoch then o else at_ o) :: s.seq.sources }

/-- Write a closed entry: ledger, stripe count, stream and aggregator batch (R240, R242, R351); with 65,536 entries free the
reserve is reached (R241). -/
def State.writeLedger (s : State) (e : LedgerEntry) : State :=
  let s := match s.stripe? e.stripe with
    | some st => s.keepSource st e.epoch
    | none => s
  let idx := s.ledgerNext
  let s := { s.count 0 184 1 with seq.ledger := s.seq.ledger ++ [e] }
  let s := s.modStripe e.stripe fun st => { st with written := st.written ++ [e] }
  let s := match s.seq.stream with
    | some ch => s.record ch .ledger e.words
    | none => s
  let s := if s.chord.aggregate then { s with seq.batch := s.seq.batch ++ [(idx, e.words)] } else s
  { s with seq.reserve := s.seq.reserve || decide (s.ledgerFree ≤ 65536) }

/-- Close the open entries that a test picks, in order of first shot and group as they were opened. -/
def State.closeEntries (s : State) (p : LedgerEntry → Bool) : State :=
  let done := s.seq.opened.filter p
  done.foldl State.writeLedger { s with seq.opened := s.seq.opened.filter fun e => !p e }

def State.flushStripe (s : State) (id : Nat) : State := s.closeEntries fun e => e.stripe == id

/-- Closing at crossing n: Lattice has treated shot n + 4, the strobe of n has come, reports go back 8 shots (R240). -/
def State.closeAt (s : State) (n : Nat) : State :=
  s.closeEntries fun e =>
    let stop := e.first + e.count
    if e.cause ≤ 0x02 || e.cause = 0x0D || e.cause = 0x21 || e.cause = 0x22 then stop ≤ n + 4
    else if e.cause = 0x05 || e.cause = 0x06 then stop + 8 ≤ n
    else stop ≤ n

/-! ### The rest of a stripe (R235) -/

/-- Ledger every live group-shot of a stripe from a pass and shot on, with one cause. -/
def State.darkRest (s : State) (st : Stripe) (cause pass shot : Nat) : State :=
  let span := st.groupSpan
  (List.range st.passes.length).foldl
    (fun s p =>
      if p < pass then s
      else
        let a := if p = pass then shot else 0
        s.darkRect st cause p { group := span.1, groups := span.2, first := a, count := passShots st.root.rows - a } none) s

/-- The shot after the last strobe of the pass, from the shot progress latch (R43); 0 between passes. -/
def State.restFrom (s : State) (st : Stripe) : Nat :=
  match s.seq.latch with
  | some (id, p, n) => if st.phase == .running && id == st.id && p == st.pass then n else 0
  | none => 0

end Sys2Proof.Machine
end

