-- ==== Sys2Proof/Machine/Compare.lean ====
section
/-! DEFINITION. Locus's capture log, its interrupts and compare units, and what moves a scan position by a step
(11_position_shot.md R293, R294, R307-R312, 12_motion.md R328). -/

namespace Sys2Proof.Machine

/-! ### Capture log and interrupts -/

/-- The crossing count of the pass, 0xFFFF_FFFF outside RUNNING (Table 11-7). -/
def State.crossWord (s : State) : Nat :=
  match s.locus.gen, s.executing? with
  | some g, some st => if st.phase = .running then g.next else 0xFFFFFFFF
  | _, _ => 0xFFFFFFFF

/-- A capture record (R312, Table 11-7). -/
def State.capture (s : State) (kind unit info : Nat) (pos : Int) : State :=
  match s.locus.captureCh with
  | none => s
  | some ch =>
    let p := unsigned 64 pos
    s.record ch .locus
      [BitVec.ofNat 32 (info % 65536 * 65536 + unit * 256 + kind), lo32 p, hi32 p, BitVec.ofNat 32 s.crossWord,
        BitVec.ofNat 32 s.timeFrac, BitVec.ofNat 32 s.timeNs, lo32 s.timeSec, hi32 s.timeSec]

/-- Vector 20 where LOCUS_IRQ_EN's bit allows it (Table 11-9). -/
def State.locusIrq (s : State) (b : Nat) : State := if s.locus.irqEn.getLsbD b then s.signal 20 else s

/-! ### Compare units (R307-R309) -/

def State.compare (s : State) (u : Nat) : Compare := s.locus.compares.getD u Compare.reset

def State.modCompare (s : State) (u : Nat) (f : Compare → Compare) : State :=
  { s with locus.compares := s.locus.compares.modify u f }

/-- A unit enters FIRED, LATE or CANCELLED (R308): position and time captured where it fires. -/
def State.compareEnd (s : State) (u : Nat) (st : CmpState) : State :=
  let c := s.compare u
  let fires := st != .cancelled
  let pos := s.axisPos c.axis
  let s := s.modCompare u fun c =>
    { c with state := st, event := true, late := if fires then st == .late else c.late
             pos := if fires then pos else c.pos, ns := if fires then s.timeNs else c.ns }
  let s := s.count 0 186 1
  let s := if c.irq then s.locusIrq 13 else s
  if c.capture then s.capture (match st with | .fired => 0x03 | .late => 0x04 | _ => 0x05) u 0 pos else s

/-- Whether a target is behind the position in a unit's direction (R309). -/
def behind (dir : Nat) (target pos : Int) : Bool :=
  (dir == 0 && decide (target ≤ pos)) || (dir == 1 && decide (pos ≤ target))

/-- Arming a unit: FIRED later, or LATE at once (R308). -/
def State.armCompare (s : State) (u : Nat) : State :=
  let c := s.compare u
  if behind c.dir c.target (s.axisPos c.axis) then s.compareEnd u .late else s.modCompare u fun c => { c with state := .armed }

/-- A position passed from one value to another reaches a target in a direction (R307). -/
def reaches (dir : Nat) (target before now : Int) : Bool :=
  (dir != 1 && decide (before < target) && decide (target ≤ now)) || (dir != 0 && decide (target < before) && decide (now ≤ target))

/-- The armed units of an axis whose position went from one value to its present one (R307). While a pass's crossings are
generated, unit 15 fires at crossing 0 (R310). -/
def State.runCompares (s : State) (axis : Nat) (before : Int) : State :=
  (List.range (if s.locus.gen.isSome then 15 else 16)).foldl (fun s u =>
    let c := s.compare u
    if c.state == .armed && c.axis == axis && reaches c.dir c.target before (s.axisPos axis) then s.compareEnd u .fired else s) s

/-- The units of an axis that becomes invalid or unreferenced (Table 11-6). -/
def State.cancelCompares (s : State) (a : Nat) : State :=
  (List.range 16).foldl (fun s u =>
    let c := s.compare u
    if c.axis == a && (c.state == .armed || c.state == .waitTrigger) then s.compareEnd u .cancelled else s) s

/-! ### Index corrections of the scan axis, and a homing's failure -/

/-- A source's count is corrected by -d: the position and the extreme of its direction flag move together (R293). -/
def State.shiftSource (s : State) (n : Nat) (d : Int) : State :=
  s.modSource n fun x => { x with pos := x.pos - d * 65536, extreme := x.extreme - d * 65536 }

/-- The scan axis's deferred index corrections, of its primary and its secondary source, are applied once the pass has left
RUNNING; the tracking estimate and the compare units follow the count (R293, R294, R307). -/
def State.applyDeferred (s : State) : State :=
  let before := s.axisPos 0
  let d := s.locus.deferred.getD 0
  let shift := fun (s : State) (n : Option Nat) (d : Int) => match n with | some n => s.shiftSource n d | none => s
  let s' := shift (shift s (s.locusAxis 0).primary d) (s.locusAxis 0).secondary (s.locus.deferred2.getD 0)
  let s' := { s' with locus.est := s.locus.est - d * 65536, locus.deferred := none, locus.deferred2 := none }
  if d = 0 then s' else s'.runCompares 0 before

/-- A homing ends with HOMING_FAILED; the axis comes to rest unreferenced (R328). -/
def State.failHoming (s : State) (a : Nat) (disable : Bool) : State :=
  let x := s.axis a
  let s := s.modAxis a fun x => { x.stop true disable with homed := false }
  ((s.modLocusAxis a fun la => { la with referenced := false }).cancelCompares a).finalOpt x.ctx homingFailed []

end Sys2Proof.Machine
end

