-- ==== Sys2Proof/Machine/Sram.lean ====
section
/-! DEFINITION. The SRAM of a die: check bits, what a read finds, the addresses of the units' regions (04_memory.md R109-R114). -/

namespace Sys2Proof.Machine

/-! ### Check bits (R110, R111) -/

def sramSize : Nat := 0x1800000

/-- A byte with its check bits (R110). -/
def sramEncode (b : Byte) : Stored :=
  let d := fun i => b.getLsbD i
  let c0 := d 0 ^^ d 1 ^^ d 3 ^^ d 4 ^^ d 6
  let c1 := d 0 ^^ d 2 ^^ d 3 ^^ d 5 ^^ d 6
  let c2 := d 1 ^^ d 2 ^^ d 3 ^^ d 7
  let c3 := d 4 ^^ d 5 ^^ d 6 ^^ d 7
  let c4 := d 0 ^^ d 1 ^^ d 2 ^^ d 3 ^^ d 4 ^^ d 5 ^^ d 6 ^^ d 7 ^^ c0 ^^ c1 ^^ c2 ^^ c3
  BitVec.ofBool c4 ++ BitVec.ofBool c3 ++ BitVec.ofBool c2 ++ BitVec.ofBool c1 ++ BitVec.ofBool c0 ++ b

/-- What a read of a stored byte finds (Table 4-4). -/
inductive SramOutcome where
  | clean (b : Byte)
  | corrected (b : Byte)
  | uncorrectable
  deriving DecidableEq, Repr

/-- The data bit at a syndrome position (R111). -/
def syndromeBit (p : Nat) : Option Nat :=
  match p with
  | 3 => some 0
  | 5 => some 1
  | 6 => some 2
  | 7 => some 3
  | 9 => some 4
  | 10 => some 5
  | 11 => some 6
  | 12 => some 7
  | _ => none

/-- Parity of the 13 stored bits is odd. -/
def oddParity (w : Stored) : Bool := (List.range 13).foldl (fun p i => p ^^ w.getLsbD i) false

/-- A read of a stored byte (R111). -/
def sramDecode (w : Stored) : SramOutcome :=
  let b : Byte := w.extractLsb' 0 8
  let s := ((sramEncode b).extractLsb' 8 4 ^^^ w.extractLsb' 8 4).toNat
  if !oddParity w then (if s = 0 then .clean b else .uncorrectable)
  else if 12 < s then .uncorrectable
  else
    match syndromeBit s with
    | some i => .corrected (b ^^^ BitVec.ofNat 8 (2 ^ i))
    | none => .corrected b

/-- The stored form of the byte that boot writes everywhere (R114). -/
def sramZero : Stored := sramEncode 0

/-- Upsets flip stored bits (physical events outside the block). -/
def Sram.upset (m : Sram) (a : Nat) (mask : Stored) : Sram :=
  if a < sramSize then { m with cells := sparseSet sramZero m.cells a (sparseGet sramZero m.cells a ^^^ mask) } else m

def Sram.write (m : Sram) (a : Nat) (b : Byte) : Sram :=
  if a < sramSize then { m with cells := sparseSet sramZero m.cells a (sramEncode b) } else m

/-- A correctable error is written back and counted (R112). -/
def Sram.correct (m : Sram) (a : Nat) (b : Byte) : Sram :=
  { m.write a b with ceCount := satInc m.ceCount, ceAddr := a }

/-- Half-words of a unit's region (Table 4-3), little-endian. -/
def Sram.writeHalves (m : Sram) (a : Nat) : List Nat → Sram
  | [] => m
  | v :: vs => ((m.write a (BitVec.ofNat 8 v)).write (a + 1) (BitVec.ofNat 8 (v / 256))).writeHalves (a + 2) vs

/-- The byte that a read delivers; 0 where it is withheld. -/
def Sram.byte (m : Sram) (a : Nat) : Nat :=
  match sramDecode (sparseGet sramZero m.cells a) with
  | .clean b | .corrected b => b.toNat
  | .uncorrectable => 0

def Sram.half (m : Sram) (a : Nat) : Nat := m.byte a + 256 * m.byte (a + 1)

/-- Address of a pixel of row y in the beam window, and of a density in the density ring (Table 4-3, 07 R184). -/
def windowAddr (y x : Nat) : Nat := y % 4096 * 0x400 + 2 * x
def ringAddr (row col : Int) : Nat := 0x700000 + (row % 128).toNat * 0x200 + (2 * (col + 63)).toNat

/-- A pixel of the beam window. -/
def Die.pixel (d : Die) (y x : Nat) : Nat := d.sram.half (windowAddr y x)

end Sys2Proof.Machine
end

