-- ==== Sys2Proof/Machine/Lattice.lean ====
section
/-! DEFINITION. Lattice: the group records of one shot (08_beam_mapping.md R203-R217, 09_stripes_ledger.md R231-R232). -/

namespace Sys2Proof.Machine

/-- The code dose table of the lane that carries a group (R209). -/
def State.groupTable (s : State) (g : Nat) : List Nat := cdList ((s.laneOf g).bind (·.codes))

/-- The pixel row of a pass in a die's beam window (R21). -/
def Die.windowRow (d : Die) (stripe pass y : Nat) : Option WinRow :=
  d.lat.window.find? fun w => w.stripe == stripe && w.pass == pass && w.y == y

/-- Beams of a group that the pass selects and that lie over rows 0 to L - 1 at shot n: (slot index, row y). -/
def liveBeams (select : BitVec 64) (rows g n : Nat) : List (Nat × Nat) :=
  (List.range 256).filterMap fun i =>
    let r := 256 * (g % 2) + i
    if select.getLsbD (r / 8) && 8 * r ≤ n && n - 8 * r < rows then some (i, n - 8 * r) else none

/-- Whether Lattice can still read a row for records it makes again (R219): it is present, or released with no other row in its
slot since. -/
def Die.keepsRow (d : Die) (stripe pass y : Nat) : Bool :=
  (d.windowRow stripe pass y).isSome || d.lat.window.all fun w => w.y % 4096 != y % 4096

/-- What Lattice computes for a beam: what enters its pass target, the code, and the dose delivered to the pixel through it. -/
structure BeamValue where
  base : Nat
  factors : List Nat
  code : Nat
  through : Nat
  deriving DecidableEq, Repr

/-- The value of the beam at a slot index of a group over row y (R203, R209, R210, R213), as a physical fault leaves it. -/
def State.beamValue (s : State) (st : Stripe) (p g i y : Nat) (strike : Option StrikeAt) : BeamValue :=
  let x := 8 * (g / 2) + i % 8
  let sel := st.select p
  let input := passInput s.seq.sources (s.seq.sources.length + 1) (s.sourceOf st 0) p ((s.die (g / 128)).pixel y (x % 512)) x y
  let base := match strike with | some (.target v) => v * 2048 | _ => input.1
  let factors := match strike with | some (.factor k v) => input.2.set k v | _ => input.2
  let taps := columnTaps sel st.snapshot s.groupTable (st.uncomp.contains (p, x)) x
  let codes := (quantize taps (applyFactors base factors)).1
  let k := ((selected sel).filter fun j => j < (256 * (g % 2) + i) / 8).length
  let code := match strike with | some (.code q) => q % 64 | _ => codes.getD k 0
  let doses := (taps.zip (codes.set k code)).map fun t => t.1.dose t.2
  { base := base, factors := factors, code := code, through := (doses.take (k + 1)).sum }

/-- The dose ceiling clamp's three checks (R216), in units of 2^-23 nd: what enters the target is at most the stripe ceiling (a
make-up's is its source's, R246), no factor exceeds 1.0, and the dose through the beam is at most T. -/
def BeamValue.passes (v : BeamValue) (ceiling : Nat) : Bool :=
  decide (v.base ≤ ceiling * 2048) && v.factors.all (· ≤ 0x8000) && decide (v.through ≤ applyFactors v.base v.factors)

/-- A group's codes at a shot, and whether every value passes the clamp and the record its check value. -/
structure GroupCodes where
  codes : List Nat
  clampOk : Bool
  recordOk : Bool
  deriving DecidableEq, Repr

/-- The codes of a group at a shot from the beam window (R203, R209, R210, R213, R216, 01 R23); none when a row it needs fails
the presence test. -/
def State.groupCodes (s : State) (st : Stripe) (p n g : Nat) (present : Nat → Bool) (strikes : List Strike) : Option GroupCodes :=
  let live := liveBeams (st.select p) st.root.rows g n
  let mine := strikes.filter fun x => x.shot == n && x.group == g
  if live.all fun b => present b.2 then
    let vs := live.map fun b => (b.1, s.beamValue st p g b.1 b.2 ((mine.find? fun x => x.index == b.1).map (·.value)))
    some {
      codes := (List.range 256).map fun i => ((vs.find? fun v => v.1 == i).map fun v => v.2.code).getD 0
      clampOk := vs.all fun v => v.2.passes st.ceiling
      recordOk := mine.all fun x => x.value != .record }
  else none

/-- A group that holds an unusable selected beam of an uncompensable column over a row of the stripe (R213). -/
def Stripe.uncompDark (st : Stripe) (p g n : Nat) : Bool :=
  (liveBeams (st.select p) st.root.rows g n).any fun b =>
    let r := 256 * (g % 2) + b.1
    let x := 8 * (g / 2) + b.1 % 8
    st.uncomp.contains (p, x) && !usableStatus (beamAt st.snapshot (g / 2 * 512 + r)).1

/-- A group that holds a beam lost during the stripe and over a row of it, from the shot the loss applies (R214). -/
def Stripe.lostDark (st : Stripe) (p g n : Nat) : Bool :=
  st.lostBeams.any fun b =>
    let c := b.1 / 512
    let r := b.1 % 512
    2 * c + r / 256 == g && (st.select p).getLsbD (r / 8) && 8 * r ≤ n && n - 8 * r < st.root.rows
      && (b.2.2 < p || (b.2.2 == p && b.2.1 ≤ n))

/-- What Lattice makes of a group at a shot: its codes, the cause of a forced dark that is ledgered, and a clamp failure. -/
structure GroupShot where
  codes : List Nat
  cause : Option Nat
  clamp : Bool
  deriving DecidableEq, Repr

def zeroCodes : List Nat := List.replicate 256 0

/-- A record of code 0 for all 256 beams, with what the ledger is told of it. -/
def GroupShot.dark (cause : Option Nat) : GroupShot := { codes := zeroCodes, cause := cause, clamp := false }

/-- The cause of a row absent from the beam window (R232). -/
def Die.lateCause (d : Die) (stripe pass y : Nat) : Nat :=
  if d.retired then 0x0D
  else
    match d.con.lost.find? fun l => l.1 == stripe && l.2.1 == pass && l.2.2.1 == y / 64 with
    | some l => if l.2.2.2 then 0x0D else 0x02
    | none => 0x01

/-- A group's codes after R213, R214 and the checks of R216 and R23: a cause that ledgers only nonzero records appears only with
a nonzero code. A record whose check value fails is ledgered as CLAMP, for which R23 names no cause (DESIGN CHOICE,
notes/assumptions/49.md). -/
def GroupCodes.shot (c : GroupCodes) (st : Stripe) (p n g : Nat) : GroupShot :=
  let lit := c.codes.any (0 < ·)
  let as := fun (k : Nat) => if lit then some k else none
  if st.uncompDark p g n then .dark (as 0x20)
  else if st.lostDark p g n then .dark (as 0x21)
  else if !c.clampOk then { codes := zeroCodes, cause := as 0x22, clamp := true }
  else if !c.recordOk then .dark (as 0x22)
  else { codes := c.codes, cause := none, clamp := false }

/-- One group of one shot: absent rows first; then a group that no lane carries, which cannot leave in time (R219, 01 R28); then
the codes. -/
def State.groupShot (s : State) (st : Stripe) (p n g : Nat) (strikes : List Strike) : GroupShot :=
  let span := st.groupSpan
  if g < span.1 || span.1 + span.2 ≤ g then .dark none
  else
    let d := s.die (g / 128)
    match s.groupCodes st p n g (fun y => (d.windowRow st.id p y).isSome) strikes with
    | none =>
      let y := ((liveBeams (st.select p) st.root.rows g n).find? fun b => (d.windowRow st.id p b.2).isNone).map (·.2)
      .dark (some (d.lateCause st.id p (y.getD 0)))
    | some c =>
      if (s.laneOf g).isNone then .dark (if liveAt (st.select p) (g % 2) st.root.rows n then some 0x03 else none)
      else c.shot st p n g

/-- A record for a lane's queue. -/
def State.newRec (s : State) (stripe p n g : Nat) (codes : List Nat) : Rec :=
  { stripe := stripe, pass := p, shot := n, group := g, epoch := s.ctl.epoch, codes := codes, sent := 0, frames := [],
    bad := false, placed := false, rejected := false, committed := false, dark := false }

/-- A record made again under the assignment in force, with its new lane's code dose table (R209, R219): code 0 where its
group-shot is ledgered already; none where no lane carries its group or its rows are gone. -/
def State.remake (s : State) (st : Stripe) (r : Rec) : Option Rec :=
  let d := s.die (r.group / 128)
  if (s.laneOf r.group).isNone then none
  else if (s.coverOf st r.pass).any fun e => e.covers r.pass r.group r.shot then
    some (s.newRec r.stripe r.pass r.shot r.group zeroCodes)
  else
    (s.groupCodes st r.pass r.shot r.group (d.keepsRow st.id r.pass) []).map fun c =>
      s.newRec r.stripe r.pass r.shot r.group (c.shot st r.pass r.shot r.group).codes

/-- Put records into the queues of the lanes that carry their groups (R217, R218). -/
def State.queueRecs (s : State) (rs : List Rec) : State :=
  s.modLanes fun l =>
    if l.retired then l
    else
      { l with recs := l.recs ++ rs.filter fun r =>
          r.group / 128 == l.id / 12 && l.firstGroup ≤ r.group % 128 && r.group % 128 < l.firstGroup + l.groups }

/-- The groups that a cause hands to the ledger: those it darkens, and for the causes of R240 whose rectangles span consecutive
groups also the ones not live at the shot, on every die where it darkens one. -/
def Stripe.darkGroups (st : Stripe) (p n cause : Nat) (made : List (Nat × GroupShot)) : List Nat :=
  let hit := fun (m : Nat × GroupShot) => m.2.cause == some cause
  let dies := ((made.filter hit).map fun m => m.1 / 128).dedup
  let span := st.groupSpan
  (made.filter fun m => hit m || (causeWhole cause && dies.contains (m.1 / 128) && span.1 ≤ m.1 && m.1 < span.1 + span.2
    && !liveAt (st.select p) (m.1 % 2) st.root.rows n)).map (·.1)

/-- Lattice treats shot n of a pass: records for every group, ledger entries for the groups forced dark, and release of the rows
no later shot uses (R21, R22, R217, R232). -/
def State.latticeShot (s : State) (st : Stripe) (p n : Nat) (strikes : List Strike) : State :=
  let made := (List.range (128 * s.nDies)).map fun g => (g, s.groupShot st p n g strikes)
  let late := made.any fun m => m.2.cause == some 0x01 || m.2.cause == some 0x02 || m.2.cause == some 0x0D
  let clamped := fun (d : Nat) => (made.filter fun m => m.2.clamp && m.1 / 128 == d).length
  let dark := [0x02, 0x0D, 0x01, 0x03, 0x21, 0x22].map fun c => (c, st.darkGroups p n c made)
  let s := s.queueRecs (made.map fun m => s.newRec st.id p n m.1 m.2.codes)
  let weak := (st.snapshot.filter fun b => b.2.1 == 1).map fun b => (2 * (b.1 / 512) + b.1 % 512 / 256, b.1 % 256)
  let s := s.liveDies.foldl (fun s d =>
    let mine := made.filter fun m => m.1 / 128 == d
    let codes := mine.flatMap fun m => m.2.codes
    let lit := weak.filter fun b => b.1 / 128 == d && (mine.any fun m => m.1 == b.1 && m.2.cause.isNone)
      && (liveBeams (st.select p) st.root.rows b.1 n).any fun l => l.1 == b.2
    (((((s.count d 32 mine.length).count d 34 (codes.filter (0 < ·)).length).count d 35 (clamped d)).count d 36
      lit.length).count d 37 (codes.filter (· == 63)).length).count d 38
      (mine.filter fun m => m.2.cause.isSome).length) s
  let s := dark.foldl (fun s c => s.dark st c.1 p n c.2 none) s
  let s := if late then { s with seq.dataLate := true } else s
  s.modDies fun d =>
    { d with lat := { d.lat with
        shot := n, pass := p, regen := false
        waitRow := made.any fun m => m.1 / 128 == d.id && m.2.cause == some 0x01
        clamp := d.lat.clamp || decide (0 < clamped d.id)
        clampCount := satAdd d.lat.clampCount (clamped d.id)
        window := d.lat.window.filter fun w => !(w.stripe == st.id && w.pass == p && w.y + 4088 ≤ n) } }

/-- The dies of the groups whose values fail the clamp in a shot, one for each group (R216). -/
def State.clampDies (s : State) (st : Stripe) (p n : Nat) (strikes : List Strike) : List Nat :=
  ((List.range (128 * s.nDies)).filter fun g => (s.groupShot st p n g strikes).clamp).map (· / 128)

/-- The class counter (17 R434 Table 17-6) of a group at a shot: 1 retired, 2 wasted, 3 front-starved, 4 back-bound. -/
def Stripe.slotClass (st : Stripe) (es : List LedgerEntry) (p n g : Nat) (advance : Bool) : Nat :=
  let live := liveAt (st.select p) (g % 2) st.root.rows n && st.root.hasColumn (512 * (g / 128))
  if advance then 4
  else
    match es.find? fun e => live && e.covers p g n with
    | none => 1
    | some e =>
      if e.cause = 0x01 || e.cause = 0x02 then 3 else if e.cause = 0x03 || e.cause = 0x04 || e.cause = 0x06 then 4 else 2

/-- The slots of shot n on every participating die are classified (17 R434). -/
def State.countSlots (s : State) (st : Stripe) (p n : Nat) : State :=
  let es := (s.coverOf st p).filter fun e => e.first ≤ n && n < e.first + e.count
  let adv := s.seq.advanced.contains n
  (s.liveDies.filter fun d => st.root.hasColumn (512 * d)).foldl (fun s d =>
    let cls := (List.range 128).map fun g => st.slotClass es p n (128 * d + g) adv
    [1, 2, 3, 4].foldl (fun s k => s.count d k (cls.filter (· == k)).length) (s.count d 0 128)) s

/-- The slots not yet classified when a pass ends. -/
def State.endSlots (s : State) : State :=
  match s.locus.gen, s.executing? with
  | some g, some st =>
    if st.phase = .running then
      ((List.range g.next).filter fun n => g.next ≤ n + 8).foldl (fun s n => s.countSlots st st.pass n) s
    else s
  | _, _ => s

/-- Shots whose records Lattice has begun: up to four beyond the last crossing (R22). -/
def State.latticeNext (s : State) : Nat :=
  match s.locus.gen with
  | some g => min g.total (g.next + 4)
  | none => 0

end Sys2Proof.Machine
end

