-- ==== Sys2Proof/Machine/Reaction.lean ====
section
/-! DEFINITION. What ends a stripe and what the device does on a fault: gates, SAFE_DARK, HALTED, lane and die retirement, the
fault queue (01 R39-R45, 09 R233-R244, 15_safety_faults.md R373-R395). -/

namespace Sys2Proof.Machine

/-! ### Ending stripes -/

/-- The safe-dark gates close and the pass leaves RUNNING: no pulse leaves, and the lanes' queues are dropped but for the
committed records of fired shots, whose reports may still come (15 R373, Table 9-5, 09 R241, R243). -/
def State.closeGates (s : State) : State :=
  let s := s.endSlots
  let next := (s.locus.gen.map (·.next)).getD 0
  let running := s.locus.gen.isSome
  let s := ({ s with perim.gateClosed := true, locus.gen := none }).modLanes fun l =>
    { l with recs := l.recs.filter fun r => (0 < r.sent && r.sent < 194) || (r.committed && (!running || r.shot < next)) }
  let s := s.applyDeferred
  s.modDies fun d => { d with lat.regen := false }

/-- Contour with no work of a stripe-pass in hand: no factors, and no stall (07 R195). -/
def Contour.idle (c : Contour) : Contour :=
  { c with factors := [], waitFactor := false, waitDensity := false, waitTile := false, waitBuffer := false }

/-- Discard what the data path holds of a stripe (07 R195, 06 R172, 08). -/
def Die.dropStripe (id : Nat) (d : Die) : Die :=
  let mine := d.tess.work.any fun w => w.1 == id
  let ring := d.con.ringOf.any fun w => w.1 == id
  { d with
    tess := if mine then
        { d.tess with work := none, counts := [], tiles := [], rerender := false, waitQueue := false
                      waitCoarse := false, waitRing := false, waitBlock := false
                      queue := d.tess.queue.filter fun t => t.stripe != id }
      else { d.tess with queue := d.tess.queue.filter fun t => t.stripe != id }
    con := { (if mine || ring then d.con.idle else d.con) with
      ringOf := if ring then none else d.con.ringOf
      ring := if ring then [] else d.con.ring
      checked := d.con.checked.filter fun b => b.1 != id
      fabric := d.con.fabric.filter fun f => wordAt f.2 0 != id
      stops := d.con.stops.filter fun w => w.1 != id
      ra := d.con.ra.filter fun b => b.stripe != id
      lost := d.con.lost.filter fun l => l.1 != id }
    lat.window := d.lat.window.filter fun w => w.stripe != id }

/-- A class D channel whose stripe has ended: it goes on only to discard the descriptor in progress, and without one it
waits for a binding (03 R78, R82). -/
def DmaD.unbind (c : DmaD) : DmaD :=
  { c with
    bound := none, paused := false, ended := c.desc.isSome
    state := if c.desc.isNone && (c.state == .idle || c.state == .active) then .waitBind else c.state }

/-- An area that its stripe leaves: free for the next binding, which clears what its registers tell of this one (DESIGN CHOICE,
notes/assumptions/49.md). -/
def Area.release (a : Area) : Area :=
  { Area.reset with
    cause := a.cause, under := a.under, fault := a.fault, expect := a.expect, bad := a.bad, discard := a.discard, part := a.part,
    faultSeq := a.faultSeq, faultOff := a.faultOff }

/-- Free the staging area of a stripe and unbind its channel (05 R144, 03 R82). -/
def State.freeArea (s : State) (id : Nat) : State :=
  { s with
    areas := s.areas.map fun a => if a.bound = some id then a.release else a
    dmaD := s.dmaD.map fun c => if c.bound = some id then c.unbind else c }

/-- Keep only the sources that an unreleased entry, a stripe or a kept source still names (R245). The list is newest first,
and a source names only older ones. -/
def State.pruneSources (s : State) : State :=
  let idx := s.seq.ledger.zipIdx.map fun e => (wrapAdd s.seq.first e.2, e.1.stripe)
  let start := s.seq.stripes.filterMap fun st => st.makeup.map fun m => (m.stripe, m.since)
  let kept := s.seq.sources.foldl
    (fun (acc : List Source × List (Nat × Nat)) o =>
      if (idx.any fun e => e.2 == o.stripe && indexAtOrBefore o.since e.1) || acc.2.contains (o.stripe, o.since)
          || s.seq.stripes.any fun st => st.id == o.stripe then
        (acc.1 ++ [o], match o.makeup with | some m => (m.stripe, m.since) :: acc.2 | none => acc.2)
      else acc) ([], start)
  { s with seq.sources := kept.1 }

/-- A pixel column would be uncompensable under the effective table (08 R213, 15 R395): in an admitted stripe, or in the one
admitted last that had such a column. -/
def State.uncompNow (s : State) : Bool :=
  let t := effectiveBeams s.tables.beams s.seq.overlay
  let bad := (t.filter fun e => !usableStatus e.2.1).map (·.1)
  (s.seq.stripes ++ s.seq.worn.toList).any fun st => (List.range st.passes.length).any fun p => bad.any fun b =>
    let x := 8 * (b / 512) + b % 8
    let pd := st.passes.getD p { mask := 0, ix := 0, iy := 0 }
    let o := columnOutcome (columnTaps (st.select p) t s.groupTable false x) (columnTMax st.root st.tables pd st.ceiling x)
    st.root.hasColumn x && (st.select p).getLsbD (b % 512 / 8) && (o == .uncompensable || o == .range)

/-- REPLACE_ADVISED follows the uncompensable columns. -/
def State.updateUncomp (s : State) : State := ({ s with perim.uncomp := s.uncompNow }).updateReplace

/-- The open entries of a stripe at its end: those of an executing stripe are closed; a queued one, its start armed or not, has
none in the ledger but those of its admission (R236, R237). -/
def State.closeStripe (s : State) (st : Stripe) : State :=
  if st.executing then s.flushStripe st.id else { s with seq.opened := s.seq.opened.filter fun e => e.stripe != st.id }

/-- Write a stripe's final entry and remove it: its open entries are closed, its area freed, its blocks released (R235-R237). -/
def State.endStripe (s : State) (id : Nat) (status : Option Nat) : State :=
  match s.seq.stripes.find? fun st => st.id == id with
  | none => s
  | some st =>
    let s := s.closeStripe st
    let st := (s.stripe? id).getD st
    let code := match status with
      | some c => c
      | none => if st.written.length = 0 then ok else partialLedgered
    let head : Bool := match s.seq.stripes with | x :: _ => x.id == id | [] => false
    let s := { s with
      seq.stripes := s.seq.stripes.filter fun x => x.id != id
      seq.last := if st.executing then some st else s.seq.last }
    let s := if head then { s with seq.pause := false, seq.headPause := false, seq.thermPause := false, seq.pauseFor := 0 } else s
    let s := ((s.freeArea id).modDies (Die.dropStripe id)).pruneSources.updateUncomp
    s.final st.ctx code [st.strobes, st.written.length]

/-- The rest of the executing stripe is ledgered with a cause, and the stripe ends (R235). -/
def State.endExecuting (s : State) (cause : Nat) (status : Option Nat) : State :=
  match s.executing? with
  | none => s
  | some st => (s.darkRest st cause st.pass (s.restFrom st)).endStripe st.id status

/-- Queued stripes are removed with a status (R235). -/
def State.removeQueued (s : State) (status : Nat) : State :=
  (s.seq.stripes.filter fun st => !st.executing).foldl (fun s st => s.endStripe st.id (some status)) s

/-- The latched strobe count closes what a reset interrupts: open entries end at it, and boot writes the rest (R43). -/
def State.interruptStripe (s : State) : State :=
  match s.executing? with
  | none => { s with seq.stripes := [] }
  | some st =>
    let n := s.restFrom st
    let s := { s with
      seq.opened := (s.seq.opened.filter fun (e : LedgerEntry) => decide (e.pass < st.pass) || decide (e.first < n)).map fun (e : LedgerEntry) =>
        if e.pass = st.pass then { e with count := min e.count (n - e.first) } else e }
    let s := s.closeEntries fun _ => true
    let st := (s.stripe? st.id).getD st
    let s := if s.seq.sources.any (s.kept st) then s else s.keepSource st s.ctl.epoch
    { s with seq.interrupted := some (st, n), seq.stripes := [], seq.last := none }

/-- With no stripe executing any more, WRITING ends (R221) and the axes are given back. -/
def State.afterStripe (s : State) : State :=
  if s.executing?.isSome then s
  else
    let s := s.releaseAxes
    if s.ctl.dev = .writing then s.setDev .armed else s

/-- The executing stripe ends early: SHOT is inhibited, the rest is ledgered (R235, R236, R241). -/
def State.cutStripe (s : State) (cause : Nat) (status : Option Nat) : State :=
  ((s.closeGates).endExecuting cause status).afterStripe

/-- The ledger reserve is reached (R241): the rest of the executing stripe is ledgered. -/
def State.checkReserve (s : State) : State :=
  if s.seq.reserve && s.executing?.isSome then s.cutStripe 0x0F none else s

/-! ### Device state changes -/

/-- Enter SAFE_DARK from CONFIGURED, ARMED or WRITING (Table 1-7): gates closed, the rest ledgered with the cause given,
queued stripes removed, axes stopped. -/
def State.enterSafeDark (s : State) (cause : Nat) : State :=
  if s.ctl.dev = .configured ∨ s.ctl.dev = .armed ∨ s.ctl.dev = .writing then
    let s := s.closeGates.setDev .safeDark
    let s := { s with perim.darks := s.perim.darks + 1, seq.pause := false, seq.pauseFor := 0 }
    ((s.endExecuting cause none).removeQueued safeDarkActive).arcSafeDark
  else s

/-- Locus loses lock or the scan axis its reference in ARMED or WRITING (Table 1-7, R289, R292). -/
def State.dropToConfigured (s : State) : State :=
  if s.active then
    let s := s.closeGates.setDev .configured
    (((s.endExecuting 0x0A none).removeQueued wrongState).releaseAxes)
  else s

/-- The MEMORY section's words after its header (17 Table 17-3): values and margins. -/
def memorySection (values : List Int) (margins : Nat) : List Word :=
  let v := fun i => values.getD i 0
  let w16 := fun (a b : Int) => BitVec.ofNat 32 (unsigned 16 a + unsigned 16 b * 2 ^ 16)
  ((List.range 4).flatMap fun b =>
      [w16 (v (4 * b)) (v (4 * b + 1)),
        BitVec.ofNat 32 (unsigned 8 (v (4 * b + 2)) + unsigned 8 (v (4 * b + 3)) * 2 ^ 8 + bits margins 7 0 * 2 ^ 16
          + bits margins 15 8 * 2 ^ 24)])
    ++ [BitVec.ofNat 32 (unsigned 16 (v 16) + unsigned 8 (v 17) * 2 ^ 16 + bits margins 23 16 * 2 ^ 24), 0]

/-- The check word of saved training values; R99 names CRC-32C and no seed (PRESUMED 0xFFFF_FFFF, notes/assumptions/49.md). -/
def trainingCheck (values : List Int) (margins : Nat) : Word := crcWords 0xFFFFFFFF (memorySection values margins)

/-- What AON holds of the training values once the DRAM is in self-refresh (04 R99): those in force, or, where the memory was
not running, those saved before. -/
def Die.trainingSaved (d : Die) : Option (List Int × Nat × Word) :=
  if d.mem.state == .active then
    let v := d.cal.values.getD 3 []
    let q := (d.cal.quality.getD 3 []).getD 0 0
    some (v, q, trainingCheck v q)
  else d.mem.saved

/-- Contents a domain loses when it is switched off (16 R401, R402): bits CTRL 1, FABRIC 2, MEM 3, GEO 4, DOSE 5, LANE 6. -/
def Die.switchOff (d : Die) (mask : BitVec 8) : Die :=
  let off := fun (i : Nat) => mask.getLsbD i
  { d with
    pow := { d.pow with on := d.pow.on &&& ~~~mask, iso := d.pow.iso ||| mask }
    tb := if off 1 then 0 else d.tb
    tbHi := if off 1 then 0 else d.tbHi
    apex := if off 1 then 0 else d.apex
    tcm := if off 1 then [] else d.tcm
    cal := if off 1 then Cal.reset else d.cal
    comp := if off 2 then { Comp.reset with off := d.comp.off } else d.comp
    crc := if off 2 then List.replicate 4 CrcUnit.reset else d.crc
    moves := if off 2 then List.replicate 4 (DmaD.reset true) else d.moves
    perf := if off 2 then Perf.reset else d.perf
    mem := if off 3 then
        { Mem.reset with dram := d.mem.dram, saved := d.trainingSaved
                         state := if d.mem.state == .off then .off else .selfRefresh }
      else d.mem
    sram := if off 3 then { Sram.reset with ueLog := d.sram.ueLog } else d.sram
    tess := if off 4 then Tess.reset else d.tess
    con := if off 5 then { Contour.reset with raMib := d.con.raMib } else d.con
    lat := if off 5 then Lattice.reset else d.lat
    lanes := if off 6 then
        d.lanes.map fun l =>
          if l.retired then { l with state := .retired, power := .off, recs := [], elems := [], echoes := [] }
          else { Lane.reset d.id (l.id % 12) with groups := l.groups, firstGroup := l.firstGroup, temp := l.temp }
      else d.lanes }

/-- Whether the active flash bank runs on trial (18 R451). -/
def State.selector (s : State) : Option Selector :=
  match s.flash.sel with
  | [some a, some b] => some (if a.sequence < b.sequence then b else a)
  | [some a, none] => some a
  | [none, some b] => some b
  | _ => none

def State.onTrial (s : State) : Bool := (s.selector.map (·.trial)).getD false

/-- DMA channels at their reset values (03 R94). -/
def State.resetDma (s : State) : State :=
  { s with dmaD := List.replicate 6 (DmaD.reset false) ++ List.replicate 2 (DmaD.reset true)
           dmaT := List.replicate 8 DmaT.reset }

/-- Enter HALTED from any state but OFF (Table 1-7, R44, R45, R409): every domain but AON and CTRL off. -/
def State.enterHalted (s : State) : State :=
  if s.ctl.dev = .off ∨ s.ctl.dev = .halted then s
  else
    let s := (s.closeGates.setDev .halted).interruptStripe
    let s := { s.arcOff with
      perim.darks := s.perim.darks + 1, ctl.ready := false, ctl.boot := .idle, calRuns := []
      ctl.fallBackFlag := s.ctl.fallBackFlag || s.onTrial
      hif := { Hif.reset with gen := s.hif.gen + 1 }, areas := List.replicate 2 Area.reset
      libs := s.libs.filter fun l => l.load.isNone
      flash.busy := 0, flash.staging := none }
    s.resetFunction.resetDma.modDies fun d => { d.switchOff 0xFC with apex := 3 }

/-! ### The fault queue -/

/-- The words of a record (Table 15-5). -/
def FaultRecord.words (r : FaultRecord) : List Word :=
  [BitVec.ofNat 32 r.seq,
    BitVec.ofNat 32 (r.cause * 2 ^ 16 + r.unit % 256 * 2 ^ 8 + r.die % 8 * 2 ^ 5 + b2n r.permanent * 16 + b2n r.injected * 8
      + r.cls),
    BitVec.ofNat 32 (min r.repeats 255 * 2 ^ 8 + b2n r.preempted * 128 + b2n r.superseded * 64 + b2n r.closed * 32
      + b2n r.storm * 16 + r.action),
    r.detail0, r.detail1, BitVec.ofNat 32 r.ns, lo32 r.seconds, hi32 r.seconds]

/-- Update the record in the log, if it is still there (R380). -/
def State.logRecord (s : State) (r : FaultRecord) : State :=
  { s with perim.log := s.perim.log.map fun x => if x.seq = r.seq then r else x }

/-- Enter a new record in the log; a full log loses its oldest record (R380, R386). -/
def State.logNew (s : State) (r : FaultRecord) : State :=
  let full := 1024 ≤ s.perim.log.length
  { s with
    perim.log := (if full then s.perim.log.tail else s.perim.log) ++ [r]
    perim.logLost := if full then satInc s.perim.logLost else s.perim.logLost
    perim.nextSeq := wrapAdd s.perim.nextSeq 1 }

/-- The place of a record in the queue: the storm record first, then by class, highest first, then by detection (R381). -/
def insertRecord (r : FaultRecord) : List FaultRecord → List FaultRecord
  | [] => [r]
  | x :: xs =>
    if r.storm || (!x.storm && (x.cls < r.cls || (x.cls = r.cls && r.seq < x.seq))) then r :: x :: xs
    else x :: insertRecord r xs

/-- Whether the unit a cause names is gone: retired, failed or excluded (R495). -/
def State.unitGone (s : State) (cause die unit : Nat) : Bool :=
  let d := s.die die
  d.retired
    || (cause = 0x0001 && d.facetFailed) || ((cause = 0x0004 || cause = 0x0005) && d.contourFailed)
    || (cause = 0x0006 && d.latticeFailed) || ((cause = 0x0003 || cause = 0x000C) && d.memFailed)
    || ((cause = 0x0010 || cause = 0x0011 || cause = 0x0012 || cause = 0x0013) && (s.lane (12 * die + unit % 12)).retired)
    || (cause = 0x0020 && (d.pow.sensors.getD unit Sensor.reset).excluded)
    || (cause = 0x0016 && (s.source unit).barred)

/-- The unit that a permanent fault fails (Table 15-6). -/
def State.failUnit (s : State) (cause die unit : Nat) (perm : Bool) : State :=
  let s := if perm && cause = 0x0016 then s.modSource unit fun x => { x with barred := true, valid := false } else s
  let s := s.modDie die fun d =>
    { d with
      facetFailed := d.facetFailed || (perm && cause = 0x0001)
      contourFailed := d.contourFailed || (perm && (cause = 0x0004 || cause = 0x0005))
      latticeFailed := d.latticeFailed || (perm && cause = 0x0006)
      memFailed := d.memFailed || (perm && (cause = 0x0003 || cause = 0x000C))
      crcFailed := d.crcFailed || cause = 0x0009
      comp.off := d.comp.off || cause = 0x0008 || (perm && cause = 0x0007) }
  if cause = 0x0009 ∨ cause = 0x0025 ∨ cause = 0x0026 ∨ (cause = 0x0015 ∧ perm) then { s with perim.permanent := true }
  else s

/-- The counts of Table 15-6, kept at detection: the count reached, and the state with it. -/
def State.countCause (s : State) (cause die : Nat) : Nat × State :=
  let s := s.modDie die fun d =>
    { d with
      facetCount := if cause = 0x0001 then satInc d.facetCount else d.facetCount
      clampCount := if cause = 0x0006 then satInc d.clampCount else d.clampCount
      verifyCount := if cause = 0x0007 then satInc d.verifyCount else d.verifyCount }
  let d := s.die die
  (if cause = 0x0001 then d.facetCount else if cause = 0x0006 then d.clampCount else d.verifyCount, s)

/-- The ledger cause of an entry into SAFE_DARK by a fault (Table 9-6). -/
def darkLedgerCause (cause : Nat) : Nat := if cause = 0x0013 then 0x08 else 0x09

/-- The hardware reaction of a class (Table 15-4), which takes place whatever the queue holds. -/
def State.react (s : State) (cause die unit cls : Nat) (perm : Bool) : State :=
  let s := s.failUnit cause die unit perm
  if cls = 3 then s.enterSafeDark (darkLedgerCause cause)
  else if cls = 4 then ({ s with perim.lastC4 := some (cause, die) }).enterHalted
  else s

/-- The stripe-pass a record of causes 0x0001-0x0005 concerns: the one its die renders, or the executing one (R495). -/
def State.recordAbout (s : State) (cause die : Nat) : Option (Nat × Nat) :=
  if cause = 0 ∨ 5 < cause then none
  else
    match (s.die die).tess.work with
    | some w => some w
    | none => s.executing?.map fun st => (st.id, st.pass)

/-- Whether the unit was gone and the device dark before the detection's own reaction. -/
structure Before where
  about : Option (Nat × Nat)
  gone : Bool
  dark : Bool
  deriving DecidableEq, Repr

def State.before (s : State) (cause die unit : Nat) : Before :=
  { about := s.recordAbout cause die, gone := s.unitGone cause die unit, dark := s.ctl.dev == .safeDark }

/-- A new record of a detection. -/
def State.newRecord (s : State) (cause die unit cls : Nat) (perm injected : Bool) (d0 d1 : Word) (b : Before) : FaultRecord :=
  { seq := s.perim.nextSeq, cause := cause, unit := unit, die := die, permanent := perm, injected := injected, cls := cls,
    repeats := 0, preempted := false, superseded := false, closed := false, storm := false,
    action := causeAction cause cls perm, detail0 := d0, detail1 := d1, ns := s.timeNs, seconds := s.timeSec,
    about := b.about, wasGone := b.gone, wasDark := b.dark, darks := s.perim.darks }

/-- Records in the handling queue, the active one included. -/
def State.queueDepth (s : State) : Nat := s.perim.waiting.length + (if s.perim.active.isSome then 1 else 0)

/-- A record enters the queue and the log: vector 2 (Table 2-2). -/
def State.enqueue (s : State) (r : FaultRecord) : State :=
  (({ s with perim.waiting := insertRecord r s.perim.waiting }).logNew r).signal 2

/-- A detection finds the queue full (R384): it is counted; the first one enters a storm record and SAFE_DARK. -/
def State.storm (s : State) (b : Before) : State :=
  let s := { s with perim.dropped := satInc s.perim.dropped }
  if s.perim.stormActive then s
  else
    let s := { s with perim.stormActive := true, perim.stormSeen := true }
    let (n, s) := s.draw
    let r := { s.newRecord 0x0021 0 0 3 false false (Config.freeWord n) 0 b with storm := true }
    (s.enqueue r).enterSafeDark 0x09

/-- Same source: die, cause and unit (R381). -/
def FaultRecord.same (r : FaultRecord) (cause die unit : Nat) : Bool := r.cause == cause && r.die == die && r.unit == unit

def FaultRecord.again (r : FaultRecord) : FaultRecord := { r with repeats := min (r.repeats + 1) 255 }

/-- Merge into the first queued record of the source (R382). -/
def mergeWaiting (cause die unit : Nat) : List FaultRecord → Option (FaultRecord × List FaultRecord)
  | [] => none
  | r :: rs =>
    if r.same cause die unit then some (r.again, r.again :: rs)
    else (mergeWaiting cause die unit rs).map fun x => (x.1, r :: x.2)

/-- Close the active record as superseded (R383). -/
def State.supersedeActive (s : State) : State :=
  match s.perim.active with
  | none => s
  | some (r, _) => ({ s with perim.active := none }).logRecord { r with superseded := true, closed := true }

/-- A detection (R379-R387): counted, its hardware reaction taken, then merged, promoted, queued or dropped in a storm. -/
def State.detect (s : State) (cause die unit : Nat) (d0 d1 : Word) : State :=
  let b := s.before cause die unit
  let activeSame := s.perim.active.any fun r => r.1.same cause die unit
  let (n, s) := if (causePermCount cause).isSome then s.countCause cause die else (0, s)
  let counted := match causePermCount cause with | some k => decide (k ≤ n) | none => false
  let promoted := activeSame && (causePermCount cause).isNone && (causePermClass cause).isSome
  let perm := causePermAtDetection cause || counted || promoted
  let cls := if perm then (causePermClass cause).getD (causeClass cause die) else causeClass cause die
  let s := s.react cause die unit cls perm
  let fresh := fun (s : State) =>
    if 32 ≤ s.queueDepth then s.storm b else s.enqueue (s.newRecord cause die unit cls perm false d0 d1 b)
  if perm then fresh (if activeSame then s.supersedeActive else s)
  else if activeSame then
    match s.perim.active with
    | some (r, k) => ({ s with perim.active := some (r.again, k) }).logRecord r.again
    | none => s
  else
    match mergeWaiting cause die unit s.perim.waiting with
    | some (r, ws) => ({ s with perim.waiting := ws }).logRecord r
    | none => fresh s

/-- A detection whose detail0 the spec leaves open: Table 15-5 names addresses, stripe ids, tile rows and packet rows, and the
cause concerns none of them. -/
def State.detectOpen (s : State) (cause die unit : Nat) (d1 : Word) : State :=
  let (n, s) := s.draw
  s.detect cause die unit (Config.freeWord n) d1

/-- A detection of a permanent source (POS_SOURCE promotion bars the source; Table 15-6) goes through detect; an injected one
only records (R399). -/
def State.detectInjected (s : State) (cause die unit : Nat) : State :=
  let b := s.before cause die unit
  let (n, s) := s.draw
  let r := s.newRecord cause die unit (causeClass cause die) false true (Config.freeWord n) 0 b
  if 32 ≤ s.queueDepth then { s with perim.dropped := satInc s.perim.dropped } else s.enqueue r

/-! ### Retirement (R218, R219, R244, R393, R394) -/

/-- The maximum shot rate has fallen below the rate of the pass that is being generated: Arc slows (01 R29, 12 R323). -/
def State.rateFell (s : State) : State :=
  match s.locus.gen, s.seq.stripes with
  | some _, st :: _ => if s.maxRate < st.rate && 0 < s.maxRate then s.slowTo s.maxRate else s
  | _, _ => s

/-- Shot period of the oldest stripe in ns. -/
def State.shotPeriodNs (s : State) : Nat := match s.seq.stripes with | st :: _ => 1000000 / max 1 st.rate | [] => 500

/-- The stripe whose pass is being generated while the gates are open. -/
def State.shooting (s : State) : Option Stripe :=
  if s.perim.gateClosed || s.locus.gen.isNone then none else s.seq.stripes.head?

/-- A change of the lane assignment (R219): entries close, the assignment left behind is kept for R246, and the epoch grows. -/
def State.nextEpoch (s : State) : State :=
  let s := s.closeEntries fun _ => true
  { s with
    seq.epochs := (s.ctl.epoch, s.laneMap) :: s.seq.epochs
    ctl.epoch := wrapAdd s.ctl.epoch 1 }

/-- R218 applied afresh to a die, unless it has lost so many lanes that one would carry more than R28's limit (R394). -/
def Die.reassign (l : Nat) (d : Die) : Die :=
  if 5 ≤ d.retiredLanes then { d with lanes := d.lanes.modify (l % 12) fun l => { l with groups := 0, firstGroup := 0 } }
  else d.assign

/-- A record of a retired lane that is past the time at which it could leave on another (R244). -/
def State.tooLate (s : State) (r : Rec) : Bool :=
  let crossed := (s.locus.gen.map (·.next)).getD 0
  r.shot < crossed + 2 || (r.shot = crossed + 2 && s.shotPeriodNs < 800)

/-- A lane is retired: its records not echoed are made again for the new lanes where they can still leave, else they are
LANE_LATE; the epoch grows and R218 applies afresh, except beyond R28's limit (R219, R244, R394). -/
def State.retireLane (s : State) (l : Nat) : State :=
  let old := s.lane l
  if old.retired then s
  else
    let lost := old.recs.filter fun r => !r.echoed && !r.committed
    let s := s.nextEpoch.modLane l fun x =>
      let drains := s.locus.gen.isSome && x.power == .l0
      let x := { x with
        retired := true, state := if drains then .draining else .retired, power := if drains then .l0 else .off }
      { x with
        frozen := s.laneWindow x, drainShot := s.latticeNext, elems := []
        echoes := if drains then x.echoes else []
        recs := (x.recs.filter fun r => r.echoed || r.committed).map fun r => if r.placed then r else r.lose }
    let s := s.modDie (l / 12) (Die.reassign l)
    let s := match s.shooting with
      | none => s
      | some st =>
        let remade := fun (r : Rec) => if s.tooLate r then none else s.remake st r
        let again := lost.filterMap remade
        let s := s.darkRecs st 0x03 (lost.filter fun r => (remade r).isNone) (some l)
        (s.queueRecs again).modDie (l / 12) fun d => { d with lat.regen := !again.isEmpty }
    (s.updateReplace.rateFell.signal 25).checkReserve

/-- A stripe-pass whose coarse pass has begun is stopped on every die: its work is discarded and its unwritten rows are lost
with the marker given (R186, R189); true marks DIE_RETIRED. -/
def Die.stopPass (id pass : Nat) (retired : Bool) (rows : Nat) (d : Die) : Die :=
  let mine := d.tess.work == some (id, pass)
  let ring := d.con.ringOf == some (id, pass)
  let have_ := (d.con.ra.filter fun b => b.stripe == id && b.pass == pass).map (·.ty)
  let shown := (d.lat.window.filter fun w => w.stripe == id && w.pass == pass).map fun w => w.y / 64
  let from_ := if ring || mine then d.con.next else 0
  let gone := ((List.range ((rows + 63) / 64)).filter fun ty => from_ ≤ ty && !have_.contains ty && !shown.contains ty).map
    fun ty => (id, pass, ty, retired)
  { d with
    tess := if mine then
        { d.tess with work := none, queue := [], tiles := [], counts := [], rerender := false, waitQueue := false
                      waitCoarse := false, waitRing := false, waitBlock := false }
      else d.tess
    con := { (if mine || ring then d.con.idle else d.con) with
      ringOf := if ring then none else d.con.ringOf
      ring := if ring then [] else d.con.ring
      fabric := d.con.fabric.filter fun f => !(wordAt f.2 0 == id && wordAt f.2 1 % 8 == pass)
      lost := d.con.lost ++ gone.filter fun l => !d.con.lost.contains l } }

/-- Passes whose coarse pass has begun and that are not complete. -/
def State.renderingPasses (s : State) : List (Nat × Nat) :=
  (s.dies.filterMap fun d => d.tess.work).dedup

/-- The records that Lattice has made for a die that retires: those committed may have fired and no report of them will come,
so they are REPORT_LOST, unconfirmed; the others are lost with the die (00 R7, R243; which entries they get DESIGN CHOICE,
notes/assumptions/49.md). -/
def State.loseDie (s : State) (d : Nat) : State :=
  match s.shooting with
  | none => s
  | some st =>
    let rs := (s.die d).lanes.flatMap fun l =>
      l.recs.filter fun r => r.stripe == st.id && r.pass == st.pass && !(l.fired.contains (r.shot % 65536))
    let crossed := (s.locus.gen.map (·.next)).getD 0
    let s := s.darkRecs st 0x06 (rs.filter (·.committed)) none
    s.darkRecs st 0x0D (rs.filter fun r => !r.committed && crossed ≤ r.shot) none

/-- Retirement of a die d > 0 (R393, R189, R409). -/
def State.retireDie (s : State) (d : Nat) : State :=
  if d = 0 || s.nDies ≤ d || (s.die d).retired then s
  else
    let s := (s.loseDie d).nextEpoch
    let s := s.renderingPasses.foldl (fun s w =>
      let rows := (s.stripe? w.1).elim 0 fun st => st.root.rows
      s.modDies (Die.stopPass w.1 w.2 true rows)) s
    let s := s.modDie d fun x =>
      { x with
        retired := true
        frozen := s.freezeDie x
        lanes := x.lanes.map fun l =>
          let x := { l with retired := true, state := .retired, power := .off }
          { x with frozen := if l.retired then l.frozen else s.laneWindow x
                   groups := 0, firstGroup := 0, recs := [], elems := [], echoes := [] } }
    let s := s.modDie d fun x => x.switchOff 0x78
    (s.updateReplace.rateFell.signal 25).checkReserve

/-- The fifth retired lane or the sixth excluded sensor of a die (R390, R392, R394). -/
def State.checkDie (s : State) (d : Nat) : State :=
  let x := s.die d
  if x.retired || s.nDies ≤ d || !(5 ≤ x.retiredLanes || 6 ≤ x.excluded) then s
  else if d = 0 then
    if s.perim.die0Exhausted then s
    else (({ s with perim.die0Exhausted := true }).detectOpen 0x0024 0 0 0).updateReplace
  else s.detectOpen 0x0024 d 0 0

end Sys2Proof.Machine
end

