-- ==== Sys2Proof/Machine/Dgs.lean ====
section
/-! DEFINITION. The Dagrim Geometry Stream: blocks, records, libraries, staging areas and the stripe header section
(05_geometry_stream.md R118-R149). -/

namespace Sys2Proof.Machine

/-! ### Blocks (R118-R121) -/

/-- A field of n bytes (n at most 6) at a byte offset, little-endian. -/
def fld (ws : List Word) (off n : Nat) : Nat :=
  let i := off / 4
  (wordAt ws i + wordAt ws (i + 1) * 2 ^ 32 + wordAt ws (i + 2) * 2 ^ 64) / 2 ^ (8 * (off % 4)) % 2 ^ (8 * n)

def sfld (ws : List Word) (off n : Nat) : Int := signed (8 * n) (fld ws off n)

/-- A block as it arrives: its header fields, its payload words, and whether it passes R120 for a stream kind. -/
structure RawBlock where
  seq : Nat
  lib : Nat
  good : Bool
  payload : List Word
  deriving DecidableEq, Repr

/-- The first n words of an operand; what it does not list is 0. -/
def takeWords (ws : List Word) (n : Nat) : List Word := ws.take n ++ List.replicate (n - ws.length) 0

/-- The seed of a block's check value (R119). -/
def dgsSeed (lib seq : Nat) : Word := 0xFFFFFFFF ^^^ BitVec.ofNat 32 lib ^^^ lo32 seq ^^^ hi32 seq

/-- A block of 65,536 bytes checked under R120 for kind 0 (library) or 1 (stripe). -/
def rawBlock (kind : Nat) (ws : List Word) : RawBlock :=
  let len := wordAt ws 5
  let seq := word64 ws 2
  let lib := wordAt ws 4
  let shape := wordAt ws 0 == 0x31534744 && wordAt ws 1 == kind * 256 + 1 && wordAt ws 6 == 0 && len % 8 == 0
    && decide (len ≤ 65504)
  let payload := if shape then takeWords (ws.drop 8) (len / 4) else []
  { seq := seq, lib := lib, payload := payload
    good := shape && wordAt ws 7 == (crcWords (dgsSeed lib seq) (takeWords ws 7 ++ payload)).toNat }

/-! ### Records (R122-R126) -/

/-- Cause codes (Table 5-7). -/
def dgsBlockCheck : Nat := 0x01
def dgsBlockSeq : Nat := 0x02
def dgsBlockLength : Nat := 0x03
def dgsRecordType : Nat := 0x04
def dgsRecordLength : Nat := 0x05
def dgsReserved : Nat := 0x06
def dgsGeometry : Nat := 0x07
def dgsCoordRange : Nat := 0x08
def dgsCellNesting : Nat := 0x09
def dgsDuplicate : Nat := 0x0A
def dgsUndefined : Nat := 0x0B
def dgsDepth : Nat := 0x0C
def dgsOrder : Nat := 0x0D
def dgsCover : Nat := 0x0E
def dgsMismatch : Nat := 0x0F
def dgsBlockRange : Nat := 0x10
def dgsActive : Nat := 0x11
def dgsCellLimit : Nat := 0x12

/-- STRIPE_ROOT's fields. -/
structure RootRec where
  stripe : Nat
  lib : Nat
  rows : Nat
  sx : Int
  sy : Int
  firstBlock : Nat
  blocks : Nat
  streamBlocks : Nat
  deriving DecidableEq, Repr

/-- A record (Table 5-3). -/
inductive DgsRec where
  | cellBegin (id : Nat)
  | cellEnd
  | prim (p : Prim)
  | place (p : Place)
  | doseClass (c : Nat)
  | combine (additive : List Nat)
  | root (r : RootRec)
  | complexity (first b : Nat) (entries : List SegBound)
  deriving DecidableEq, Repr

/-- What parsing finds: a cause of Table 5-7, or a value. -/
inductive Parsed (α : Type) where
  | bad (cause : Nat)
  | good (a : α)
  deriving DecidableEq, Repr

def ptAt (ws : List Word) (off : Nat) : Pt := { x := sfld ws off 4, y := sfld ws (off + 4) 4 }

/-- The segments of a PATH from its points (R124). -/
def pathSegs (ws : List Word) (kinds : Nat) : Nat → Nat → Nat → List PathSeg
  | 0, _, _ => []
  | m + 1, i, off =>
    if bit kinds i then { control := some (ptAt ws off), stop := ptAt ws (off + 8) } :: pathSegs ws kinds m (i + 1) (off + 16)
    else { control := none, stop := ptAt ws off } :: pathSegs ws kinds m (i + 1) (off + 8)

def onesIn (v n : Nat) : Nat := ((List.range n).filter (bit v)).length

/-- dd of a quadratic segment (R158). -/
def bezierDd (p0 p1 p2 : Pt) : Nat := (p0.x - 2 * p1.x + p2.x).natAbs + (p0.y - 2 * p1.y + p2.y).natAbs

/-- Every quadratic segment needs at most 1,024 pieces (R159). -/
def pathFlat : Pt → List PathSeg → Bool
  | _, [] => true
  | p, s :: rest => (match s.control with | none => true | some c => decide (bezierDd p c s.stop ≤ 16777216)) && pathFlat s.stop rest

/-- The bits of COMBINE's additive field that are set. -/
def additiveClasses (ws : List Word) : List Nat := (List.range 256).filter fun c => bit (fld ws (8 + c / 8) 1) (c % 8)

def segBound (ws : List Word) (b off : Nat) : SegBound :=
  { active := fld ws off 4, blocks := (List.range b).map fun k => (fld ws (off + 8 + 8 * k) 4, fld ws (off + 12 + 8 * k) 4) }

/-- Length in 8-byte words that the content gives (Table 5-2), or none for an unknown type. -/
def recLength (ty : Nat) (ws : List Word) : Option Nat :=
  match ty with
  | 0x01 | 0x02 | 0x30 => some 1
  | 0x10 | 0x20 => some 3
  | 0x11 | 0x21 => some 4
  | 0x12 => some (1 + fld ws 4 2)
  | 0x13 => some (3 + fld ws 4 2 + onesIn (fld ws 8 4 + fld ws 12 4 * 2 ^ 32) 64)
  | 0x14 => some 2
  | 0x31 | 0x40 => some 5
  | 0x41 => some (2 + fld ws 8 2 * (1 + fld ws 10 1))
  | _ => none

/-- Reserved bytes of a record, as (offset, size), and its defined flag bits. -/
def recReserved (ty : Nat) (ws : List Word) : List (Nat × Nat) × Nat :=
  match ty with
  | 0x02 => ([(4, 4)], 0)
  | 0x10 => ([(20, 4)], 0)
  | 0x11 => ([(28, 4)], 1)
  | 0x12 | 0x13 => ([(6, 2)], 1)
  | 0x20 => ([(20, 4)], 7)
  | 0x21 => ([], 7)
  | 0x30 => ([(5, 3)], 0)
  | 0x31 => ([(4, 4)], 0)
  | 0x40 => ([(30, 2), (36, 4)], 0)
  | 0x41 => ([(11, 1), (12, 4)] ++ (List.range (fld ws 8 2)).map fun e => (20 + e * (8 + 8 * fld ws 10 1), 4), 0)
  | _ => ([], 0)

def reservedOk (ty flags : Nat) (ws : List Word) : Bool :=
  let r := recReserved ty ws
  r.1.all (fun x => fld ws x.1 x.2 == 0) && (flags == flags % (r.2 + 1))
    && (ty != 0x13 || (fld ws 8 4 + fld ws 12 4 * 2 ^ 32) / 2 ^ fld ws 4 2 == 0)

/-- The fields of a record whose type, length and reserved fields are right; none for a breach of Table 5-3 (R125). -/
def recFields (ty flags : Nat) (ws : List Word) : Option DgsRec :=
  match ty with
  | 0x01 => if fld ws 4 4 = 0xFFFFFFFF then none else some (.cellBegin (fld ws 4 4))
  | 0x02 => some .cellEnd
  | 0x10 =>
    let x0 := sfld ws 4 4
    let y0 := sfld ws 8 4
    let x1 := sfld ws 12 4
    let y1 := sfld ws 16 4
    if x0 < x1 ∧ y0 < y1 then some (.prim (.rect x0 y0 x1 y1)) else none
  | 0x11 =>
    let y0 := sfld ws 4 4
    let y1 := sfld ws 8 4
    let xl0 := sfld ws 12 4
    let xr0 := sfld ws 16 4
    let xl1 := sfld ws 20 4
    let xr1 := sfld ws 24 4
    if y0 < y1 ∧ xl0 ≤ xr0 ∧ xl1 ≤ xr1 ∧ (xl0 < xr0 ∨ xl1 < xr1) then
      some (.prim (.trap (flags == 1) y0 y1 xl0 xr0 xl1 xr1))
    else none
  | 0x12 =>
    let n := fld ws 4 2
    if 3 ≤ n ∧ n ≤ 64 then some (.prim (.poly (flags == 1) ((List.range n).map fun i => ptAt ws (8 + 8 * i)))) else none
  | 0x13 =>
    let m := fld ws 4 2
    let start := ptAt ws 16
    let segs := pathSegs ws (fld ws 8 4 + fld ws 12 4 * 2 ^ 32) m 0 24
    if 2 ≤ m ∧ m ≤ 64 ∧ (segs.getLast?.map (·.stop)) = some start ∧ pathFlat start segs = true then
      some (.prim (.path (flags == 1) start segs))
    else none
  | 0x14 => if fld ws 12 4 = 0 then none else some (.prim (.disc (ptAt ws 4) (fld ws 12 4)))
  | 0x20 =>
    some (.place { orient := flags, cell := fld ws 4 4, ox := sfld ws 8 6, oy := sfld ws 14 6, nx := 1, ny := 1, px := 0, py := 0 })
  | 0x21 =>
    let nx := fld ws 20 2
    let ny := fld ws 22 2
    let px := sfld ws 24 4
    let py := sfld ws 28 4
    if nx = 0 ∨ ny = 0 ∨ px = 0 ∨ py = 0 then none
    else
      some (.place { orient := flags, cell := fld ws 4 4, ox := sfld ws 8 6, oy := sfld ws 14 6, nx := nx, ny := ny, px := px,
                     py := py })
  | 0x30 => some (.doseClass (fld ws 4 1))
  | 0x31 => some (.combine (additiveClasses ws))
  | 0x40 =>
    let r : RootRec := { stripe := fld ws 4 4, lib := fld ws 8 4, rows := fld ws 12 4, sx := sfld ws 16 6, sy := sfld ws 22 6,
                         firstBlock := fld ws 28 1, blocks := fld ws 29 1, streamBlocks := fld ws 32 4 }
    if 1 ≤ r.rows ∧ r.rows ≤ 2147418112 ∧ 1 ≤ r.blocks ∧ r.blocks ≤ 8 ∧ 1 ≤ r.streamBlocks then some (.root r) else none
  | 0x41 =>
    let n := fld ws 8 2
    let b := fld ws 10 1
    if n = 0 then none
    else some (.complexity (fld ws 4 4) b ((List.range n).map fun e => segBound ws b (16 + e * (8 + 8 * b))))
  | _ => none

/-- The record at the head of the payload words left: its length in 8-byte words and its content. The causes are found in the
order type, length, reserved fields, geometry. `allowed` gives the cause of a type that the context refuses. -/
def parseRec (allowed : Nat → Option Nat) (ws : List Word) : Parsed (Nat × DgsRec) :=
  let h := wordAt ws 0
  let ty := h % 256
  let len := h / 2 ^ 16
  match recLength ty ws with
  | none => .bad dgsRecordType
  | some want =>
    match allowed ty with
    | some c => .bad c
    | none =>
      if len = 0 ∨ len ≠ want ∨ ws.length < 2 * len then .bad dgsRecordLength
      else if !reservedOk ty (h / 256 % 256) ws then .bad dgsReserved
      else
        match recFields ty (h / 256 % 256) ws with
        | none => .bad dgsGeometry
        | some r => .good (len, r)

/-! ### Orientations and extents (R127-R129) -/

/-- Table 5-4. -/
def Pt.orient (o : Nat) (p : Pt) : Pt :=
  let p : Pt := if o / 4 % 2 = 1 then { p with y := -p.y } else p
  match o % 4 with
  | 0 => p
  | 1 => { x := -p.y, y := p.x }
  | 2 => { x := -p.x, y := -p.y }
  | _ => { x := p.y, y := -p.x }

/-- The composite of o2 placed inside o1 (R128). -/
def orientCompose (o1 o2 : Nat) : Nat :=
  let m1 := o1 / 4 % 2
  let k := if m1 = 0 then (o1 % 4 + o2 % 4) % 4 else (o1 % 4 + 4 - o2 % 4) % 4
  4 * ((m1 + o2 / 4 % 2) % 2) + k

def Box.union (a b : Box) : Box := { x0 := min a.x0 b.x0, y0 := min a.y0 b.y0, x1 := max a.x1 b.x1, y1 := max a.y1 b.y1 }

def Box.join (a : Option Box) (b : Box) : Option Box := some (match a with | none => b | some a => a.union b)

def Pt.box (p : Pt) : Box := { x0 := p.x, y0 := p.y, x1 := p.x, y1 := p.y }

def boxOf (ps : List Pt) : Option Box := ps.foldl (fun b p => Box.join b p.box) none

def Box.corners (b : Box) : List Pt :=
  [{ x := b.x0, y := b.y0 }, { x := b.x1, y := b.y0 }, { x := b.x0, y := b.y1 }, { x := b.x1, y := b.y1 }]

def Box.shift (b : Box) (x y : Int) : Box := { x0 := b.x0 + x, y0 := b.y0 + y, x1 := b.x1 + x, y1 := b.y1 + y }

/-- A box mapped by an orientation. -/
def Box.orient (o : Nat) (b : Box) : Box := (boxOf (b.corners.map (Pt.orient o))).getD b

/-- Points that bound a primitive (R129). -/
def Prim.points : Prim → List Pt
  | .rect x0 y0 x1 y1 => [{ x := x0, y := y0 }, { x := x1, y := y1 }]
  | .trap axis y0 y1 xl0 xr0 xl1 xr1 =>
    let ps : List Pt := [{ x := xl0, y := y0 }, { x := xr0, y := y0 }, { x := xl1, y := y1 }, { x := xr1, y := y1 }]
    if axis then ps.map fun p => { x := p.y, y := p.x } else ps
  | .poly _ ps => ps
  | .path _ start segs => start :: segs.flatMap fun s => (match s.control with | none => [] | some c => [c]) ++ [s.stop]
  | .disc c r => [{ x := c.x - r, y := c.y - r }, { x := c.x + r, y := c.y + r }]

def findCell (cells : List Cell) (id : Nat) : Option Cell := cells.find? fun c => c.id == id

/-- The mapped extent of every instance of a placement (R129); none for a cell without extent. -/
def Place.extent (cells : List Cell) (p : Place) : Option Box :=
  match findCell cells p.cell with
  | none => none
  | some c =>
    match c.extent with
    | none => none
    | some e =>
      let b := (e.orient p.orient).shift p.ox p.oy
      some (b.union (b.shift (((p.nx : Int) - 1) * p.px) (((p.ny : Int) - 1) * p.py)))

def inS32 (v : Int) : Bool := decide (-(2 ^ 31) ≤ v) && decide (v < 2 ^ 31)

def Box.inS32 (b : Box) : Bool := Machine.inS32 b.x0 && Machine.inS32 b.y0 && Machine.inS32 b.x1 && Machine.inS32 b.y1

/-! ### Libraries (R130-R134) -/

/-- Contexts of a library stream (Table 5-2, R130). -/
def libAllowed (inCell : Bool) (ty : Nat) : Option Nat :=
  if ty = 0x01 then (if inCell then some dgsCellNesting else none)
  else if ty = 0x02 then (if inCell then none else some dgsCellNesting)
  else if ty = 0x31 ∨ ty = 0x40 ∨ ty = 0x41 then some dgsRecordType
  else if inCell then none else some dgsRecordType

/-- Where a load stands while its records are read. -/
structure LibBuild where
  cells : List Cell
  cell : Option Cell
  cls : Nat
  bytes : Nat
  deriving DecidableEq, Repr

/-- One record of a library stream (R130, R126, R129, R134). -/
def LibBuild.record (l : LibBuild) (len : Nat) (r : DgsRec) : Parsed LibBuild :=
  match r, l.cell with
  | .cellBegin id, _ =>
    if l.cells.any fun c => c.id == id then .bad dgsDuplicate
    else if 4194304 ≤ l.cells.length then .bad dgsCellLimit
    else .good { l with cell := some { id := id, prims := [], places := [], marks := [], extent := none, depth := 1 }, cls := 0, bytes := 8 }
  | _, none => .bad dgsRecordType
  | r, some c =>
    let l := { l with bytes := l.bytes + 8 * len }
    if 2 ^ 28 < l.bytes then .bad dgsCellLimit
    else
      match r with
      | .cellEnd =>
        if (match c.extent with | none => false | some e => !e.inS32) then .bad dgsCoordRange
        else if 16 < c.depth then .bad dgsDepth
        else .good { l with cells := l.cells ++ [c], cell := none }
      | .doseClass k => .good { l with cls := k }
      | .prim p =>
        .good { l with cell := some { c with
          prims := c.prims ++ [(l.cls, p)]
          marks := c.marks ++ [true]
          extent := match boxOf p.points with | none => c.extent | some b => Box.join c.extent b } }
      | .place p =>
        match findCell l.cells p.cell with
        | none => .bad dgsUndefined
        | some q =>
          if !inS32 p.ox || !inS32 p.oy then .bad dgsCoordRange
          else
            .good { l with cell := some { c with
              places := c.places ++ [p], marks := c.marks ++ [false], depth := max c.depth (q.depth + 1)
              extent := match p.extent l.cells with | none => c.extent | some b => Box.join c.extent b } }
      | .cellBegin _ | .combine _ | .root _ | .complexity _ _ _ => .bad dgsRecordType

/-- The records of a block, to its end or to the first format error (cause, offset). The fuel is the payload's 8-byte words. -/
def LibBuild.block : Nat → Nat → List Word → LibBuild → (Nat × Nat) ⊕ LibBuild
  | 0, _, _, l => .inr l
  | fuel + 1, off, ws, l =>
    if ws.isEmpty then .inr l
    else
      match parseRec (libAllowed l.cell.isSome) ws with
      | .bad c => .inl (c, off)
      | .good (len, r) =>
        match l.record len r with
        | .bad c => .inl (c, off)
        | .good l => l.block fuel (off + 8 * len) (ws.drop (2 * len))

/-- Bytes a library occupies on every die (R134). -/
def Library.bytes (l : Library) : Nat := l.payload + 32 * l.cells.length

def State.libUsed (s : State) : Nat := (s.libs.map Library.bytes).sum

/-- The library space of a die in bytes with a render-ahead size in MiB (R134). -/
def Die.libSpace (d : Die) (raMib : Nat) : Int := (d.mem.capacity : Int) * 2 ^ 30 - raMib * 2 ^ 20 - 2 ^ 29

/-- Whether the libraries fit on every non-retired die. -/
def State.libFits (s : State) : Bool :=
  s.dies.all fun d => d.retired || decide ((s.libUsed : Int) ≤ d.libSpace d.con.raMib)

/-- DGS_LIB_FREE in MiB. -/
def State.libFree (s : State) : Nat :=
  (((s.dies.filter (!·.retired)).map fun d => Int.toNat (d.libSpace d.con.raMib - (s.libUsed : Int)) / 2 ^ 20).min?).getD 0

/-- A load ends without success: no trace of it is left (R131). -/
def State.failLoad (s : State) (id : Nat) (c : Ctx) (status : Nat) (res : List Nat) : State :=
  ({ s with libs := s.libs.filter fun (l : Library) => l.id != id }).final c status res

/-- A load that has read its whole list ends (R132). -/
def State.endLoad (s : State) (id : Nat) : State :=
  match s.libs.find? fun l => l.id == id with
  | none => s
  | some l =>
    match l.load with
    | none => s
    | some d =>
      if d.next < d.total then s
      else
        match d.badEntry with
        | some e => s.failLoad id d.ctx badParam [d.next, 0, 0, e, 0]
        | none =>
          if d.partBlock then s.failLoad id d.ctx geoFormat [d.next, d.next % 2 ^ 32, d.next / 2 ^ 32, 0xFFFFFFFF, dgsBlockLength]
          else if d.cell.isSome then
            s.failLoad id d.ctx geoFormat [d.next, (d.next - 1) % 2 ^ 32, (d.next - 1) / 2 ^ 32, 0xFFFFFFFF, dgsCellNesting]
          else
            ({ s with libs := s.libs.map fun (x : Library) => if x.id = id then { x with load := none } else x }).final d.ctx ok
              [d.next, (d.next - 1) % 2 ^ 32, (d.next - 1) / 2 ^ 32]

/-- The bytes of a scatter-gather list of n entries up to the first entry that breaks R131, and that entry. -/
def sgTotal : Nat → Nat → Nat → List Word → Nat × Option Nat
  | 0, _, total, _ => (total, none)
  | n + 1, i, total, ws =>
    let len := wordAt ws 2
    if len = 0 ∨ 16777216 < len ∨ wordAt ws 3 ≠ 0 then (total, some i) else sgTotal n (i + 1) (total + len) (ws.drop 4)

/-- LIB_LOAD (R131, R132). The outside data is the scatter-gather list. -/
def libLoadBody (env : List Word) (p : Packet) (c : Ctx) (s : State) : State :=
  let id := p.param 0
  if id = 0 ∨ id = 0xFFFFFFFF ∨ p.param 3 = 0 then s.finish c badParam []
  else if s.libs.any fun l => l.id == id then s.finish c libExists []
  else if 64 ≤ s.libs.length then s.finish c queueFull []
  else
    let t := sgTotal (p.param 3) 0 0 env
    let load : Load := { ctx := c, next := 0, total := t.1 / 65536, partBlock := t.1 % 65536 != 0, badEntry := t.2, cell := none,
                         cls := 0, bytes := 0 }
    (({ (s.interim c ok []).hostRead (4 * env.length) with
      libs := s.libs ++ [{ id := id, cells := [], payload := 0, load := some load }] } : State)).endLoad id

/-- LIB_BLOCK_RECEIVED (R131-R134): the next block of a load. -/
def execLibBlockReceived (lib : Nat) (block : List Word) (s : State) : Res :=
  .next (match s.libs.find? fun l => l.id == lib with
  | none => s
  | some l =>
    match l.load with
    | none => s
    | some d =>
      if d.total ≤ d.next || !s.running then s
      else
        let b := rawBlock 0 block
        let s := s.hostRead 65536
        let fail := fun (seq off cause : Nat) => s.failLoad lib d.ctx geoFormat [d.next, seq % 2 ^ 32, seq / 2 ^ 32, off, cause]
        if !b.good || b.lib != lib then fail b.seq 0xFFFFFFFF dgsBlockCheck
        else if b.seq ≠ d.next then fail b.seq 0xFFFFFFFF dgsBlockSeq
        else
          match LibBuild.block (b.payload.length + 1) 0 b.payload
              { cells := l.cells, cell := d.cell, cls := d.cls, bytes := d.bytes } with
          | .inl (cause, off) => fail b.seq off cause
          | .inr r =>
            let l := { l with
              cells := r.cells, payload := l.payload + 4 * b.payload.length
              load := some { d with next := d.next + 1, cell := r.cell, cls := r.cls, bytes := r.bytes } }
            let s := { s with libs := s.libs.map fun (x : Library) => if x.id = lib then l else x }
            if !s.libFits then s.failLoad lib d.ctx libSpace [d.next, b.seq % 2 ^ 32, b.seq / 2 ^ 32, 0xFFFFFFFF, 0]
            else s.endLoad lib)

/-- Whether a stripe names a library: admitted, or bound with a staged block of it (R133). -/
def State.libNamed (s : State) (id : Nat) : Bool :=
  (s.seq.stripes.any fun st => st.root.lib == id)
    || s.areas.any fun a => a.bound.isSome && (a.blocks.any fun b => b.lib == id)

/-- LIB_DROP (R133). -/
def libDropBody (p : Packet) (c : Ctx) (s : State) : State :=
  let id := p.param 0
  match s.libs.find? fun l => l.id == id with
  | none => s.finish c libUnknown []
  | some l =>
    if l.load.isSome || s.libNamed id then s.finish c libInUse []
    else ({ s with libs := s.libs.filter fun (x : Library) => x.id != id }).finish c ok []

/-- CFG_RENDER_AHEAD (R135): 64 to 2,048 MiB in steps of 64. -/
def cfgRenderAheadBody (p : Packet) (c : Ctx) (s : State) : State :=
  let size := p.param 0
  if size < 64 || 2048 < size || size % 64 != 0 then s.finish c badParam []
  else if !s.seq.stripes.isEmpty then s.finish c wrongState []
  else
    let hit := fun (d : Die) => !d.retired && (p.isDev || d.id == p.target)
    let fits := fun (mib : Nat) => s.dies.all fun d => !hit d || decide ((s.libUsed : Int) ≤ d.libSpace mib)
    if fits size then
      (s.modDies fun d => if hit d then { d with con := { d.con with raMib := size, ra := [], raPut := 0 } } else d).finish c ok [size]
    else
      s.finish c libSpace [64 * (((List.range 33).filter fun k => 0 < k && fits (64 * k)).getLast?.getD 0)]

/-! ### Staging (R136, R137, R143-R146) -/

/-- GEO_BIND (R144, 03 R74). -/
def geoBindBody (p : Packet) (c : Ctx) (s : State) : State :=
  let ch := p.param 1 % 8
  match s.dmaD[ch]? with
  | none => s.finish c badParam []
  | some d =>
    if d.firmware then s.finish c badParam []
    else if d.bound.isSome then s.finish c dmaChannelBusy []
    else
      match s.areas.findIdx? fun a => a.bound.isNone with
      | none => s.finish c stagingFull []
      | some i =>
        let first := p.param64 2
        let s := { s with
          areas := s.areas.set i { Area.reset with
            bound := some (p.param 0), channel := ch, first := first, lowest := first, expect := first }
          dmaD := s.dmaD.modify ch fun (d : DmaD) =>
            { d with bound := some (p.param 0), state := if d.state = DmaState.waitBind then DmaState.active else d.state } }
        s.finish c ok []

/-- The record sequence that Tessera and the header check read: staged blocks in sequence order. -/
def Area.block? (a : Area) (seq : Nat) : Option Block := a.blocks.find? fun b => b.seq == seq

/-- The first record of the stream, if it is staged and a STRIPE_ROOT. -/
def Area.root? (a : Area) : Option RootRec :=
  match a.block? a.first with
  | none => none
  | some b =>
    match parseRec (fun _ => none) b.payload with
    | .good (_, .root r) => some r
    | _ => none

/-- What reading a header section finds: not complete in staging, a format error, or the header with the place where the body
begins: block and offset. -/
inductive Header where
  | missing
  | bad (cause seq off : Nat)
  | good (r : Root) (seq off : Nat)
  deriving DecidableEq, Repr

/-- The header section as read so far. -/
structure HeadBuild where
  root : Option RootRec
  combine : Bool
  additive : List Nat
  segs : List SegBound
  deriving DecidableEq, Repr

def RootRec.segments (r : RootRec) : Nat := (r.rows + 255) / 256

def HeadBuild.complete (h : HeadBuild) : Bool :=
  match h.root with | none => false | some r => !h.segs.isEmpty && h.segs.length == r.segments

/-- Contexts of the header section: types of a library stream are out of context. -/
def headAllowed (ty : Nat) : Option Nat :=
  if ty ∈ [0x20, 0x21, 0x31, 0x40, 0x41] then none else some dgsRecordType

/-- One record of the header section (R136, R137): STRIPE_ROOT is held against the libraries installed and against those that
the headers of the staged blocks name. -/
def HeadBuild.record (h : HeadBuild) (dies bound : Nat) (blockLibs libs : List Nat) (r : DgsRec) : Parsed HeadBuild :=
  match h.root, r with
  | none, .root q =>
    if q.stripe ≠ bound ∨ blockLibs.any (· != q.lib) ∨ !libs.contains q.lib then .bad dgsMismatch
    else if dies < q.firstBlock + q.blocks then .bad dgsBlockRange
    else .good { h with root := some q }
  | none, _ => .bad dgsOrder
  | some _, .combine a => if h.combine || !h.segs.isEmpty then .bad dgsOrder else .good { h with combine := true, additive := a }
  | some q, .complexity first b es =>
    if b ≠ q.blocks then .bad dgsGeometry
    else if first ≠ h.segs.length ∨ q.segments < first + es.length then .bad dgsCover
    else .good { h with segs := h.segs ++ es }
  | some _, .place _ => if h.segs.isEmpty then .bad dgsOrder else .bad dgsCover
  | some _, _ => .bad dgsOrder

/-- The header records of one block: an error with its offset, the offset where the body begins, or the block's end. -/
def HeadBuild.block (dies bound : Nat) (blockLibs libs : List Nat) :
    Nat → Nat → List Word → HeadBuild → (Nat × Nat) ⊕ (HeadBuild × Option Nat)
  | 0, _, _, h => .inr (h, none)
  | fuel + 1, off, ws, h =>
    if ws.isEmpty then .inr (h, none)
    else if h.complete && (wordAt ws 0 % 256 == 0x20 || wordAt ws 0 % 256 == 0x21) then .inr (h, some off)
    else
      match parseRec headAllowed ws with
      | .bad c => .inl (c, off)
      | .good (len, r) =>
        match h.record dies bound blockLibs libs r with
        | .bad c => .inl (c, off)
        | .good h => HeadBuild.block dies bound blockLibs libs fuel (off + 8 * len) (ws.drop (2 * len)) h

def HeadBuild.header (h : HeadBuild) (r : RootRec) : Root :=
  { stripe := r.stripe, lib := r.lib, rows := r.rows, sx := r.sx, sy := r.sy, firstBlock := r.firstBlock, blocks := r.blocks,
    streamBlocks := r.streamBlocks, additive := h.additive, segs := h.segs }

/-- Read the header section block by block from a sequence; the body begins behind the COMPLEXITY record that completes it. The fuel is the number of staged blocks and one. -/
def Area.headFrom (a : Area) (dies : Nat) (libs : List Nat) : Nat → Nat → HeadBuild → Header
  | 0, _, _ => .missing
  | fuel + 1, seq, h =>
    let stop : Bool := match h.root with | some r => decide (a.first + r.streamBlocks ≤ seq) | none => false
    if stop then
      .bad (if h.segs.isEmpty then dgsOrder else dgsCover) (seq - 1) 0xFFFFFFFF
    else
      match a.block? seq with
      | none => .missing
      | some b =>
        if h.root.isNone && b.payload.isEmpty then .bad dgsOrder seq 0
        else
          match HeadBuild.block dies (a.bound.getD 0) (a.blocks.map (·.lib)) libs (b.payload.length + 1) 0 b.payload h with
          | .inl (c, off) => .bad c seq off
          | .inr (h, some off) =>
            (match h.root with | some r => .good (h.header r) seq off | none => .missing)
          | .inr (h, none) =>
            (match h.root with
            | some r => if h.complete then .good (h.header r) (seq + 1) 0 else a.headFrom dies libs fuel (seq + 1) h
            | none => a.headFrom dies libs fuel (seq + 1) h)

/-- The header section of an area's stream (R136, R137). -/
def State.header (s : State) (a : Area) : Header :=
  a.headFrom s.nDies ((s.libs.filter fun l => l.load.isNone).map (·.id)) (a.blocks.length + 2) a.first
    { root := none, combine := false, additive := [], segs := [] }

/-- Record what the header check finds in the area (Table 5-8). -/
def State.checkHeader (s : State) (a : Area) : Area :=
  match s.header a with
  | .missing => a
  | .bad c _ _ => { a with cause := c, root := none }
  | .good r _ _ => { a with root := some r, cause := 0 }

/-- The first sequence beyond the stream, once it is known (R145 case 2): one delivery, or one for each pass (R143). -/
def State.streamEnd (s : State) (a : Area) : Option Nat :=
  match a.root? with
  | none => none
  | some r =>
    if r.streamBlocks ≤ 2048 then some (a.first + r.streamBlocks)
    else
      match s.seq.stripes.find? fun st => some st.id == a.bound with
      | none => none
      | some st => some (a.first + r.streamBlocks * st.passes.length)

/-- What becomes of a complete block (R145): cases 1 to 5. -/
def State.stageBlock (s : State) (a : Area) (b : RawBlock) : Area :=
  let slot := fun (q : Nat) => (q - a.first) % 2048
  let live := a.blocks.filter fun x => a.lowest ≤ x.seq
  if !b.good || (match a.root? with | some r => b.lib != r.lib | none => false) then { a with bad := satInc a.bad }
  else if b.seq < a.lowest || (match s.streamEnd a with | some e => decide (e ≤ b.seq) | none => false) then
    { a with discard := satInc a.discard }
  else if live.any fun x => x.seq == b.seq then { a with discard := satInc a.discard }
  else
    let blk : Block := { seq := b.seq, lib := b.lib, payload := b.payload }
    if live.any fun x => slot x.seq == slot b.seq && x.seq < b.seq then { a with held := some blk }
    else
      let kept := a.blocks.filter fun x => !(decide (a.lowest ≤ x.seq) && slot x.seq == slot b.seq)
      let a := { a with blocks := kept ++ [blk], waiting := a.waiting && b.seq != a.expect }
      if a.root.isNone then s.checkHeader a else a

/-- An area takes a block: where it was the missing one, Tessera resumes on every die (R146). -/
def State.putArea (s : State) (i : Nat) (a : Area) : State :=
  let resumes := !a.waiting && (s.areas[i]?.any fun b => b.waiting)
  let s := { s with
    areas := s.areas.set i a
    dmaD := s.dmaD.modify a.channel fun d => { d with paused := a.held.isSome } }
  if resumes then s.modDies fun d => if d.retired then d else { d with tess.waitBlock := false } else s

/-- STAGING_BLOCK_ARRIVAL (R145, R137): the 65,536 bytes that the bound channel's bursts have assembled. -/
def execStagingBlockArrival (area : Nat) (s : State) : Res :=
  .next (match s.areas[area]? with
  | none => s
  | some a =>
    if a.bound.isNone || a.held.isSome || a.bytes.length < 65536 || !s.running then s
    else
      s.putArea area (s.stageBlock { a with bytes := [] } (rawBlock 1 (bytesWords a.bytes))))

/-- Slots below a sequence are released: a block that waited takes its slot and its channel goes on (R145). The records of
released blocks that Tessera still holds stay with the area. -/
def State.releaseBlocks (s : State) (i seq : Nat) : State :=
  match s.areas[i]? with
  | none => s
  | some a =>
    if seq ≤ a.lowest then s
    else
      let a := { a with lowest := seq }
      match a.held with
      | none => { s with areas := s.areas.set i a }
      | some b =>
        if a.blocks.any fun x => a.lowest ≤ x.seq && (x.seq - a.first) % 2048 == (b.seq - a.first) % 2048 && x.seq < b.seq then
          { s with areas := s.areas.set i a }
        else
          s.putArea i { a with held := none, blocks := a.blocks ++ [b], waiting := a.waiting && b.seq != a.expect }

def execLibLoad (p : Packet) (env : List Word) (s : State) : Res := s.direct 0x0200 p (libLoadBody env)
def execLibDrop (p : Packet) (s : State) : Res := s.direct 0x0201 p libDropBody
def execCfgRenderAhead (p : Packet) (s : State) : Res := s.direct 0x0102 p cfgRenderAheadBody
def execGeoBind (p : Packet) (s : State) : Res := s.direct 0x0202 p geoBindBody

end Sys2Proof.Machine
end

