-- ==== Sys2Proof/Machine/Coverage.lean ====
section
/-! DEFINITION. Device geometry: polylines, trapezoids, exact coverage and areas, instances of the cell hierarchy
(06_expansion_coverage.md R154-R170, 05_geometry_stream.md R126-R129). -/

namespace Sys2Proof.Machine

/-! ### Device geometry (R158) -/

/-- Pieces of a quadratic segment: the smallest n of at least 1 with 16 n n >= dd. -/
def bezierPieces (dd : Nat) : Nat := ((List.range 1025).find? fun n => 1 ≤ n && dd ≤ 16 * n * n).getD 1024

/-- Inner point i of n, one coordinate, rounded half up. -/
def bezierAt (n i : Nat) (a b c : Int) : Int :=
  roundDiv (((n - i) * (n - i) : Nat) * a + (2 * i * (n - i) : Nat) * b + (i * i : Nat) * c) (n * n)

/-- The points after the first of a segment from p. -/
def PathSeg.points (p : Pt) (s : PathSeg) : List Pt :=
  match s.control with
  | none => [s.stop]
  | some c =>
    let n := bezierPieces (bezierDd p c s.stop)
    ((List.range (n - 1)).map fun i =>
      { x := bezierAt n (i + 1) p.x c.x s.stop.x, y := bezierAt n (i + 1) p.y c.y s.stop.y }) ++ [s.stop]

def flatten (p : Pt) : List PathSeg → List Pt
  | [] => []
  | s :: rest => s.points p ++ flatten s.stop rest

/-- A primitive's device geometry in its cell's frame; shapes without curves are polygons (R160). -/
def Prim.shape : Prim → Shape
  | .rect x0 y0 x1 y1 => .polygon false [{ x := x0, y := y0 }, { x := x1, y := y0 }, { x := x1, y := y1 }, { x := x0, y := y1 }]
  | .trap axis y0 y1 xl0 xr0 xl1 xr1 =>
    let ps : List Pt := [{ x := xl0, y := y0 }, { x := xr0, y := y0 }, { x := xr1, y := y1 }, { x := xl1, y := y1 }]
    .polygon false (if axis then ps.map fun p => { x := p.y, y := p.x } else ps)
  | .poly eo ps => .polygon eo ps
  | .path eo start segs => .polygon eo (flatten start segs)
  | .disc c r => .circle c r

/-- Whether a primitive is a POLY or PATH (R168). -/
def Shape.vertices : Shape → Nat
  | .polygon _ ps => ps.length
  | .circle _ _ => 0

/-- A placement: orientation, then offset (R127). -/
structure Xform where
  orient : Nat
  x : Int
  y : Int
  deriving DecidableEq, Repr

def Xform.pt (t : Xform) (p : Pt) : Pt :=
  let q := p.orient t.orient
  { x := q.x + t.x, y := q.y + t.y }

def Xform.box (t : Xform) (b : Box) : Box := (b.orient t.orient).shift t.x t.y

def Shape.map (t : Xform) : Shape → Shape
  | .polygon eo ps => .polygon eo (ps.map t.pt)
  | .circle c r => .circle (t.pt c) r

/-- The closed boxes have a common point. -/
def Box.meets (a b : Box) : Bool := a.x0 ≤ b.x1 && b.x0 ≤ a.x1 && a.y0 ≤ b.y1 && b.y0 ≤ a.y1

/-- The box meets the interior of another. -/
def Box.meetsInside (a b : Box) : Bool := a.x0 < b.x1 && b.x0 < a.x1 && a.y0 < b.y1 && b.y0 < a.y1

/-- Indices below n whose range [lo, hi] shifted by index times step meets [a, b] (R154). -/
def indexRange (n : Nat) (step lo hi a b : Int) : List Nat :=
  let first := if 0 < step then -((hi - a) / step) else -((b - lo) / -step)
  let last := if 0 < step then (b - lo) / step else (hi - a) / -step
  let f := (max first 0).toNat
  ((List.range (min (last + 1) n - f).toNat).map (f + ·))

/-- The instances of a placement that meet a region, with the child's box in its own frame. -/
def Xform.children (t : Xform) (region : Box) (e : Box) (p : Place) : List Xform :=
  let o := orientCompose t.orient p.orient
  let at_ := t.pt { x := p.ox, y := p.oy }
  let b := (e.orient o).shift at_.x at_.y
  let vi := ({ x := p.px, y := 0 } : Pt).orient t.orient
  let vj := ({ x := 0, y := p.py } : Pt).orient t.orient
  let indices := fun (n : Nat) (v : Pt) =>
    if n = 1 then [0]
    else if v.x ≠ 0 then indexRange n v.x b.x0 b.x1 region.x0 region.x1
    else if v.y ≠ 0 then indexRange n v.y b.y0 b.y1 region.y0 region.y1
    else []
  (indices p.nx vi).flatMap fun i => (indices p.ny vj).filterMap fun j =>
    let dx := (i : Int) * vi.x + (j : Int) * vj.x
    let dy := (i : Int) * vi.y + (j : Int) * vj.y
    if (b.shift dx dy).meets region then some { orient := o, x := at_.x + dx, y := at_.y + dy } else none

/-- A primitive instance: class, extent and device geometry in the stripe frame (R155). -/
structure Inst where
  cls : Nat
  box : Box
  shape : Shape
  deriving DecidableEq, Repr

/-- Two sequences of parts in one order: a mark that is true takes the next part of the first, else of the second. -/
def weave {α : Type} : List Bool → List (List α) → List (List α) → List α
  | true :: marks, x :: xs, ys => x ++ weave marks xs ys
  | false :: marks, xs, y :: ys => y ++ weave marks xs ys
  | _, xs, ys => xs.flatten ++ ys.flatten

/-- The instances of a cell that meet a region, depth first in stream order; the fuel is the depth of the hierarchy (R130,
R154). -/
def cellInsts (cells : List Cell) (region : Box) : Nat → Xform → Cell → List Inst
  | 0, _, _ => []
  | fuel + 1, t, c =>
    let prims := c.prims.map fun q =>
      match boxOf q.2.points with
      | none => []
      | some b =>
        let b := t.box b
        if b.meets region then [({ cls := q.1, box := b, shape := q.2.shape.map t } : Inst)] else []
    let places := c.places.map fun p =>
      match findCell cells p.cell with
      | none => []
      | some child =>
        match child.extent with
        | none => []
        | some e => (t.children region e p).flatMap fun u => cellInsts cells region fuel u child
    weave c.marks prims places

/-- The instances of body records that meet a region. -/
def bodyInsts (cells : List Cell) (region : Box) (ps : List Place) : List Inst :=
  cellInsts cells region 17 { orient := 0, x := 0, y := 0 }
    { id := 0, prims := [], places := ps, marks := [], extent := none, depth := 0 }

/-- Put an instance before those of its own and of later classes. -/
def insertClass (p : Nat × Shape) : List (Nat × Shape) → List (Nat × Shape)
  | [] => [p]
  | q :: qs => if p.1 ≤ q.1 then p :: q :: qs else q :: insertClass p qs

/-- Grouped by class in ascending order, and within a class in the order given (R156). -/
def byClass (ps : List (Nat × Shape)) : List (Nat × Shape) := ps.foldr insertClass []

/-! ### Trapezoids (R160) -/

/-- A trapezoid with horizontal parallel sides. -/
structure Trap where
  y0 : Rat
  y1 : Rat
  xl0 : Rat
  xr0 : Rat
  xl1 : Rat
  xr1 : Rat
  deriving DecidableEq, Repr

/-- An edge, from a to b. -/
abbrev Edge := Pt × Pt

def edgesOf : List Pt → List Edge
  | [] => []
  | p :: ps => (p :: ps).zip (ps ++ [p])

/-- x of an edge at height y. -/
def edgeX (e : Edge) (y : Rat) : Rat :=
  (e.1.x : Rat) + ((e.2.x - e.1.x : Int) : Rat) * (y - (e.1.y : Rat)) / ((e.2.y - e.1.y : Int) : Rat)

/-- The height at which two edges cross, if they do. -/
def crossY (a b : Edge) : Option Rat :=
  let ax := a.2.x - a.1.x
  let ay := a.2.y - a.1.y
  let bx := b.2.x - b.1.x
  let by_ := b.2.y - b.1.y
  let det := ax * by_ - ay * bx
  if det = 0 then none
  else
    let t : Rat := (((b.1.x - a.1.x) * by_ - (b.1.y - a.1.y) * bx : Int) : Rat) / (det : Rat)
    let u : Rat := (((b.1.x - a.1.x) * ay - (b.1.y - a.1.y) * ax : Int) : Rat) / (det : Rat)
    if 0 ≤ t ∧ t ≤ 1 ∧ 0 ≤ u ∧ u ≤ 1 then some ((a.1.y : Rat) + (ay : Rat) * t) else none

/-- Put a rational into an ascending list without repeats. -/
def insertRat (r : Rat) : List Rat → List Rat
  | [] => [r]
  | x :: xs => if r < x then r :: x :: xs else if r = x then x :: xs else x :: insertRat r xs

/-- An edge across a band: x at the band's bottom and top, and its winding. -/
structure BandEdge where
  bottom : Rat
  top : Rat
  up : Int
  deriving DecidableEq, Repr

def insertEdge (e : BandEdge) : List BandEdge → List BandEdge
  | [] => [e]
  | x :: xs => if e.bottom + e.top < x.bottom + x.top then e :: x :: xs else x :: insertEdge e xs

/-- The fill rules (05 R124). -/
def filled (evenOdd : Bool) (w : Int) : Bool := if evenOdd then w % 2 != 0 else w != 0

/-- The spans of a band where the fill rule holds, from the left. -/
def bandSpans (evenOdd : Bool) (y0 y1 : Rat) : List BandEdge → Int → Option BandEdge → List Trap
  | [], _, _ => []
  | e :: es, w, start =>
    let w' := w + e.up
    match start with
    | none => bandSpans evenOdd y0 y1 es w' (if filled evenOdd w' then some e else none)
    | some s =>
      if filled evenOdd w' then bandSpans evenOdd y0 y1 es w' (some s)
      else
        { y0 := y0, y1 := y1, xl0 := s.bottom, xr0 := e.bottom, xl1 := s.top, xr1 := e.top }
          :: bandSpans evenOdd y0 y1 es w' none

/-- The trapezoids of a polygon. -/
def polygonTraps (evenOdd : Bool) (ps : List Pt) : List Trap :=
  let es := edgesOf ps
  let cross := es.zipIdx.flatMap fun a => (es.drop (a.2 + 1)).filterMap (crossY a.1)
  let ys := (ps.map fun p => (p.y : Rat)) ++ cross
  let ys := ys.foldr insertRat []
  (ys.zip ys.tail).flatMap fun band =>
    let inBand := es.filterMap fun (e : Edge) =>
      let lo : Rat := min (e.1.y : Rat) (e.2.y : Rat)
      let hi : Rat := max (e.1.y : Rat) (e.2.y : Rat)
      if e.1.y ≠ e.2.y ∧ lo ≤ band.1 ∧ band.2 ≤ hi then
        some { bottom := edgeX e band.1, top := edgeX e band.2, up := if e.1.y < e.2.y then (1 : Int) else -1 : BandEdge }
      else none
    bandSpans evenOdd band.1 band.2 (inBand.foldr insertEdge []) 0 none

def Shape.traps : Shape → List Trap
  | .polygon eo ps => polygonTraps eo ps
  | .circle _ _ => []

/-! ### Area within a box (R162) -/

/-- Antiderivative of clamp(u, 0, w). -/
def clampArea (w u : Rat) : Rat := if u ≤ 0 then 0 else if w ≤ u then w * u - w * w / 2 else u * u / 2

/-- Integral over a strip of height h of clamp(u, 0, w), where u runs linearly from a to b. -/
def stripArea (w a b h : Rat) : Rat :=
  if a = b then h * min (max a 0) w else h * (clampArea w b - clampArea w a) / (b - a)

/-- Area in spu² of a trapezoid within the box with lower-left corner (x, y), width w and height h. -/
def Trap.areaIn (t : Trap) (x y w h : Rat) : Rat :=
  let ya := max t.y0 y
  let yb := min t.y1 (y + h)
  if yb ≤ ya then 0
  else
    let s := t.y1 - t.y0
    let l := fun (v : Rat) => t.xl0 + (t.xl1 - t.xl0) * (v - t.y0) / s
    let r := fun (v : Rat) => t.xr0 + (t.xr1 - t.xr0) * (v - t.y0) / s
    stripArea w (r ya - x) (r yb - x) (yb - ya) - stripArea w (l ya - x) (l yb - x) (yb - ya)

/-- Coverage of a pixel by a trapezoid, in units of 2^-20 pixel, rounded half up (R162). -/
def Trap.coverage (t : Trap) (px py : Int) : Nat :=
  ((16 * t.areaIn ((256 * px : Int) : Rat) ((256 * py : Int) : Rat) 256 256 + 1 / 2).floor).toNat

/-! ### Discs (R161) -/

/-- Squared distance of the point of a box nearest to, and farthest from, a point. -/
def Box.near2 (b : Box) (c : Pt) : Int :=
  let dx := max (max (b.x0 - c.x) (c.x - b.x1)) 0
  let dy := max (max (b.y0 - c.y) (c.y - b.y1)) 0
  dx * dx + dy * dy

def Box.far2 (b : Box) (c : Pt) : Int :=
  let dx := max (b.x1 - c.x) (c.x - b.x0)
  let dy := max (b.y1 - c.y) (c.y - b.y0)
  dx * dx + dy * dy

def pixelBox (px py : Int) : Box := { x0 := 256 * px, y0 := 256 * py, x1 := 256 * px + 256, y1 := 256 * py + 256 }

/-- Trapezoids of a polygon symmetric about x = c.x, from the half-widths and heights of its corners, relative to the centre. -/
def symmetricTraps (c : Pt) (ps : List (Rat × Rat)) : List Trap :=
  (ps.zip ps.tail).map fun q =>
    { y0 := c.y + q.1.2, y1 := c.y + q.2.2, xl0 := c.x - q.1.1, xr0 := c.x + q.1.1, xl1 := c.x - q.2.1, xr1 := c.x + q.2.1 }

/-- A polygon in the circle and one around it: the circle's points at t = i / n, where a point lies at
((1 - t²) / (1 + t²), 2 t / (1 + t²)), and the points where the tangents at neighbouring ones meet. With n of 256 sqrt r the two
differ by less than 2^-16 spu along the circle. -/
def discPolygons (c : Pt) (r : Nat) : List Trap × List Trap :=
  let n := 256 * (r.sqrt + 1)
  let at_ := fun (i : Nat) => (((i : Int) - n : Int) : Rat) / (n : Rat)
  let corner := fun (a b : Rat) => ((r : Rat) * (1 - a * b) / (1 + a * b), (r : Rat) * (a + b) / (1 + a * b))
  (symmetricTraps c ((List.range (2 * n + 1)).map fun i => corner (at_ i) (at_ i)),
    symmetricTraps c ((List.range (2 * n)).map fun i => corner (at_ i) (at_ (i + 1))))

/-- Bounds of the exact area in spu² of a disc within a box. -/
def discBounds (c : Pt) (r : Nat) (b : Box) : Rat × Rat :=
  let area := fun (ts : List Trap) =>
    (ts.map fun t => t.areaIn (b.x0 : Rat) (b.y0 : Rat) ((b.x1 - b.x0 : Int) : Rat) ((b.y1 - b.y0 : Int) : Rat)).sum
  let ps := discPolygons c r
  (area ps.1, area ps.2)

/-- Coverage of a pixel by a disc: full inside, 0 outside, the device's own value within 4 units of the exact area where the
circle crosses (R161). It depends on the radius and on the centre relative to the pixel's lower-left corner alone. -/
def discCover (c : Pt) (r : Nat) (px py : Int) : Nat :=
  let p : Pt := { x := c.x - 256 * px, y := c.y - 256 * py }
  let b := pixelBox 0 0
  if b.far2 p ≤ (r : Int) * r then 2 ^ 20
  else if (r : Int) * r ≤ b.near2 p then 0
  else
    let e := discBounds p r b
    min (2 ^ 20) (max ((16 * e.1).floor.toNat - 4) (min (Config.discCoverage r p.x p.y) ((16 * e.2).ceil.toNat + 4)))

/-- The exact area of a disc within a box in units of 2^-10 pixel, rounded half up (R166, R169): the bounds round to one
number but where the area lies within 2^-6 unit of a half; there the rounding is free between the two. -/
def discAreaIn (c : Pt) (r : Nat) (b : Box) : Nat :=
  let half := fun (a : Rat) => (a / 64 + 1 / 2).floor.toNat
  let e := discBounds c r b
  max (half e.1) (min (Config.discArea r (b.x0 - c.x) (b.y0 - c.y) (b.x1 - c.x) (b.y1 - c.y)) (half e.2))

/-! ### Pixels of an instance -/

/-- An instance with its trapezoids. -/
structure Piece where
  cls : Nat
  shape : Shape
  traps : List Trap
  deriving DecidableEq, Repr

def Piece.of (p : Nat × Shape) : Piece := { cls := p.1, shape := p.2, traps := p.2.traps }

/-- Coverage of a pixel by an instance: the sum over its trapezoids, or the disc's value (R164). -/
def Piece.coverage (p : Piece) (px py : Int) : Nat :=
  match p.shape with
  | .polygon _ _ => (p.traps.map fun t => t.coverage px py).sum
  | .circle c r => discCover c r px py

/-- Area in spu² of a polygon instance within a box. -/
def Piece.areaIn (p : Piece) (b : Box) : Rat :=
  (p.traps.map fun t => t.areaIn (b.x0 : Rat) (b.y0 : Rat) ((b.x1 - b.x0 : Int) : Rat) ((b.y1 - b.y0 : Int) : Rat)).sum

/-- Whether the boundary of an instance meets the pixel's open interior (R163). -/
def Piece.isEdge (p : Piece) (px py : Int) : Bool :=
  match p.shape with
  | .polygon _ _ => let a := p.areaIn (pixelBox px py); decide (0 < a) && decide (a < 65536)
  | .circle c r =>
    let b := pixelBox px py
    decide (b.near2 c < (r : Int) * r) && decide ((r : Int) * r < b.far2 c)

/-- Area of an instance within a box in units of 2^-10 pixel, rounded half up (R166). -/
def Piece.units (p : Piece) (b : Box) : Nat :=
  match p.shape with
  | .polygon _ _ => ((p.areaIn b / 64 + 1 / 2).floor).toNat
  | .circle c r => discAreaIn c r b

/-! ### Coarse density (R166) -/

/-- Density of a coarse cell from the pieces that meet it. -/
def cellDensity (dose : Nat → Nat) (additive : List Nat) (ps : List Piece) (cx cy : Int) : Nat :=
  let b : Box := { x0 := 8192 * cx, y0 := 8192 * cy, x1 := 8192 * cx + 8192, y1 := 8192 * cy + 8192 }
  let classes := (ps.map (·.cls)).dedup
  let sum := (classes.map fun c =>
    let a := ((ps.filter fun p => p.cls == c).map fun p => p.units b).sum
    (if additive.contains c then a else min a 1048576) * dose c).sum
  min ((sum + 524288) / 1048576) 65535

/-! ### Tiles (R164-R170) -/

/-- The result of rendering a tile: base dose words, rendered sum, tile integral, tolerance, edge and full pixels. -/
structure TileSum where
  px : List (List Nat)
  f : Int
  t : Int
  tolerance : Nat
  edges : Nat
  full : Nat
  deriving DecidableEq, Repr

/-- Pixel columns and rows of a tile's part in the fine region: first column, columns, first row, rows (R151). -/
def tileSpan (die rows : Nat) (col : Nat) (ty : Int) : Int × Nat × Int × Nat :=
  let x0 : Int := if col = 0 then 512 * die - 8 else 512 * die + 64 * (col - 1)
  let w := if col = 0 ∨ col = 9 then 8 else 64
  let y0 := max (64 * ty) (-8)
  let y1 := min (64 * ty + 63) (rows + 7)
  (x0, w, y0, (y1 + 1 - y0).toNat)

/-- The base dose word of a pixel (R164, R165) and its share of the rendered sum (R170), from the coverage per class. -/
def pixelDose (dose : Nat → Nat) (additive : List Nat) (cov : List (Nat × Nat)) : Nat × Nat :=
  let q := fun (c : Nat) => (c + 512) / 1024
  let union := cov.filter fun x => !additive.contains x.1
  let add := cov.filter fun x => additive.contains x.1
  let doseA := ((add.map fun x => x.2 * dose x.1).sum + 512) / 1024
  let doseU := (union.map fun x => min (q x.2) 1024 * dose x.1).sum
  let raw := (doseU + doseA + 512) / 1024
  (if 16777215 < raw then 2 ^ 31 + 16777215 else raw, (union.map fun x => q x.2 * dose x.1).sum + doseA)

/-- Facet's and the integral unit's work on a tile (R164, R169, R170). -/
def renderTile (dose : Nat → Nat) (additive : List Nat) (ps : List Piece) (span : Int × Nat × Int × Nat) : TileSum :=
  let x0 := span.1
  let y0 := span.2.2.1
  let xs : List Int := (List.range span.2.1).map fun (i : Nat) => x0 + i
  let ys : List Int := (List.range span.2.2.2).map fun (i : Nat) => y0 + i
  let box : Box := { x0 := 256 * x0, y0 := 256 * y0, x1 := 256 * (x0 + span.2.1), y1 := 256 * (y0 + span.2.2.2) }
  let classes := (ps.map (·.cls)).dedup
  let pix := ys.map fun (y : Int) => xs.map fun (x : Int) =>
    pixelDose dose additive (classes.map fun c => (c, ((ps.filter fun p => p.cls == c).map fun p => p.coverage x y).sum))
  let perPiece := ps.map fun p =>
    let e := (ys.map fun (y : Int) => (xs.filter fun (x : Int) => p.isEdge x y).length).sum
    let full := (ys.map fun (y : Int) => (xs.filter fun (x : Int) => p.coverage x y == 2 ^ 20).length).sum
    (e, full, p.units box, dose p.cls)
  { px := pix.map fun row => row.map (·.1)
    f := ((pix.map fun row => (row.map (·.2)).sum).sum : Nat)
    t := ((perPiece.map fun p => p.2.2.1 * p.2.2.2).sum : Nat)
    tolerance := (perPiece.map fun p => p.1 * p.2.2.2).sum + 256 * (ps.map fun p => dose p.cls).foldl max 0
    edges := (perPiece.map (·.1)).sum
    full := (perPiece.map (·.2.1)).sum }

end Sys2Proof.Machine
end

