-- ==== Sys2Proof/Machine/Memory.lean ====
section
/-! DEFINITION. The memories of a die: SRAM check bits and the scrubber, refresh, panic and retraining of the DRAM
(04_memory.md R99-R117). -/

namespace Sys2Proof.Machine

/-! ### Reads of the SRAM by a unit port (R112, R113) -/

/-- An uncorrectable error on a functional port (R113): logged, SHOT withheld, a warm reset requested. A die that finds several
before the reset keeps the first in SRAM_UE_LOG (DESIGN CHOICE, notes/assumptions/46.md). -/
def State.sramUe (s : State) (die port addr : Nat) : State :=
  let s := s.modDie die fun d => { d with sram.ueLog := some (d.sram.ueLog.getD (port, addr)) }
  { s.closeGates with ctl.resetRequest := some .sramError }

/-- A functional read of one byte: the byte, if it can be delivered (R112, R113). -/
def State.sramRead (s : State) (die port a : Nat) : Option Byte × State :=
  match sramDecode (sparseGet sramZero (s.die die).sram.cells a) with
  | .clean b => (some b, s)
  | .corrected b => (some b, s.modDie die fun d => { d with sram := d.sram.correct a b })
  | .uncorrectable => (none, s.sramUe die port a)

/-- A unit reads the bytes at the addresses given by a predicate: an error in one of them is corrected and counted, or acts
under R113 (R112, R115). -/
def State.unitReads (s : State) (die port : Nat) (reads : Nat → Bool) : State :=
  ((s.die die).sram.cells.filter fun c => reads c.1).foldl (fun s c => (s.sramRead die port c.1).2) s

/-! ### The reader lead and panic (R105-R107) -/

/-- Rows present beyond row y, up to 7; rows beyond the stripe's last count as present. -/
def Die.leadFrom (d : Die) (stripe pass rows y : Nat) : Nat :=
  ((List.range 7).takeWhile fun i =>
    let r := y + 1 + i
    rows ≤ r || (d.windowRow stripe pass r).isSome).length

/-- The reader lead and panic of a die in WRITING (R106); dies that the stripe does not use have no reader deadline. A
retraining deferred in panic is not taken here but at the next PERIODIC_RETRAINING: the spec does not say when (DESIGN CHOICE,
notes/assumptions/46.md). -/
def State.updatePanic (s : State) (die : Nat) : State :=
  match s.executing? with
  | none => s
  | some st =>
    if s.ctl.dev ≠ .writing || !(st.root.hasColumn (512 * die)) || (s.die die).retired then s
    else
      s.modDie die fun d =>
        let lead := d.leadFrom st.id d.lat.pass st.root.rows d.lat.shot
        let m := { d.mem with lead := lead }
        { d with mem :=
            if lead ≤ m.panicOn && !m.panic then { m with panic := true, panicCount := satInc m.panicCount, makeUp := false }
            else if m.panicOff ≤ lead && m.panic then { m with panic := false, makeUp := 0 < m.debt }
            else m }

/-- The controller of a die serves its DRAM. -/
def State.memActive (s : State) (die : Nat) : Bool := s.running && s.dieLive die && (s.die die).mem.state == .active

/-- REFRESH_INTERVAL (R103, R104): outside panic the debt is paid at once; in panic it grows to 8, where one refresh is
forced. -/
def execRefreshInterval (die : Nat) (s : State) : Res :=
  .next (if !s.memActive die then s
  else
    let m := (s.die die).mem
    let s := if m.panic && m.debt < 7 then s else s.count die 46 1
    let s := if m.panic && 7 ≤ m.debt then s.count die 47 1 else s
    s.modDie die fun d =>
      let m := d.mem
      { d with mem :=
          if m.panic then
            (if 7 ≤ m.debt then { m with debt := 7, err := m.err ||| 4#4, forcedRef := satInc m.forcedRef }
            else { m with debt := m.debt + 1 })
          else m })

/-- MAKE_UP_BURST_REFRESH (R105): the reader lead is checked before each all-bank refresh. -/
def execMakeUpBurstRefresh (die : Nat) (s : State) : Res :=
  let m := (s.die die).mem
  .next (if !s.memActive die || m.panic || m.debt = 0 || !(m.makeUp || s.ctl.dev != .writing) then s
  else if s.ctl.dev = .writing && m.lead ≤ m.panicOn then s.modDie die fun d => { d with mem.makeUp := false }
  else
    (s.count die 46 1).modDie die fun d =>
      { d with mem := { d.mem with debt := d.mem.debt - 1, makeUp := 1 < d.mem.debt } })

/-- PERIODIC_RETRAINING (R100): the drift measurement is performed, or deferred in panic. Its result is a measurement of the
memory item (17 R422). -/
def execPeriodicRetraining (die : Nat) (s : State) : Res :=
  .next (if s.memActive die then s.modDie die fun d => { d with mem.deferred := d.mem.panic } else s)

/-- MAX_DEFER_EXPIRY (R107): the measurement is taken whatever the panic state. -/
def execMaxDeferExpiry (die : Nat) (s : State) : Res :=
  .next (if s.memActive die && (s.die die).mem.deferred then
    s.modDie die fun d => { d with mem := { d.mem with deferred := false, forced := true, err := d.mem.err ||| 8#4 } }
  else s)

/-! ### DRAM pages (R102) -/

/-- An access to a row of a bank at a timebase count, and whether it hit the open row: a bank idle for 256 ns (103 counts of
2.5 ns) was precharged, and the row stays open where 2 or more of the bank's last 4 history bits are set. -/
def Mem.access (m : Mem) (tb bank row : Nat) : Mem × Bool :=
  let hit := match m.opened.getD bank none with
    | some (r, t) => r == row && decide (tb < t + 103)
    | none => false
  let h := (m.history.getD bank 0 * 2 + b2n hit) % 16
  let keep := decide (2 ≤ b2n (bit h 0) + b2n (bit h 1) + b2n (bit h 2) + b2n (bit h 3))
  ({ m with history := m.history.set bank h, opened := m.opened.set bank (if keep then some (row, tb) else none) }, hit)

/-- Accesses to (bank, row) pairs of a die's DRAM, in order; the row hits are counted (17 Table 17-5). -/
def State.dramAccess (s : State) (die : Nat) (as : List (Nat × Nat)) : State :=
  let d := s.die die
  let r := as.foldl (fun (x : Mem × Nat) a =>
    let y := x.1.access d.tb.toNat (a.1 % 16) a.2
    (y.1, x.2 + b2n y.2)) (d.mem, 0)
  (s.modDie die fun d => { d with mem.history := r.1.history, mem.opened := r.1.opened }).count die 44 r.2

/-- The pages of n bytes at a DRAM offset; where the spec gives no interleave they are free. -/
def dramPages (off n : Nat) : List (Nat × Nat) :=
  (List.range (ceilDiv (off % 64 + n) 64)).map fun i => (Config.dramBank (off / 64 + i) % 16, Config.dramRow (off / 64 + i))

/-- The pages of a render block at an offset of the data ring, in 64-byte granules: interleaved across the banks. -/
def renderPages (off n : Nat) : List (Nat × Nat) :=
  (List.range n).map fun i => ((off + i) % 16, Config.renderRow (off + i))

/-! ### Link errors (R108) -/

/-- Correctable read errors of a die's DRAM. -/
def State.linkCe (s : State) (die n : Nat) : State := s.modDie die fun d => { d with mem.linkCe := satAdd d.mem.linkCe n }

/-- An uncorrectable read error of a die's DRAM. -/
def State.linkUe (s : State) (die : Nat) : State :=
  let s := s.modDie die fun d =>
    { d with mem := { d.mem with linkUe := satInc d.mem.linkUe, err := d.mem.err ||| 1#4 } }
  s.detectOpen 0x000C die 0 0

/-! ### Scrubber (R115-R117) -/

/-- Whether the scrubber of a die runs (R116). -/
def State.scrubs (s : State) (die : Nat) : Bool := s.running && s.dieLive die && s.domOn die 3

/-- A scan's first read clears the summary. -/
def Sram.begin (m : Sram) (x : Scan) : Sram :=
  { m with done := false, host := x.ctx.isSome, first := x.first, last := x.last, scanned := 0, corrected := 0, uncorr := 0,
           lowCe := none, lowUe := none }

/-- SCRUB_RUN (R117). -/
def scrubRunBody (p : Packet) (c : Ctx) (s : State) : State :=
  let a := p.param 0
  let b := p.param 1
  if sramSize ≤ a || sramSize ≤ b || b < a then s.finish c badParam []
  else
    let s := s.modDie p.target fun d =>
      let x : Scan := { first := a, last := b, at_ := a, ctx := some c }
      let m := if d.sram.scans.isEmpty then d.sram.begin x else d.sram
      { d with sram := { m with scans := d.sram.scans ++ [x] } }
    s.interim c ok []

/-- One byte of a scan. -/
def State.scrubByte (s : State) (die a : Nat) : State :=
  match sramDecode (sparseGet sramZero (s.die die).sram.cells a) with
  | .clean _ => s.modDie die fun d => { d with sram.scanned := d.sram.scanned + 1 }
  | .corrected b =>
    s.modDie die fun d =>
      { d with sram := { d.sram.correct a b with
          scanned := d.sram.scanned + 1, corrected := d.sram.corrected + 1, lowCe := some (d.sram.lowCe.getD a) } }
  | .uncorrectable =>
    (s.modDie die fun d =>
      { d with sram := { d.sram with
          scanned := d.sram.scanned + 1, uncorr := d.sram.uncorr + 1, lowUe := some (d.sram.lowUe.getD a) } }).detect
      0x000B die 0 (BitVec.ofNat 32 a) 0

/-- The scan in progress ends: its summary, its final entry, and the next scan's start (R117). -/
def State.endScan (s : State) (die : Nat) (x : Scan) : State :=
  let m := (s.die die).sram
  let s := s.modDie die fun d =>
    let rest := d.sram.scans.tail
    let done := { d.sram with done := true, scans := rest }
    { d with sram := match rest.head? with | some y => done.begin y | none => done }
  s.finalOpt x.ctx ok [m.scanned, m.corrected, m.uncorr, m.firstFail]

/-- SCRUB_READ (R115, R116): 32 bytes of the running scan, after the upsets given; with no scan queued the die's firmware
starts one over all of the SRAM. -/
def execScrubRead (die : Nat) (upsets : List (Nat × Stored)) (s : State) : Res :=
  .next (if !s.scrubs die then s
  else
    let s := s.modDie die fun d => { d with sram := upsets.foldl (fun m u => m.upset u.1 u.2) d.sram }
    let s := s.modDie die fun d =>
      if d.sram.scans.isEmpty then
        let x : Scan := { first := 0, last := sramSize - 1, at_ := 0, ctx := none }
        { d with sram := { d.sram.begin x with scans := [x] } }
      else d
    match (s.die die).sram.scans.head? with
    | none => s
    | some x =>
      let n := min 32 (x.last + 1 - x.at_)
      let s := (List.range n).foldl (fun s i => s.scrubByte die (x.at_ + i)) (s.count die 166 n)
      let s := s.modDie die fun d => { d with sram.scans := d.sram.scans.modifyHead fun y => { y with at_ := y.at_ + n } }
      if x.last < x.at_ + n then s.endScan die x else s)

def execScrubRun (p : Packet) (s : State) : Res := s.direct 0x0A02 p scrubRunBody

/-! ### Device addresses (03_dma.md Table 3-6) -/

/-- A device address: die or broadcast, SRAM or DRAM, offset. -/
structure DevAddr where
  die : Nat
  bcast : Bool
  sram : Bool
  off : Nat
  deriving DecidableEq, Repr

/-- The device address of a descriptor, if it and the bytes beyond it are valid (R109). -/
def State.devAddr (s : State) (v len : Nat) (bcastOk : Bool) : Option DevAddr :=
  let a : DevAddr := { die := bits v 47 45, bcast := bit v 44, sram := bits v 43 40 == 1, off := bits v 33 0 }
  let size := if a.sram then sramSize else (s.die a.die).mem.capacity * 2 ^ 30
  if bits v 63 48 = 0 ∧ bits v 39 34 = 0 ∧ bits v 43 40 ≤ 1 ∧ (a.bcast = false ∨ bcastOk = true)
      ∧ (a.bcast = true ∨ s.dieLive a.die = true) ∧ (a.off + len ≤ size ∨ a.bcast = true ∧ a.sram = false) then some a
  else none

/-- The pages of n bytes of a device address are accessed, if they lie in DRAM. -/
def State.devAccess (s : State) (a : DevAddr) (i n : Nat) : State :=
  if a.sram then s
  else if a.bcast then s.liveDies.foldl (fun s d => s.dramAccess d (dramPages (a.off + i) n)) s
  else s.dramAccess a.die (dramPages (a.off + i) n)

/-- Write bytes to device memory. -/
def State.devWrite (s : State) (a : DevAddr) (bs : List Byte) : State :=
  let put := fun (d : Die) =>
    if a.sram then { d with sram := (bs.zipIdx.foldl (fun m b => m.write (a.off + b.2) b.1) d.sram) }
    else { d with mem.dram := sparseSetRange 0 d.mem.dram a.off bs }
  let s := s.devAccess a 0 bs.length
  if a.bcast then s.modDies fun d => if d.retired then d else put d else s.modDie a.die put

/-- Read a byte of device memory; none where it is withheld (R113). -/
def State.devByte (s : State) (a : DevAddr) (i : Nat) : Option Byte × State :=
  if a.sram then s.sramRead a.die 6 (a.off + i) else (some (sparseGet 0 (s.die a.die).mem.dram (a.off + i)), s)

/-- n bytes of device memory from offset i on. -/
def State.devBytes (s : State) (a : DevAddr) : Nat → Nat → Option (List Byte) × State
  | _, 0 => (some [], s)
  | i, n + 1 =>
    match s.devByte a i with
    | (none, s) => (none, s)
    | (some b, s) =>
      match s.devBytes a (i + 1) n with
      | (none, s) => (none, s)
      | (some bs, s) => (some (b :: bs), s)

/-- Read n bytes of device memory from offset i on. -/
def State.devRead (s : State) (a : DevAddr) (i n : Nat) : Option (List Byte) × State := (s.devAccess a i n).devBytes a i n

end Sys2Proof.Machine
end

