-- ==== Sys2Proof/Machine/Render.lean ====
section
/-! DEFINITION. The render pipeline: Tessera, Facet, the density broadcast, Contour, the render-ahead buffer and its reader
(06_expansion_coverage.md R150-R172, 07_dose_correction.md R174-R195, 05_geometry_stream.md R138-R147, 09 R221). -/

namespace Sys2Proof.Machine

/-! ### The stripe-pass being rendered -/

/-- Dies that take part in a stripe (09, Phases). -/
def State.participants (s : State) (st : Stripe) : List Nat := s.liveDies.filter fun d => st.root.hasColumn (512 * d)

/-- Coarse rows of a stripe, ceil(L / 32). -/
def Root.coarseRows (r : Root) : Nat := ceilDiv r.rows 32

/-- Segments of a stripe, ceil(L / 256). -/
def Root.segments (r : Root) : Nat := ceilDiv r.rows 256

/-- Last tile row of a stripe's fine region (R151). -/
def Root.lastTile (r : Root) : Int := ((r.rows : Int) + 7) / 64

/-- The segment of a pixel row (R155). -/
def Root.segmentOf (r : Root) (y : Int) : Nat := min (y / 256).toNat (r.segments - 1)

def Stripe.dose (st : Stripe) (c : Nat) : Nat := (st.tables.classes.getD c (0, 0)).1

/-- The stripe-pass that a die's Tessera works on. -/
def State.workOf (s : State) (die : Nat) : Option (Stripe × Nat) :=
  (s.die die).tess.work.bind fun w => (s.stripe? w.1).map fun st => (st, w.2)

/-- The stripe-pass that a die's density ring belongs to (R184). -/
def State.ringOf (s : State) (die : Nat) : Option (Stripe × Nat) :=
  (s.die die).con.ringOf.bind fun w => (s.stripe? w.1).map fun st => (st, w.2)

/-- Rendering goes on in ARMED and WRITING (R150, R195) on a live die. -/
def State.renders (s : State) (die : Nat) : Bool := s.ctl.ready && s.active && s.dieLive die

/-- The stripe-pass that may begin next: of the oldest unfinished stripe, or of the next one after it (09 R221). -/
def State.nextRender (s : State) : Option Stripe :=
  (s.seq.stripes.take 2).find? fun st => decide (st.rendered < st.passes.length)

/-- A die begins a stripe-pass. -/
def Die.beginPass (st : Stripe) (part : Bool) (d : Die) : Die :=
  let k : Int := st.tables.lrK
  let first := st.rendered == 0
  let work := some (st.id, st.rendered)
  { d with
    tess := { d.tess with
      work := work, coarseRow := -k - 1, fineRow := -1, counts := [], rerender := false
      waitCoarse := false, waitRing := false, waitBlock := false, waitQueue := false
      fetchFault := d.tess.fetchFault && !first, geoFault := d.tess.geoFault && !first }
    con := { d.con with
      ringOf := work, ring := [], ringLow := -k, expect := List.replicate 8 (-k), factors := [], lrNext := 0, next := 0
      rdFault := d.con.rdFault && !first, densFault := d.con.densFault && !first
      waitFactor := false, waitDensity := false, waitTile := false, waitBuffer := false
      pass := if part then st.rendered else d.con.pass
      gens := if part then (st.tables.gens.take 4).map (· % 256) else d.con.gens
      ceil := if part then st.ceiling else d.con.ceil } }

/-- The slots of the passes before one are released (05 R145): each pass has its own blocks where the stream is not retained. -/
def State.releasePasses (s : State) (st : Stripe) (pass : Nat) : State :=
  if st.root.streamBlocks ≤ 2048 then s
  else
    match s.areas[st.area]? with
    | some a => s.releaseBlocks st.area (a.first + pass * st.root.streamBlocks)
    | none => s

/-- Tessera waits for no block of a stripe's area. -/
def State.resumeArea (s : State) (st : Stripe) : State :=
  { s with areas := s.areas.modify st.area fun a => { a with waiting := false } }

/-- STRIPE_RENDER_BEGIN (09 R221, R184): every die has released its ring and has no work left of the stripe-pass before. -/
def execStripeRenderBegin (s : State) : Res :=
  .next (match s.nextRender with
  | none => s
  | some st =>
    if !s.ctl.ready || !s.active || s.dies.any fun d => !d.retired && (d.tess.work.isSome || d.con.ringOf.isSome) then s
    else
      let s := s.modDies fun d => if d.retired then d else d.beginPass st (st.root.hasColumn (512 * d.id))
      ((s.modStripe st.id fun x =>
        { x with rendered := x.rendered + 1, phase := if x.phase = .queued then .prefill else x.phase }).resumeArea st).releasePasses
        st st.rendered)

/-- A die whose ring is released and, if it takes part, whose blocks are all written has no work left (R190). -/
def Die.endWork (st : Stripe) (part : Bool) (d : Die) : Die :=
  if d.con.ringOf.isNone && (!part || st.root.rows ≤ 64 * d.con.next) then
    { d with
      tess := { d.tess with work := none, queue := [], tiles := [], counts := [], waitCoarse := false, waitRing := false,
                            waitBlock := false, waitQueue := false }
      con := { d.con with factors := [], waitFactor := false, waitDensity := false, waitTile := false, waitBuffer := false } }
  else d

/-- After a die's progress. -/
def State.settle (s : State) (id pass : Nat) : State :=
  match s.stripe? id with
  | none => s
  | some st => s.modDies fun d =>
    if d.retired || d.tess.work != some (id, pass) then d else d.endWork st (st.root.hasColumn (512 * d.id))

/-- A stripe-pass is stopped on one die (R186, R189). -/
def State.stopPassOn (s : State) (die id pass : Nat) : State :=
  let rows := (s.stripe? id).elim 0 fun st => st.root.rows
  s.modDie die (Die.stopPass id pass false rows)

/-- A geometry or fetch fault: the stripe is expanded no further on any die, and what is not rendered of this and its later
passes is lost (R147, R157). -/
def State.stopStripe (s : State) (id pass : Nat) : State :=
  match s.stripe? id with
  | none => s
  | some st =>
    let s := ((List.range st.passes.length).filter (pass ≤ ·)).foldl
      (fun s p => s.modDies (Die.stopPass id p false st.root.rows)) s
    s.modStripe id fun x => { x with rendered := st.passes.length }

/-! ### Reading the stripe body (05 R141-R147) -/

/-- A body record in the stripe frame: its extent, and the block and payload offset where it stands. -/
structure BodyRec where
  place : Place
  box : Box
  seq : Nat
  off : Nat
  deriving DecidableEq, Repr

/-- What reading the body up to a segment gives: a missing block, a fault with block and offset, or the records read and the
sequence where the reading stopped. -/
inductive Body where
  | wait (seq : Nat)
  | fault (cause seq off : Nat)
  | read (ps : List BodyRec) (seq : Nat)
  deriving DecidableEq, Repr

/-- What one block adds: an error with its offset, the records so far when a later segment begins, or all of them with the
last segment. -/
inductive BodyBlock where
  | bad (cause off : Nat)
  | stop (ps : List BodyRec)
  | more (ps : List BodyRec) (seg : Nat)
  deriving DecidableEq, Repr

/-- Contexts of the body. -/
def bodyAllowed (ty : Nat) : Option Nat :=
  if ty = 0x20 ∨ ty = 0x21 then none else if ty = 0x31 ∨ ty = 0x40 ∨ ty = 0x41 then some dgsOrder else some dgsRecordType

/-- First segment of an extent (R141). -/
def Root.firstSeg (r : Root) (b : Box) : Nat := min (b.y0 / 65536).toNat (r.segments - 1)

/-- Whether an extent meets pixel rows a to b - 1; a row holds its lower edge and not its upper (as the first segment's
division takes it). -/
def Box.meetsRows (e : Box) (a b : Int) : Bool := decide (e.y0 < 256 * b) && decide (256 * a ≤ e.y1)

/-- Whether an extent meets the stripe's columns widened by 2,016 on each side (R141). -/
def Root.meetsColumns (r : Root) (e : Box) : Bool :=
  decide (e.x0 < 256 * (512 * ((r.firstBlock : Int) + r.blocks) + 2016)) && decide (256 * (512 * (r.firstBlock : Int) - 2016) ≤ e.x1)

/-- The body records of one block; a record that meets no row from -2,016 to L + 2,015 is skipped (R141). The fuel is the
payload's words. -/
def bodyBlock (root : Root) (cells : List Cell) (segMax seq : Nat) : Nat → Nat → List Word → List BodyRec → Nat → BodyBlock
  | 0, _, _, ps, seg => .more ps seg
  | fuel + 1, off, ws, ps, seg =>
    if ws.isEmpty then .more ps seg
    else
      match parseRec bodyAllowed ws with
      | .bad c => .bad c off
      | .good (len, .place p) =>
        let p := { p with ox := p.ox - root.sx, oy := p.oy - root.sy }
        (match findCell cells p.cell with
        | none => .bad dgsUndefined off
        | some _ =>
          match p.extent cells with
          | none => bodyBlock root cells segMax seq fuel (off + 8 * len) (ws.drop (2 * len)) ps seg
          | some b =>
            let sg := root.firstSeg b
            if sg < seg then .bad dgsOrder off
            else if segMax < sg then .stop ps
            else
              let r : BodyRec := { place := p, box := b, seq := seq, off := off }
              bodyBlock root cells segMax seq fuel (off + 8 * len) (ws.drop (2 * len))
                (if b.meetsRows (-2016) (root.rows + 2016) then ps ++ [r] else ps) sg)
      | .good _ => .bad dgsOrder off

/-- Read block by block. The fuel is the number of staged blocks and one. -/
def bodyFrom (a : Area) (root : Root) (cells : List Cell) (segMax stop : Nat) : Nat → Nat → Nat → List BodyRec → Nat → Body
  | 0, seq, _, _, _ => .wait seq
  | fuel + 1, seq, off, ps, seg =>
    if stop ≤ seq then .read ps stop
    else
      match a.block? seq with
      | none => .wait seq
      | some b =>
        match bodyBlock root cells segMax seq (b.payload.length + 1) off (b.payload.drop (off / 4)) ps seg with
        | .bad c o => .fault c seq o
        | .stop ps => .read ps seq
        | .more ps seg => bodyFrom a root cells segMax stop fuel (seq + 1) 0 ps seg

/-- The record that takes a segment's active records beyond the limit (R141, R142). -/
def overActive (root : Root) (ps : List BodyRec) (seg : Nat) : Option BodyRec :=
  (ps.filter fun r => r.box.meetsRows (256 * seg) (256 * (seg + 1)) && root.meetsColumns r.box)[32768]?

/-- The cells of a stripe's library. -/
def State.cellsOf (s : State) (st : Stripe) : List Cell :=
  ((s.libs.find? fun l => l.id == st.root.lib).map (·.cells)).getD []

/-- The body of a pass up to a segment (R143, R146). -/
def State.body (s : State) (st : Stripe) (pass segMax : Nat) : Body :=
  match s.areas[st.area]? with
  | none => .wait 0
  | some a =>
    match s.header a with
    | .good _ seq off =>
      let shift := if st.root.streamBlocks ≤ 2048 then 0 else pass * st.root.streamBlocks
      let stop := a.first + shift + st.root.streamBlocks
      (match bodyFrom a st.root (s.cellsOf st) segMax stop (a.blocks.length + 2) (seq + shift) off [] 0 with
      | .read ps q =>
        (match (List.range (segMax + 1)).findSome? fun j => overActive st.root ps j with
        | some r => .fault dgsActive r.seq r.off
        | none => .read ps q)
      | r => r)
    | _ => .wait a.first

/-- The records that a band may enter: those active in the columns (R141, R154). A record outside the rows of every segment,
within the halo, counts as of the first or the last one (DEDUCED, notes/assumptions/49.md); the band itself bounds the rows. -/
def bandPlaces (root : Root) (ps : List BodyRec) : List Place := (ps.filter fun r => root.meetsColumns r.box).map (·.place)

/-- Tessera stalls on a missing block, on every die (R146). -/
def State.waitBlock (s : State) (st : Stripe) (seq : Nat) : State :=
  { s.modDies fun d => if d.retired then d else { d with tess.waitBlock := true } with
    areas := s.areas.modify st.area fun a => { a with waiting := true, expect := seq } }

/-- Tessera waits for a block of a stripe's stream. -/
def State.blockMissing (s : State) (st : Stripe) : Bool := s.areas[st.area]?.any fun a => a.waiting

/-- A geometry fault (R147): recorded in the area, reported, and the stripe stopped. -/
def State.geoFaultAt (s : State) (st : Stripe) (die pass cause seq off : Nat) : State :=
  let s := { s with
    areas := s.areas.modify st.area fun a => { a with fault := true, cause := cause, faultSeq := seq, faultOff := off } }
  let s := s.modDies fun d => if d.retired then d else { d with tess.geoFault := true }
  (s.detect 0x0002 die 0 (BitVec.ofNat 32 st.id) 0).stopStripe st.id pass

/-! ### The coarse pass (R153, R166, R167, 07 R185) -/

/-- Coarse columns of an owner: first and count (01 R35). -/
def ownerSpan (dies k o : Nat) : Int × Nat :=
  let first : Int := if o = 0 then -(k : Int) else 16 * (o : Int)
  (first, 16 + (if o = 0 then k else 0) + (if o + 1 = dies then k else 0))

/-- The words of a density packet before its check word (Table 7-6). -/
def densityWords (id pass owner : Nat) (proxy : Bool) (row first : Int) (cells : List Nat) : List Word :=
  [BitVec.ofNat 32 id,
    BitVec.ofNat 32 (cells.length * 2 ^ 16 + b2n proxy * 64 + owner % 8 * 8 + pass % 8),
    BitVec.ofInt 32 row, BitVec.ofNat 32 (unsigned 16 first)] ++ pack cells
where
  pack : List Nat → List Word
    | a :: b :: rest => BitVec.ofNat 32 (a % 65536 + b % 65536 * 65536) :: pack rest
    | [a] => [BitVec.ofNat 32 (a % 65536)]
    | [] => []

def densitySeed (id owner : Nat) (row : Int) : Word :=
  0xFFFFFFFF ^^^ BitVec.ofNat 32 id ^^^ BitVec.ofInt 32 row ^^^ BitVec.ofNat 32 (owner * 2 ^ 29)

def densityPacket (id pass owner : Nat) (proxy : Bool) (row first : Int) (cells : List Nat) : List Word :=
  let ws := densityWords id pass owner proxy row first cells
  ws ++ [crcWords (densitySeed id owner row) ws]

/-- An owner's columns of a row stand in a ring. -/
def addDensity (row : Int) (owner : Nat) : List DensRow → List DensRow
  | [] => [{ row := row, owners := [owner] }]
  | r :: rs => if r.row = row then { r with owners := owner :: r.owners } :: rs else r :: addDensity row owner rs

/-- Write an owner's cells of a row, from its first column on, into a die's ring (R184, R187). -/
def Die.putDensity (row : Int) (owner : Nat) (first : Int) (cells : List Nat) (d : Die) : Die :=
  { d with
    sram := d.sram.writeHalves (ringAddr row first) cells
    con := { d.con with ring := addDensity row owner d.con.ring, expect := d.con.expect.set owner (row + 1), waitDensity := false } }

/-- Owners whose columns a die computes: its own, and for die 0 those of every retired die (01 R37). -/
def State.ownersOf (s : State) (die : Nat) : List Nat :=
  (List.range s.nDies).filter fun o => o == die || (die == 0 && (s.die o).retired)

/-- The highest set bit of a number below 8, plus one. -/
def msb3 (n : Nat) : Nat := if 4 ≤ n then 3 else if 2 ≤ n then 2 else if 1 ≤ n then 1 else 0

/-- Flits sent over the spanning tree rooted at the source (01 R33, R35): die x forwards on the ports above the highest bit in
which it differs from the source. -/
def State.countFlits (s : State) (src bytes : Nat) : State :=
  let dims := msb3 (s.nDies - 1)
  (List.range s.nDies).foldl (fun s x =>
    ((List.range dims).filter fun i => msb3 (Nat.xor x src) ≤ i).foldl (fun s i => s.count x (48 + i) (ceilDiv bytes 64)) s) s

/-- One owner's part of a coarse row: into the die's own ring, and as a packet to every other die. -/
def State.sendDensity (s : State) (st : Stripe) (pass die owner : Nat) (row : Int) (ps : List Piece) : State :=
  let k := st.tables.lrK
  let span := ownerSpan s.nDies k owner
  let cells := (List.range span.2).map fun (i : Nat) => cellDensity st.dose st.root.additive ps (span.1 + i) row
  let packet := densityPacket st.id pass owner (owner != die) row span.1 cells
  let s := s.modDie die (Die.putDensity row owner span.1 cells)
  let s := s.modDies fun d =>
    if d.retired || d.id = die then d else { d with con.fabric := d.con.fabric ++ [(owner, packet)] }
  s.countFlits die (4 * packet.length)

/-- The sequence below which a die's two passes have read the blocks of a stripe-pass: `first` before their first rows, `stop`
once the die has no work left of it. -/
def State.readPast (s : State) (st : Stripe) (pass first stop die : Nat) : Nat :=
  let d := s.die die
  let upTo := fun (begun : Bool) (y : Int) =>
    if !begun then first
    else match s.body st pass (st.root.segmentOf y) with
      | .read _ seq => seq
      | _ => first
  if d.tess.work != some (st.id, pass) then stop
  else
    let coarse := upTo (decide (-(st.tables.lrK : Int) ≤ d.tess.coarseRow)) (32 * d.tess.coarseRow + 31)
    if st.root.hasColumn (512 * die) then min coarse (upTo (decide (0 ≤ d.tess.fineRow)) (64 * d.tess.fineRow - 1)) else coarse

/-- Release what both Tessera passes of every die have read past (05 R145); a retained stream stands to the stripe's end. -/
def State.releaseRead (s : State) (st : Stripe) (pass : Nat) : State :=
  if st.root.streamBlocks ≤ 2048 then s
  else
    match s.areas[st.area]? with
    | none => s
    | some a =>
      let first := a.first + pass * st.root.streamBlocks
      let past := s.liveDies.map (s.readPast st pass first (first + st.root.streamBlocks))
      s.releaseBlocks st.area (past.min?.getD first)

/-- TESSERA_COARSE_BAND (R154, R167): the next coarse row, once its ring slot is released and its blocks are there. -/
def execTesseraCoarseBand (die : Nat) (s : State) : Res :=
  .next (match s.workOf die with
  | none => s
  | some (st, pass) =>
    let d := s.die die
    let k : Int := st.tables.lrK
    let row := d.tess.coarseRow + 1
    if !s.renders die || s.blockMissing st || d.con.ringOf != some (st.id, pass)
        || (st.root.coarseRows : Int) - 1 + k < row then s
    else if d.con.ringLow ≤ row - 128 then s.modDie die fun d => { d with tess.waitRing := true }
    else
      match s.body st pass (st.root.segmentOf (32 * row + 31)) with
      | .wait seq => s.waitBlock st seq
      | .fault c seq off => s.geoFaultAt st die pass c seq off
      | .read ps seq =>
        let owners := s.ownersOf die
        let s := owners.foldl (fun (s : State) o =>
          let span := ownerSpan s.nDies st.tables.lrK o
          let region : Box := { x0 := 8192 * span.1, y0 := 8192 * row, x1 := 8192 * (span.1 + span.2), y1 := 8192 * (row + 1) }
          let pieces := (bodyInsts (s.cellsOf st) region (bandPlaces st.root ps)).map fun i => Piece.of (i.cls, i.shape)
          s.sendDensity st pass die o row pieces) s
        let s := (s.modDie die fun d => { d with tess := { d.tess with coarseRow := row, waitRing := false } }).count die 11 1
        { s with areas := s.areas.modify st.area fun a => { a with expect := max a.expect seq } }.releaseRead st pass)

/-! ### The fine pass (R151, R154-R156) -/

/-- A die's true counts of a segment reach the declared bounds or exceed them (R140, R155). -/
def State.checkBounds (s : State) (st : Stripe) (die seg : Nat) : State :=
  let declared := ((st.root.segs.getD seg { active := 0, blocks := [] }).blocks).getD (die - st.root.firstBlock) (0, 0)
  match (s.die die).tess.counts.find? fun c => c.1 == seg with
  | none => s
  | some c =>
    if declared.2 < c.2.1 ∨ declared.1 < c.2.2 then { s with areas := s.areas.modify st.area fun a => { a with under := true } }
    else s

/-- Add to a segment's counts. -/
def addCounts (seg prims edges : Nat) : List (Nat × Nat × Nat) → List (Nat × Nat × Nat)
  | [] => [(seg, prims, edges)]
  | c :: cs => if c.1 = seg then (seg, c.2.1 + prims, c.2.2 + edges) :: cs else c :: addCounts seg prims edges cs

/-- The region of a segment on a die where instances count (R155): rows below 0 count in the first segment, rows beyond the
last in the last; no extent reaches rows beyond 2^50. -/
def Root.segmentBox (r : Root) (die seg : Nat) : Box :=
  let y0 : Int := if seg = 0 then -(2 ^ 50) else 256 * seg
  let y1 : Int := if seg + 1 = r.segments then 2 ^ 50 else 256 * (seg + 1)
  { x0 := 256 * (512 * (die : Int) - 8), y0 := 256 * y0, x1 := 256 * (512 * (die : Int) + 520), y1 := 256 * y1 }

/-- The fine region's box of a tile (R151). -/
def tileBox (die rows col : Nat) (ty : Int) : Box :=
  let t := tileSpan die rows col ty
  { x0 := 256 * t.1, y0 := 256 * t.2.2.1, x1 := 256 * (t.1 + t.2.1), y1 := 256 * (t.2.2.1 + t.2.2.2) }

/-- Bytes of a tile in the tile queue: those of its pieces, at least one each (01 R19; DESIGN CHOICE,
notes/assumptions/29.md). -/
def Tile.bytes (t : Tile) : Nat := (t.pieces.map fun p => max 1 (Config.pieceBytes p.2.vertices)).sum

/-- Whether the tile queue of 1 MiB takes more tiles; an empty one takes a whole tile row (DESIGN CHOICE,
notes/assumptions/29.md). -/
def Tess.takes (t : Tess) (tiles : List Tile) : Bool :=
  t.queue.isEmpty || decide (((t.queue ++ tiles).map Tile.bytes).sum ≤ 2 ^ 20)

/-- TESSERA_FINE_BAND (R154, R156): the next tile row, once the coarse pass leads by the kernel radius (R167) and the tile queue
takes it. -/
def execTesseraFineBand (die : Nat) (s : State) : Res :=
  .next (match s.workOf die with
  | none => s
  | some (st, pass) =>
    let d := s.die die
    let k : Int := st.tables.lrK
    let ty := d.tess.fineRow
    let last := (st.root.coarseRows : Int) - 1 + k
    if !s.renders die || s.blockMissing st || !st.root.hasColumn (512 * die) || st.root.lastTile < ty then s
    else if d.tess.coarseRow < min (2 * ty + 1 + k) last then s.modDie die fun d => { d with tess.waitCoarse := true }
    else
      match s.body st pass (st.root.segmentOf (64 * ty + 63)) with
      | .wait seq => s.waitBlock st seq
      | .fault c seq off => s.geoFaultAt st die pass c seq off
      | .read ps _ =>
        let cells := s.cellsOf st
        let records := bandPlaces st.root ps
        let seg := st.root.segmentOf (64 * ty)
        let insts := fun (b : Box) => (bodyInsts cells b records).filter fun i => i.box.meetsInside b
        let tiles := (List.range 10).map fun col =>
          ({ stripe := st.id, pass := pass, col := col, ty := ty,
             pieces := byClass ((insts (tileBox die st.root.rows col ty)).map fun i => (i.cls, i.shape)) } : Tile)
        if !d.tess.takes tiles then s.modDie die fun d => { d with tess := { d.tess with waitQueue := true, waitCoarse := false } }
        else
        let n := (tiles.map fun t => t.pieces.length).sum
        let prims := if ty = -1 || (0 < ty && ty % 4 == 0 && (ty / 4).toNat == seg) then
            (insts (st.root.segmentBox die seg)).length else 0
        let s := s.modDie die fun d =>
          { d with tess := { d.tess with
              fineRow := ty + 1, queue := d.tess.queue ++ tiles, instances := wrapAdd d.tess.instances n
              counts := addCounts seg prims 0 d.tess.counts, waitCoarse := false, waitQueue := false } }
        (((s.count die 8 n).count die 12 1).checkBounds st die seg).releaseRead st pass)

/-- LIBRARY_FETCH (R157, 04 R108): a cell cache fill, with a correctable error or without; a second failed fetch stops the
stripe. -/
def execLibraryFetch (die : Nat) (corrected ok1 ok2 : Bool) (s : State) : Res :=
  .next (match s.workOf die with
  | none => s
  | some (st, pass) =>
    if !s.renders die then s
    else
      let s := (s.modDie die fun d => { d with tess.cacheMiss := satInc d.tess.cacheMiss }).count die 10 1
      let s := if corrected then s.linkCe die 1 else s
      if ok1 then s
      else
        let s := s.linkUe die
        if ok2 then s
        else
          let s := (s.linkUe die).modDie die fun d =>
            { d with tess := { d.tess with fetchErr := satInc d.tess.fetchErr, fetchFault := true } }
          (s.detect 0x0003 die 0 (BitVec.ofNat 32 st.id) 0).stopStripe st.id pass)

/-! ### Facet (R162-R172) -/

/-- Bytes of a passed tile in the coverage buffer: one word a pixel (R165). -/
def TileOut.bytes (t : TileOut) : Nat := 4 * (t.px.map List.length).sum

def Tess.outBytes (t : Tess) : Nat := (t.tiles.map TileOut.bytes).sum

/-- Cycles beyond the model of R168: trapezoids of a POLY or PATH beyond 128 within the tile. -/
def excessCycles (b : Box) (ps : List Piece) : Nat :=
  (ps.map fun p =>
    (p.traps.filter fun t => decide (0 < t.areaIn b.x0 b.y0 ((b.x1 - b.x0 : Int) : Rat) ((b.y1 - b.y0 : Int) : Rat))).length - 128).sum

/-- FACET_TILE_RENDER (R162-R172): the tile at the head of the queue; `upset` is what a physical fault adds to the rendered
sum. -/
def execFacetTileRender (die : Nat) (upset : Int) (s : State) : Res :=
  .next (match (s.die die).tess.queue with
  | [] => s
  | t :: rest =>
    match s.stripe? t.stripe with
    | none => s
    | some st =>
      let span := tileSpan die st.root.rows t.col t.ty
      if !s.renders die || (s.die die).facetFailed || 2 ^ 21 < (s.die die).tess.outBytes + 4 * (span.2.1 * span.2.2.2) then s
      else
        let ps := t.pieces.map Piece.of
        let box := tileBox die st.root.rows t.col t.ty
        let sum := renderTile st.dose st.root.additive ps span
        let union := ((ps.map (·.cls)).dedup.filter fun c => !st.root.additive.contains c).length
        let excess := excessCycles box ps
        let s := ((s.count die 17 sum.edges).count die 18 sum.full).count die 19 (max 1 (ceilDiv union 4))
        let s := (s.modDie die fun d => { d with tess.excess := satAdd d.tess.excess excess }).count die 21 excess
        let diff := sum.f + upset - sum.t
        if diff.natAbs ≤ sum.tolerance then
          let seg := st.root.segmentOf span.2.2.1
          let s := s.modDie die fun d =>
            { d with tess := { d.tess with
                queue := rest, rerender := false, passed := wrapAdd d.tess.passed 1
                tiles := d.tess.tiles ++ [{ col := t.col, ty := t.ty, px := sum.px }]
                counts := addCounts seg 0 sum.edges d.tess.counts } }
          (s.count die 16 1).checkBounds st die seg
        else
          let s := s.modDie die fun d =>
            { d with tess := { d.tess with
                rerender := true, chkCol := t.col, chkRow := t.ty, chkStripe := t.stripe, chkDiff := diff } }
          (s.count die 20 1).detect 0x0001 die 0 (BitVec.ofInt 32 t.ty) (BitVec.ofInt 32 diff))

/-! ### The density broadcast (07 R184-R187) -/

/-- Whether a packet's owner, first column and count match R35 and R37 for the ring's stripe. -/
def State.packetShape (s : State) (st : Stripe) (link : Nat) (ws : List Word) : Bool :=
  let owner := wordAt ws 1 / 8 % 8
  let count := wordAt ws 1 / 65536
  let span := ownerSpan s.nDies st.tables.lrK owner
  owner == link && owner < s.nDies && signed 16 (wordAt ws 3) == span.1 && count == span.2
    && ws.length == 5 + ceilDiv count 2 && bit (wordAt ws 1) 6 == (s.die owner).retired

/-- What a received packet is to a die (R186, R187): a fault of a kind (0 CRC, 2 stripe-pass, 1 row, 3 owner, first or
count), one that waits in the fabric, or the expected row. -/
inductive PacketCheck where
  | fault (kind : Nat)
  | waits
  | row
  deriving DecidableEq, Repr

/-- R186, R187: a packet waits for its ring slot, and one of the next stripe-pass in render order waits for the ring. -/
def State.packetCheck (s : State) (die link : Nat) (st : Stripe) (pass : Nat) (ws : List Word) : PacketCheck :=
  let row := signed 32 (wordAt ws 2)
  let owner := wordAt ws 1 / 8 % 8
  let named := (wordAt ws 0, wordAt ws 1 % 8)
  if wordAt ws (ws.length - 1) ≠ (crcWords (densitySeed (wordAt ws 0) owner row) ws.dropLast).toNat ∨ ws.length < 5 then .fault 0
  else if named ≠ (st.id, pass % 8) then
    if some named = s.nextRender.map fun x => (x.id, x.rendered % 8) then .waits else .fault 2
  else if row ≠ (s.die die).con.expect.getD owner 0 then .fault 1
  else if !s.packetShape st link ws then .fault 3
  else if (s.die die).con.ringLow ≤ row - 128 then .waits
  else .row

/-- The fabric link by which a packet for a die arrives, from the highest dimension in which its sender differs (01 R33): the
owner, or die 0 in its place. -/
def packetLink (die : Nat) (f : Nat × List Word) : Nat := msb3 (Nat.xor die (if bit (wordAt f.2 1) 6 then 0 else f.1))

/-- The first packet of an owner that waits for a die, if no packet is before it on its link (R187). -/
def Contour.packet? (c : Contour) (die owner : Nat) : Option (Nat × List Word) :=
  (c.fabric.find? fun f => f.1 == owner).bind fun f =>
    if (c.fabric.find? fun g => packetLink die g == packetLink die f) = some f then some f else none

/-- A density fault (R186): recorded and reported on the die, and a stop sent to every die. -/
def State.densityFault (s : State) (die kind id pass : Nat) (ws : List Word) : State :=
  let s := s.modDie die fun d =>
    { d with con := { d.con with
        densFault := true, faultOwner := wordAt ws 1 / 8 % 8, faultKind := kind
        faultRow := signed 27 (wordAt ws 2) } }
  let s := s.modDies fun d => if d.retired then d else { d with con.stops := d.con.stops ++ [(id, pass)] }
  s.detect 0x0004 die 0 (BitVec.ofNat 32 (wordAt ws 2)) 0

/-- DENSITY_PACKET_RX (R186, R187): the next packet of an owner, as sent or as the line garbled it. -/
def execDensityPacketRx (die owner : Nat) (received : Option (List Word)) (s : State) : Res :=
  .next (match (s.die die).con.packet? die owner, s.ringOf die with
  | some sent, some (st, pass) =>
    if !s.renders die then s
    else
      let ws := received.getD sent.2
      let take := fun (s : State) => (s.modDie die fun d => { d with con.fabric := d.con.fabric.erase sent }).count die 54 1
      match s.packetCheck die owner st pass ws with
      | .fault kind => (take s).densityFault die kind st.id pass ws
      | .waits => s.modDie die fun d => { d with con.fabric := d.con.fabric.map fun f => if f = sent then (owner, ws) else f }
      | .row =>
        let span := ownerSpan s.nDies st.tables.lrK owner
        let hs := ((ws.drop 4).dropLast).flatMap fun w => [w.toNat % 65536, w.toNat / 65536]
        (take s).modDie die (Die.putDensity (signed 32 (wordAt ws 2)) owner span.1 (hs.take span.2))
  | _, _ => s)

/-- STRIPE_PASS_STOP (R186): a stop that was sent reaches the die. -/
def execStripePassStop (die stripe pass : Nat) (s : State) : Res :=
  .next (if !(s.die die).con.stops.contains (stripe, pass) then s
  else
    (s.modDie die fun d => { d with con.stops := d.con.stops.erase (stripe, pass) }).stopPassOn die stripe pass)

/-! ### The long-range unit (R179, R180, R188) -/

/-- The cell factor of a long-range sum (R180). -/
def cellFactor (t : Tables) (e : Nat) : Nat :=
  let x := e / 2 ^ (20 - t.corrS)
  let i := x / 256
  let f := x % 256
  let at_ := fun (j : Nat) => t.corrT.getD j 0
  if 1023 ≤ i then at_ 1023 else ((at_ i : Int) + roundDiv (((at_ (i + 1) : Int) - at_ i) * f) 256).toNat

/-- The long-range sum of a cell (R179). -/
def longRangeSum (t : Tables) (density : Int → Int → Nat) (cx cy : Int) : Nat :=
  let n := 2 * t.lrK + 1
  ((List.range n).map fun j => ((List.range n).map fun i =>
    t.lrCoef.getD (j * n + i) 0 * density (cx + i - t.lrK) (cy + j - t.lrK)).sum).sum

/-- The density of a coarse cell in a die's ring (R184). -/
def Die.density (d : Die) (cx cy : Int) : Nat := d.sram.half (ringAddr cy cx)

/-- A ring row holds every owner's columns. -/
def DensRow.complete (dies : Nat) (r : DensRow) : Bool := (List.range dies).all fun o => r.owners.contains o

/-- LONG_RANGE_ROW (R188): the factors of the next coarse row, from the densities in the ring's slots (an upset one acts under
04 R113); a die outside the stripe only releases rows. -/
def execLongRangeRow (die : Nat) (s : State) : Res :=
  .next (match s.ringOf die with
  | none => s
  | some (st, pass) =>
    let d := s.die die
    let k := st.tables.lrK
    let c := d.con.lrNext
    let rows := st.root.coarseRows
    let part := st.root.hasColumn (512 * die)
    let whole := fun (j : Int) => d.con.ring.any fun r => r.row == j && r.complete s.nDies
    let oldNeeded : Bool := decide (8 ≤ d.con.factors.length) &&
      (match d.con.factors.head? with | some f => decide (2 * d.con.next ≤ f.1 + 1) | none => false)
    if !s.renders die then s
    else if !part then
      let n := ((List.range 128).takeWhile fun i => whole (d.con.ringLow + i)).length
      if n = 0 then s.modDie die fun d => { d with con.waitDensity := true }
      else
        let low := d.con.ringLow + n
        let ended : Bool := decide ((rows : Int) + k ≤ low)
        (s.modDie die fun d =>
          { d with con := { d.con with
              ringLow := low, ring := d.con.ring.filter fun r => low ≤ r.row, waitDensity := false
              ringOf := if ended then none else d.con.ringOf } }).settle st.id pass
    else if oldNeeded then s
    else if !((List.range (2 * k + 1)).all fun i => whole ((c : Int) + i - k)) then
      s.modDie die fun d => { d with con.waitDensity := true }
    else
      let s := s.unitReads die 4 fun a =>
        0x700000 ≤ a && a < 0x710000 && (List.range (2 * k + 1)).any fun i => (((c : Int) + i - k) % 128).toNat == (a - 0x700000) / 0x200
      if s.ctl.resetRequest == some .sramError then s
      else
      let cols : Int := 16 * s.nDies
      let x0 := max (16 * (die : Int) - 1) 0
      let x1 := min (16 * (die : Int) + 16) (cols - 1)
      let fs := (List.range (x1 + 1 - x0).toNat).map fun (i : Nat) =>
        (x0 + (i : Int), cellFactor st.tables (longRangeSum st.tables (s.die die).density (x0 + i) c))
      let ended : Bool := decide (rows ≤ c + 1)
      let low : Int := if ended then (rows : Int) + k else (c : Int) + 1 - k
      (s.modDie die fun d =>
        let kept := if 8 ≤ d.con.factors.length then d.con.factors.tail else d.con.factors
        { d with con := { d.con with
            factors := kept ++ [(c, fs)], lrNext := c + 1, ringLow := max low d.con.ringLow
            ring := d.con.ring.filter fun r => low ≤ r.row, waitDensity := false, waitFactor := false
            ringOf := if ended then none else d.con.ringOf } }).settle st.id pass)

/-! ### Render blocks (R174, R181, R190-R193) -/

/-- The long-range factor of a pixel (R181). -/
def pixelFactor (factors : List (Nat × List (Int × Nat))) (cols rows : Nat) (x y : Nat) : Nat :=
  let ax : Int := 2 * x - 31
  let ay : Int := 2 * y - 31
  let cx := ax / 64
  let wx := (ax % 64).toNat
  let cy := ay / 64
  let wy := (ay % 64).toNat
  let mc := fun (i j : Int) =>
    let c := max 0 (min i (cols - 1))
    let r := (max 0 (min j (rows - 1))).toNat
    match factors.find? fun f => f.1 == r with
    | none => 0
    | some f => ((f.2.find? fun q => q.1 == c).map (·.2)).getD 0
  ((64 - wx) * (64 - wy) * mc cx cy + wx * (64 - wy) * mc (cx + 1) cy + (64 - wx) * wy * mc cx (cy + 1)
    + wx * wy * mc (cx + 1) (cy + 1) + 2048) / 4096

/-- Base dose of a pixel from a die's passed tiles. -/
def baseDose (die rows : Nat) (tiles : List TileOut) (x y : Int) : Nat :=
  let ty := y / 64
  let dx := (x - (512 * (die : Int) - 8)).toNat
  let col := if dx < 8 then 0 else if dx < 520 then 1 + (dx - 8) / 64 else 9
  let i := if dx < 8 then dx else if dx < 520 then (dx - 8) % 64 else dx - 520
  match tiles.find? fun t => t.ty == ty && t.col == col with
  | none => 0
  | some t =>
    let y0 := (tileSpan die rows col ty).2.2.1
    ((t.px.getD (y - y0).toNat []).getD i 0) % 2 ^ 24

/-- The corrected dose of a pixel before the ceiling (R174), and whether S was below 0. -/
def correctedDose (t : Tables) (dose : Int → Int → Nat) (factor : Nat) (x y : Int) : Nat × Bool :=
  let n := 2 * t.srR + 1
  let sum : Int := ((List.range n).map fun j => ((List.range n).map fun i =>
    t.srCoef.getD (j * n + i) 0 * (dose (x + i - t.srR) (y + j - t.srR) : Nat)).sum).sum
  ((roundDiv (max sum 0 * factor) (2 ^ 28)).toNat, decide (sum < 0))

/-- Bits of one DEFLATE match of a length at distance 1 with the fixed codes (14 R359). -/
def matchBits (n : Nat) : Nat :=
  if n ≤ 10 then 12 else if n ≤ 18 then 13 else if n ≤ 34 then 14 else if n ≤ 66 then 15
  else if n ≤ 114 then 16 else if n ≤ 130 then 17 else if n ≤ 257 then 18 else 13

/-- Bits of a run of a byte already in the window. -/
def runBits (literal n : Nat) : Nat :=
  13 * (n / 258) + (if n % 258 = 0 then 0 else if n % 258 < 3 then literal * (n % 258) else matchBits (n % 258))

/-- Length in bytes of a stream of one byte value throughout, coded with the fixed codes in segments of 16,384 bytes (14 R359). -/
def equalLength (byte total : Nat) : Nat :=
  let literal := if byte < 144 then 8 else 9
  let segs := (List.range (ceilDiv total 16384)).map fun i => min 16384 (total - 16384 * i)
  let bits := (segs.zipIdx.map fun x =>
    if x.2 = 0 then 10 + literal + runBits literal (x.1 - 1) else 10 + runBits literal x.1).sum
  ceilDiv bits 8

/-- The raw bytes of a render block (R192). -/
def blockBytes (rows : List (List Nat)) : List Byte :=
  rows.flatMap fun r => r.flatMap fun p => [BitVec.ofNat 8 p, BitVec.ofNat 8 (p / 256)]

/-- Length of a compressed block: fixed by R359 where every byte is equal and the tables are static, else a free value. -/
def compressedSize (cmode : Bool) (n : Nat) (bs : List Byte) : Nat :=
  match bs with
  | [] => 0
  | b :: _ => if !cmode && bs.all (· == b) then equalLength b.toNat bs.length else Config.compressedLength n

/-- Bytes of a block in the data ring (R192). -/
def RaBlock.padded (b : RaBlock) : Nat := 64 * ceilDiv b.length 64

/-- Whether 64-byte units from the next offset on are free in the data ring, which holds `size` of them: no standing block
begins among them, and none reaches them. -/
def Contour.ringFree (c : Contour) (size units : Nat) : Bool :=
  decide (units ≤ size) && c.ra.all fun b =>
    decide (units ≤ (b.offset + size - c.raPut) % size) && decide (b.padded / 64 ≤ (c.raPut + size - b.offset) % size)

/-- Words 0 to 14 of an index entry (Table 7-8). -/
def RaBlock.words (b : RaBlock) : List Word :=
  [BitVec.ofNat 32 b.stripe, BitVec.ofNat 32 (b.rows.length * 65536 + b2n b.comp * 8 + b.pass % 8), BitVec.ofNat 32 b.ty,
    BitVec.ofNat 32 b.offset, BitVec.ofNat 32 b.length, b.dataCrc] ++ List.replicate 9 0

def dataSeed (id ty pass : Nat) : Word := 0xFFFFFFFF ^^^ BitVec.ofNat 32 id ^^^ BitVec.ofNat 32 (ty % 2 ^ 29 + pass * 2 ^ 29)

/-- The passed tiles and factors of a block are present (R190). -/
def Die.blockReady (d : Die) (st : Stripe) (ty : Nat) : Bool × Bool :=
  let r : Int := st.tables.srR
  let rows := st.root.rows
  let t0 := (64 * (ty : Int) - r) / 64
  let t1 := (min (64 * (ty : Int) + 63) ((rows : Int) - 1) + r) / 64
  let tiles := (List.range (t1 + 1 - t0).toNat).all fun i => (List.range 10).all fun col =>
    d.tess.tiles.any fun t => t.ty == t0 + i && t.col == col
  let last := st.root.coarseRows - 1
  let need := ([2 * ty - 1, 2 * ty, 2 * ty + 1, 2 * ty + 2].map fun c => min c last)
  (tiles, need.all fun c => d.con.factors.any fun f => f.1 == c)

/-- RENDER_BLOCK (R190-R193): `verifyFails` is what a physical fault makes of the compressor's verification. -/
def execRenderBlock (die : Nat) (verifyFails : Bool) (s : State) : Res :=
  .next (match s.workOf die with
  | none => s
  | some (st, pass) =>
    let d := s.die die
    let ty := d.con.next
    let ready := d.blockReady st ty
    if !s.renders die || !st.root.hasColumn (512 * die) || d.contourFailed || st.root.rows ≤ 64 * ty then s
    else if !ready.1 then s.modDie die fun d => { d with con.waitTile := true }
    else if !ready.2 then s.modDie die fun d => { d with con.waitFactor := true }
    else
      let n := min 64 (st.root.rows - 64 * ty)
      let px := (List.range n).map fun i => (List.range 512).map fun x =>
        let gx := 512 * die + x
        let gy := 64 * ty + i
        correctedDose st.tables (baseDose die st.root.rows d.tess.tiles)
          (pixelFactor d.con.factors (16 * s.nDies) st.root.coarseRows gx gy) gx gy
      let capped := (px.map fun r => (r.filter fun p => decide (st.ceiling < p.1)).length).sum
      let neg := (px.map fun r => (r.filter fun p => p.2).length).sum
      let rows := px.map fun r => r.map fun p => min p.1 st.ceiling
      let bs := blockBytes rows
      let compress := d.con.compress && !d.comp.off
      let size := compressedSize d.con.cmode s.free bs
      let comp := compress && !verifyFails && size < bs.length
      let b : RaBlock :=
        { stripe := st.id, pass := pass, ty := ty, rows := rows, comp := comp, offset := d.con.raPut
          length := if comp then size else bs.length, dataCrc := crc32c (dataSeed st.id ty pass) bs, entryCrc := 0 }
      let b := { b with entryCrc := crcWords 0xFFFFFFFF b.words }
      let units := b.padded / 64
      if !d.con.ringFree (d.con.raMib * 16384) units || d.con.raMib * 64 ≤ d.con.ra.length then
        s.modDie die fun d => { d with con := { d.con with waitBuffer := true, waitTile := false, waitFactor := false } }
      else
        let raw := compress && !comp
        let s := s.modDie die fun d =>
          { d with
            tess.tiles := d.tess.tiles.filter fun t => (ty : Int) - 1 < t.ty
            con := { d.con with
              next := ty + 1, block := ty, ra := d.con.ra ++ [b], raPut := (d.con.raPut + units) % (d.con.raMib * 16384)
              factors := d.con.factors.filter fun f => decide (2 * ty ≤ f.1)
              ceilCount := satAdd d.con.ceilCount capped, negCount := satAdd d.con.negCount neg
              rawCount := if raw then satInc d.con.rawCount else d.con.rawCount
              waitTile := false, waitFactor := false, waitBuffer := false }
            comp.blocks := if comp then wrapAdd d.comp.blocks (ceilDiv bs.length 16384) else d.comp.blocks }
        let s := (((s.count die 24 1).count die 25 capped).count die 26 neg).count die 28 b.length
        let s := if raw then s.count die 27 1 else s
        let s := (s.count die 41 units).dramAccess die (renderPages b.offset units)
        let s := if compress then ({ s with free := s.free + 1 }.count die 56 bs.length).count die 57 (if comp then size else 0) else s
        let s := if compress && verifyFails then
            (s.modDie die fun d =>
              { d with comp := { d.comp with verifyFail := satInc d.comp.verifyFail, verifySeen := true } }).detect
              0x0007 die 0 (BitVec.ofNat 32 ty) 0
          else s
        s.settle st.id pass)

/-! ### The render-ahead reader (R194, 01 R21, 04 R108) -/

/-- Rows of a block that are already in the beam window. -/
def Die.rowsPlaced (d : Die) (b : RaBlock) : Nat :=
  (d.lat.window.filter fun w => w.stripe == b.stripe && w.pass == b.pass && w.y / 64 == b.ty).length

/-- The last pixel row the reader may fill: m + 7, where m is the shot Lattice works on (R21). -/
def State.fillLimit (s : State) : Nat := s.latticeNext - 1 + 7

/-- The blocks of the stripe-pass that Lattice reads, in index order. -/
def State.passBlocks (s : State) (die : Nat) : List RaBlock :=
  match s.seq.stripes with
  | [] => []
  | st :: _ =>
    if st.root.hasColumn (512 * die) then (s.die die).con.ra.filter fun b => b.stripe == st.id && b.pass == st.pass else []

def RaBlock.key (b : RaBlock) : Nat × Nat × Nat := (b.stripe, b.pass, b.ty)

/-- A block leaves the render-ahead buffer and the staging area. -/
def Contour.release (c : Contour) (b : RaBlock) : Contour := { c with ra := c.ra.erase b, checked := c.checked.erase b.key }

/-- A block is skipped whole (R194). -/
def State.skipBlock (s : State) (die : Nat) (b : RaBlock) : State :=
  (s.modDie die fun d =>
    { d with con := { d.con.release b with
        rdFail := satInc d.con.rdFail, rdFault := true
        lost := d.con.lost ++ [(b.stripe, b.pass, b.ty, false)] } }).detect 0x0005 die 0 (BitVec.ofNat 32 b.ty) 0

/-- Rows enter the beam window, with their pixels in the slots of the window (04 Table 4-3). -/
def Die.putRows (b : RaBlock) (first : Nat) (rows : List (List Nat)) (d : Die) : Die :=
  { d with
    sram := rows.zipIdx.foldl (fun m r => m.writeHalves (windowAddr (64 * b.ty + first + r.2) 0) r.1) d.sram
    lat := { d.lat with
      window := d.lat.window ++ (List.range rows.length).map fun i =>
        ({ stripe := b.stripe, pass := b.pass, y := 64 * b.ty + first + i } : WinRow)
      waitRow := d.lat.waitRow && rows.isEmpty } }

/-- Rows of a checked block enter the beam window as far as R21 allows; the block is released with its last row. -/
def State.placeRows (s : State) (die : Nat) (b : RaBlock) : State :=
  let done := (s.die die).rowsPlaced b
  let n := min (s.fillLimit + 1 - (64 * b.ty + done)) (b.rows.length - done)
  let s := s.modDie die fun d =>
    let d := d.putRows b done ((b.rows.drop done).take n)
    { d with con := if done + n = b.rows.length then d.con.release b else d.con }
  (s.count die 40 (16 * n)).updatePanic die

/-- The SRAM byte that a block passes on its way, if one of its bytes is upset: withheld or delivered (04 R112, R113). -/
def State.bufferRead (s : State) (die : Nat) (upset : Option (Nat × Nat × Stored)) : Option Byte × State :=
  match upset with
  | none => (some 0, s)
  | some (port, a, mask) => (s.modDie die fun d => { d with sram := d.sram.upset a mask }).sramRead die port a

/-- Pixel rows from raw data (R192). -/
def pixelRows (bs : List Byte) : List (List Nat) :=
  let at_ := fun (i : Nat) => (bs.getD i 0).toNat
  (List.range (bs.length / 1024)).map fun y => (List.range 512).map fun x =>
    at_ (1024 * y + 2 * x) + 256 * at_ (1024 * y + 2 * x + 1)

/-- The checks of a block (R194), in their order, on the index entry and the raw data that the reader sees: the rows, if all
hold. `data` is none where a stream does not decompress. -/
def RaBlock.accepted (b : RaBlock) (entry : List Word) (data : Option (List Byte)) : Option (List (List Nat)) :=
  let rows := bits (wordAt entry 1) 22 16
  if wordAt entry 15 ≠ (crcWords 0xFFFFFFFF (takeWords entry 15)).toNat then none
  else if wordAt entry 0 ≠ b.stripe ∨ wordAt entry 1 % 8 ≠ b.pass % 8 ∨ signed 32 (wordAt entry 2) ≠ b.ty then none
  else
    match data with
    | none => none
    | some bs =>
      if bs.length = 1024 * rows ∧ wordAt entry 5 = (crc32c (dataSeed b.stripe b.ty b.pass) bs).toNat then some (pixelRows bs)
      else none

/-- What the read of a block brings: its rows, which wait for R21, or their loss (R194). -/
def State.blockAnswered (s : State) (die : Nat) (b : RaBlock) (answer : RaRead) : State :=
  match answer with
  | .missing => ((s.linkUe die).linkUe die).skipBlock die b
  | .read corrected retried entry data =>
    let s := (List.range retried).foldl (fun s _ => s.linkUe die) (s.linkCe die corrected)
    match b.accepted (entry.getD (b.words ++ [b.entryCrc])) (data.getD (some (blockBytes b.rows))) with
    | none => s.skipBlock die b
    | some rows => s.modDie die fun d =>
      { d with con := { d.con with
          ra := d.con.ra.map fun x => if x = b then { b with rows := rows } else x
          checked := d.con.checked ++ [b.key] } }

/-- The first of the blocks that is to be read: not yet checked, and with room in the staging area, which holds two. -/
def Contour.toRead (c : Contour) (bs : List RaBlock) : Option RaBlock :=
  if c.checked.length < 2 then (bs.take 2).find? fun b => !c.checked.contains b.key else none

/-- Rows of the first block of the pass enter the window, if it is checked and R21 leaves room. -/
def State.placeFirst (s : State) (die : Nat) : State :=
  match s.passBlocks die with
  | b :: _ =>
    if (s.die die).con.checked.contains b.key && decide (64 * b.ty + (s.die die).rowsPlaced b ≤ s.fillLimit) then s.placeRows die b
    else s
  | [] => s

/-- RENDER_AHEAD_READ (R194): the answer of the real-time port for the next block to be checked, and an upset that strikes an
SRAM byte which the given port reads: port, address, flipped bits. Then rows enter the beam window as far as they may. -/
def execRenderAheadRead (die : Nat) (answer : RaRead) (upset : Option (Nat × Nat × Stored)) (s : State) : Res :=
  .next (if !s.renders die || (s.die die).contourFailed || (s.passBlocks die).isEmpty then s
  else
    let r := s.bufferRead die upset
    if r.1.isNone then r.2
    else
      let s := r.2
      (match (s.die die).con.toRead (s.passBlocks die) with
      | none => s
      | some b =>
        let s := s.dramAccess die (renderPages b.offset (b.padded / 64))
        (if b.comp then s.count die 58 (1024 * b.rows.length) else s).blockAnswered die b answer).placeFirst die)

end Sys2Proof.Machine
end

