-- ==== Sys2Proof/Machine/Tables.lean ====
section
/-! DEFINITION. Table images: the dose, kernel, correction, mask, ramp and beam tables, their checks and generations
(07_dose_correction.md R176-R178, 08_beam_mapping.md R198-R206, 02_host_commands.md R62). -/

namespace Sys2Proof.Machine

/-- Beams of the variant (08 R204). -/
def State.beams (s : State) : Nat := 32768 * s.nDies

/-- The little-endian half-words of an image. -/
def halves (ws : List Word) : List Nat := ws.flatMap fun w => [w.toNat % 65536, w.toNat / 65536]

/-- Half-words as words, a final odd half filled with 0. -/
def halvesWords : List Nat → List Word
  | a :: b :: rest => BitVec.ofNat 32 (a % 65536 + b % 65536 * 65536) :: halvesWords rest
  | [a] => [BitVec.ofNat 32 (a % 65536)]
  | [] => []

/-- Coefficients of a kernel of a radius. -/
def kernelCount (radius : Nat) : Nat := (2 * radius + 1) * (2 * radius + 1)

/-- Width of the own field in word 1 (Tables 7-1 to 7-4, 8-1 to 8-3). -/
def tableField (tid : Nat) : Nat :=
  match tid with | 2 => 6 | 3 => 4 | 4 => 3 | 5 => 3 | 6 => 9 | _ => 0

/-- Length of an image in bytes; word 1 gives the radius of a kernel (R177 condition 1). -/
def tableLength (beams tid w1 : Nat) : Nat :=
  match tid with
  | 1 => 1040
  | 2 => 16 + 4 * ceilDiv (kernelCount (w1 % 64)) 2
  | 3 => 2064
  | 4 => 16 + 4 * ceilDiv (kernelCount (w1 % 8)) 2
  | 5 => 152
  | 6 => 528
  | _ => 16 + 2 * beams

/-- Byte offset of the first half-word, from a byte offset on, that a test picks. -/
def firstHalf (off : Nat) (p : Nat → Nat → Bool) (hs : List Nat) : Option Nat :=
  (hs.zipIdx.find? fun x => p x.2 x.1).map fun x => off + 2 * x.2

/-- The first of two findings. -/
def orElseFind (a b : Option Nat) : Option Nat := match a with | some x => some x | none => b

/-- Conditions 4 to 6 of R177 and those of R200, R201 and R205: the failing offset. -/
def tableContent (tid w1 : Nat) (hs : List Nat) : Option Nat :=
  match tid with
  | 2 => if 65536 < (hs.take (kernelCount w1)).sum then some 16 else none
  | 3 => if w1 < 6 ∨ 12 < w1 then some 4 else none
  | 4 =>
    let sum := ((hs.take (kernelCount w1)).map (signed 16)).sum
    if sum < 8192 ∨ 32768 < sum then some 16 else none
  | 5 =>
    let select := (hs.take 4).zipIdx.map fun x => onesIn x.1 16
    if select.sum ≠ 2 ^ w1 then some 16 else firstHalf 24 (fun _ v => decide (0x8000 < v)) (hs.drop 4)
  | 6 =>
    if 256 < w1 then some 4
    else
      orElseFind (firstHalf 16 (fun _ v => decide (0x8000 < v)) hs) (firstHalf 16 (fun d v => w1 ≤ d && v != 0) hs)
  | 7 => firstHalf 16 (fun _ v => v / 16384 < 2 && v % 4096 < 0x200) hs
  | _ => none

/-- Reserved fields and padding after the header (R177 condition 3). -/
def tableReserved (tid w1 : Nat) (hs : List Nat) : Option Nat :=
  match tid with
  | 2 => if (hs.drop (kernelCount (w1 % 64))).any (0 < ·) then some (16 + 2 * kernelCount (w1 % 64)) else none
  | 4 => if (hs.drop (kernelCount (w1 % 8))).any (0 < ·) then some (16 + 2 * kernelCount (w1 % 8)) else none
  | 7 => firstHalf 16 (fun _ v => v / 4096 % 4 != 0) hs
  | _ => none

/-- The first failing condition of an image (R177): its byte offset, 0xFFFF_FFFF for the length. -/
def tableCheck (beams tid len : Nat) (ws : List Word) : Option Nat :=
  let w1 := wordAt ws 1
  let hs := halves (ws.drop 4)
  if len < 16 ∨ len ≠ tableLength beams tid w1 then some 0xFFFFFFFF
  else if wordAt ws 0 ≠ 0x100 + tid then some 0
  else if 2 ^ tableField tid ≤ w1 then some 4
  else if wordAt ws 2 ≠ 0 then some 8
  else if wordAt ws 3 ≠ 0 then some 12
  else orElseFind (tableReserved tid w1 hs) (tableContent tid w1 hs)

/-- Entries (status, gain) that differ from live at 1.0, by beam. -/
def beamEntries (hs : List Nat) : List (Nat × Nat × Nat) :=
  hs.zipIdx.filterMap fun x =>
    let e := (x.1 / 16384, x.1 % 4096)
    if e = (0, 0x800) then none else some (x.2, e)

/-- A new generation of one table (R178). -/
def Tables.load (t : Tables) (tid index : Nat) (ws : List Word) : Tables :=
  let w1 := wordAt ws 1
  let hs := halves (ws.drop 4)
  let t := { t with gens := t.gens.modify (tid - 1) fun g => wrapAdd g 1 }
  match tid with
  | 1 => { t with classes := (ws.drop 4).map fun w => (w.toNat % 65536, w.toNat / 65536) }
  | 2 => { t with lrK := w1, lrCoef := hs.take (kernelCount w1) }
  | 3 => { t with corrS := w1, corrT := hs }
  | 4 => { t with srR := w1, srCoef := (hs.take (kernelCount w1)).map (signed 16) }
  | 5 =>
    { t with
      masks := t.masks.set index
        { log2k := w1, select := BitVec.ofNat 64 (word64 ws 4), weights := hs.drop 4 } }
  | 6 => { t with ramps := t.ramps.set index { w := w1, ramp := hs } }
  | _ => { t with beams := beamEntries hs }

/-- The image of a table: the newest generation, for the beam table the effective one (R178, R206). -/
def State.tableImage (s : State) (tid index : Nat) : List Word :=
  let t := s.tables
  let image := fun (w1 : Nat) (hs : List Nat) => [BitVec.ofNat 32 (0x100 + tid), BitVec.ofNat 32 w1, 0, 0] ++ halvesWords hs
  match tid with
  | 1 => image 0 (t.classes.flatMap fun c => [c.1, c.2])
  | 2 => image t.lrK t.lrCoef
  | 3 => image t.corrS t.corrT
  | 4 => image t.srR (t.srCoef.map (unsigned 16))
  | 5 =>
    let m := t.mask index
    image m.log2k ((List.range 4).map (fun i => m.select.toNat / 65536 ^ i % 65536) ++ m.weights)
  | 6 => let r := t.ramps.getD index Ramp.reset; image r.w r.ramp
  | _ =>
    let eff := effectiveBeams t.beams s.seq.overlay
    image 0 ((List.range s.beams).map fun b => let e := beamAt eff b; e.1 * 16384 + e.2)

/-- Whether a table id and index name a table (R177, R200, R201, R204). -/
def tableNamed (tid index : Nat) : Bool :=
  1 ≤ tid && tid ≤ 7 && (if tid = 5 ∨ tid = 6 then index < 16 else index == 0)

/-- TABLE_LOAD (R177, R178, 08 R200, R204: every table but the ramps takes the target 0xFFFF only; whatever the target, the new
generation is made on every non-retired die). The outside data is the image. -/
def tableLoadBody (env : List Word) (p : Packet) (c : Ctx) (s : State) : State :=
  let tid := p.param 0 % 256
  let index := p.param 0 / 256 % 65536
  if (!p.isDev && tid != 6) || !tableNamed tid index then s.finish c badParam []
  else
    let ws := takeWords env (tableLength s.beams tid (wordAt env 1) / 4)
    let s := s.hostRead (p.param 3)
    match tableCheck s.beams tid (p.param 3) ws with
    | some off => s.finish c tableFormat [off]
    | none =>
      let t := s.tables.load tid index ws
      let s := { s with tables := t }
      (if tid = 7 then s.updateUncomp else s).finish c ok [(crcWords 0xFFFFFFFF ws).toNat, t.gens.getD (tid - 1) 0]

/-- TABLE_READ (R178, R206): the image is written to host memory up to the length given. -/
def tableReadBody (p : Packet) (c : Ctx) (s : State) : State :=
  let tid := p.param 0 % 256
  let index := p.param 0 / 256 % 65536
  if !tableNamed tid index then s.finish c badParam []
  else
    let ws := s.tableImage tid index
    let bs := (wordsBytes ws).take (p.param 3)
    ((s.emits (byteBursts bs.length (p.param64 1) bs)).count 0 180 bs.length).finish c ok [(crcWords 0xFFFFFFFF ws).toNat]

def execTableLoad (p : Packet) (env : List Word) (s : State) : Res := s.direct 0x0103 p (tableLoadBody env)
def execTableRead (p : Packet) (s : State) : Res := s.direct 0x0104 p tableReadBody

end Sys2Proof.Machine
end

