-- ==== Sys2Proof/Machine/Admission.lean ====
section
/-! DEFINITION. Admission of stripes: the descriptor, the checks in R222's order, the rate and prefill search, the entries
written at admission, make-up stripes (09_stripes_ledger.md R220-R226, R241, R245, R246, 08 R200, R206, R212, R213). -/

namespace Sys2Proof.Machine

/-! ### The descriptor (R220) -/

/-- A descriptor whose fields are in range. -/
structure Desc where
  id : Nat
  ramps : List Nat
  start : Nat
  passes : List PassDesc
  rateMin : Nat
  rateReq : Nat
  startPos : Int
  stepPos : Int
  startRef : Nat
  first : Nat
  count : Nat
  deriving DecidableEq, Repr

/-- Half-word i of param3 to param6. -/
def passWord (p : Packet) (i : Nat) : Nat := p.param (3 + i / 2) / 65536 ^ (i % 2) % 65536

/-- The descriptor of a submission, if every field is in its range (R220, Table 9-1). -/
def descriptor (p : Packet) (makeup : Bool) : Option Desc :=
  let w := p.param 1
  let n := bits w 3 0
  let start := bits w 5 4
  let req := p.param 2 % 65536
  let low := p.param 2 / 65536
  let ws := (List.range 8).map (passWord p)
  let okPasses := (ws.take n).all (fun d => d / 1024 == 0) && (ws.drop n).all (· == 0)
  let okStart := start == 2 || (start == 0 && p.param 11 == 0) || (start == 1 && p.param 11 ≤ 11)
  if p.param 0 = 0xFFFFFFFF ∨ w / 2 ^ 24 ≠ 0 ∨ bits w 7 6 ≠ 0 ∨ n = 0 ∨ 8 < n ∨ req < 10 ∨ 2000 < req ∨ req % 10 ≠ 0
      ∨ low % 10 ≠ 0 ∨ req < low ∨ okPasses = false ∨ okStart = false
      ∨ (makeup = true ∧ (p.param 13 = 0 ∨ 65536 < p.param 13)) then none
  else
    some {
      id := p.param 0, ramps := [bits w 11 8, bits w 15 12, bits w 19 16, bits w 23 20], start := start
      passes := (ws.take n).map fun d => { mask := bits d 3 0, ix := bits d 6 4, iy := bits d 9 7 }
      rateMin := max low 10, rateReq := req, startPos := signed 64 (p.param64 7), stepPos := signed 64 (p.param64 9)
      startRef := p.param 11, first := p.param 12, count := p.param 13 }

/-! ### The admission model (R223, R224) -/

/-- Classes that occur in a library (06 R168). -/
def Library.classes (l : Library) : List Nat := (l.cells.flatMap fun c => c.prims.map (·.1)).dedup

/-- The stripe ceiling (07 R175). -/
def Tables.ceiling (t : Tables) (l : Library) : Nat :=
  (l.classes.map fun c => (t.classes.getD c (0, 0)).2).foldl max 0

/-- Fine-region pixel rows of segment j (06 R168). -/
def Root.fineRows (r : Root) (j : Nat) : Nat :=
  (if j + 1 = r.segments then r.rows + 8 else 256 * (j + 1)) + 8 - (if j = 0 then 0 else 256 * j + 8)

/-- tau(j) in core cycles (R223). -/
def segmentCycles (root : Root) (k unions j : Nat) : Nat :=
  let cL := 8 * ceilDiv (18 * (2 * k + 1) ^ 2) 32
  match root.segs[j]? with
  | none => max 65536 cL
  | some g => g.blocks.foldl (fun m b =>
      max m (max (ceilDiv b.1 8 + 4 * b.2 + 10 * root.fineRows j * max 1 (ceilDiv unions 4)) (2 * b.2))) (max 65536 cL)

/-- R224's test over segments j to S - 1 at f kHz from time t, every time scaled by f and 1.6 GHz. -/
def feasibleFrom (cap f : Int) : List Nat → Int → Int → Bool
  | [], _, _ => true
  | tau :: rest, j, t =>
    let t := max t ((256 * (j + 1) - cap - 8) * 1600000000) + tau * (f * 1000)
    decide (t ≤ (256 * j - 4) * 1600000000) && feasibleFrom cap f rest (j + 1) t

/-- The highest rate, and for it the lowest prefill segment, that are feasible (R224). -/
def rateSearch (taus : List Nat) (cap rMin fMax rateMin : Nat) : Option (Nat × Nat) :=
  let lo := ceilDiv rMin 256
  let hi := min taus.length (cap / 256)
  ((List.range ((fMax + 10 - rateMin) / 10)).map fun i => fMax - 10 * i).findSome? fun (f : Nat) =>
    (((List.range (hi + 1 - lo)).map (lo + ·)).find? fun s0 => feasibleFrom (cap : Int) (f : Int) (taus.drop s0) (s0 : Int) 0).map fun s0 => (f, s0)

/-- Render-ahead rows of a buffer less 64 (R223). -/
def raCap (mib : Nat) : Nat := 1024 * mib - 64

/-! ### Entries written at admission (08 R213, R240) -/

/-- Adjacent pairs of an ascending list. -/
def adjacent : List Nat → List (Nat × Nat)
  | a :: b :: rest => (a, b) :: adjacent (b :: rest)
  | _ => []

/-- Between two of the boundaries the dark groups stay the same: their runs extend the rectangles that end where they begin. -/
def sweepStep (ivs : List (Nat × Nat × Nat)) (groups : Nat) (acc : List Rect) (ab : Nat × Nat) : List Rect :=
  let dark := (List.range groups).filter fun g => ivs.any fun i => i.1 == g && i.2.1 ≤ ab.1 && ab.1 < i.2.2
  (runsOf dark).foldl (fun acc run =>
    let same := fun (r : Rect) => r.group == run.1 && r.groups == run.2 && r.first + r.count == ab.1
    if acc.any same then acc.map fun r => if same r then { r with count := ab.2 - r.first } else r
    else acc ++ [{ group := run.1, groups := run.2, first := ab.1, count := ab.2 - ab.1 }]) acc

/-- The rectangles R240 forms from dark intervals (group, first shot, shot after the last). -/
def sweep (groups : Nat) (ivs : List (Nat × Nat × Nat)) : List Rect :=
  let pts := ((ivs.flatMap fun i => [i.2.1, i.2.2]).dedup).insertionSort (· ≤ ·)
  (adjacent pts).foldl (sweepStep ivs groups) []

/-- The dark intervals of a pass: every unusable selected beam of an uncompensable column (08 R213). -/
def uncompIntervals (st : Stripe) (p : Nat) : List (Nat × Nat × Nat) :=
  (st.uncomp.filter fun u => u.1 == p).flatMap fun u =>
    ((selected (st.select p)).filter fun j => !usableStatus (beamAt st.snapshot (beamOf u.2 j)).1).map fun j =>
      (groupOf u.2 j, 8 * rowOf u.2 j, 8 * rowOf u.2 j + st.root.rows)

def uncompRects (st : Stripe) : List (Nat × Rect) :=
  (List.range st.passes.length).flatMap fun p =>
    (sweep (128 * (st.root.firstBlock + st.root.blocks)) (uncompIntervals st p)).map fun r => (p, r)

/-! ### Make-up stripes (R245, R246) -/

/-- The written, unreleased entries from an index; none when one of them is not. -/
def State.entriesFrom (s : State) (first count : Nat) : Option (List LedgerEntry) :=
  if s.ledgerPlace first + count ≤ s.seq.ledger.length then some ((s.seq.ledger.drop (s.ledgerPlace first)).take count)
  else none

/-- The kept source of the entry at an index: sources are listed newest first (R245). -/
def State.sourceAt (s : State) (index stripe : Nat) : Option Source :=
  s.seq.sources.find? fun o => o.stripe == stripe && indexAtOrBefore o.since index

/-- The root of a make-up's stream is the source's (R245). -/
def Root.sameAs (a b : Root) : Bool :=
  a.lib == b.lib && a.rows == b.rows && a.sx == b.sx && a.sy == b.sy && a.firstBlock == b.firstBlock && a.blocks == b.blocks

/-- The source a make-up names and what it names of it, or none where R245's checks fail. -/
def State.makeupOf (s : State) (d : Desc) (root : Root) : Option (Source × Makeup) :=
  match s.entriesFrom d.first d.count with
  | none => none
  | some es =>
    let named := (es.zipIdx.map fun e => (wrapAdd d.first e.2, e.1)).filter fun e => !e.2.unconfirmed
    match named with
    | [] => none
    | e :: rest =>
      match s.sourceAt e.1 e.2.stripe with
      | none => none
      | some o =>
        let same := fun (x : Nat × LedgerEntry) =>
          match s.sourceAt x.1 x.2.stripe with | some q => q.stripe == o.stripe && q.since == o.since | none => false
        if rest.all same && root.sameAs o.root then
          some (o, { first := d.first, count := d.count, stripe := o.stripe, since := o.since, named := named.map (·.2) })
        else none

/-- The tables a make-up is written with: the source's, but for the pass masks and ramps (R246). -/
def makeupTables (own src : Tables) : Tables :=
  { own with
    gens := src.gens.take 4 ++ own.gens.drop 4
    classes := src.classes, lrK := src.lrK, lrCoef := src.lrCoef, corrS := src.corrS, corrT := src.corrT, srR := src.srR
    srCoef := src.srCoef }

/-! ### The checks of R222 -/

/-- The weights of every pixel phase sum to at most 0x8000 over the passes (08 R200). -/
def passWeightsOk (t : Tables) (ps : List PassDesc) : Bool :=
  (List.range 64).all fun i =>
    (ps.map fun pd => (t.mask pd.mask).weights.getD (8 * ((i / 8 + pd.iy) % 8) + (i % 8 + pd.ix) % 8) 0).sum ≤ 0x8000

/-- Outcome of every column of a stripe in a pass (08 R212): the uncompensable ones, or none where one is out of range. -/
def State.columns (s : State) (st : Stripe) (p : Nat) : Option (List (Nat × Nat)) :=
  let pd := st.passes.getD p { mask := 0, ix := 0, iy := 0 }
  let outcome := fun x =>
    columnOutcome (columnTaps (st.select p) st.snapshot s.groupTable false x) (columnTMax st.root st.tables pd st.ceiling x)
  let os := ((List.range (512 * st.root.blocks)).map (512 * st.root.firstBlock + ·)).map fun x => (x, outcome x)
  if os.any fun o => o.2 == .range then none
  else some ((os.filter fun o => o.2 == .uncompensable).map fun o => (p, o.1))

/-- A refusal of a submission: its status and results, and the cause it leaves in the staging area (05 Table 5-8). -/
structure Refused where
  status : Nat
  res : List Nat
  cause : Option Nat
  deriving DecidableEq, Repr

def refuse (status : Nat) : Refused := { status := status, res := [], cause := none }

/-- The stripe's area once it is bound and its header section complete and right (R222 check 2, 05 R148). -/
def State.bound (s : State) (id : Nat) : Refused ⊕ (Nat × Root) :=
  match s.areas.findIdx? fun a => a.bound == some id with
  | none => .inl (refuse stripeUnbound)
  | some i =>
    match (s.areas[i]?).map fun a => s.header a with
    | some (.good r _ _) => .inr (i, r)
    | some (.bad c _ _) => .inl { status := geoFormat, res := [0, 0, 0, 0, c], cause := none }
    | _ => .inl (refuse geoNotReady)

/-- Checks 3 and 4 of R222. -/
def State.queueCheck (s : State) (id : Nat) (root : Root) : Option Refused :=
  if s.seq.stripes.any fun st => st.id == id then some (refuse stripeExists)
  else if 16 ≤ s.seq.stripes.length then some (refuse queueFull)
  else if ((List.range root.blocks).map (root.firstBlock + ·)).any fun d => (s.die d).retired then some (refuse dieRetired)
  else if root.segs.any fun g => 32768 < g.active then
    some { status := geoFormat, res := [0, 0, 0, 0, dgsActive], cause := some dgsActive }
  else none

/-- An admitted submission: the stripe, the rate asked for, r_min, and the entries of its admission. -/
structure Admitted where
  stripe : Stripe
  rMin : Nat
  rects : List (Nat × Rect)
  deriving DecidableEq, Repr

/-- The stripe a submission describes before its columns and rate are known. -/
def State.newStripe (s : State) (c : Ctx) (d : Desc) (area : Nat) (root : Root) (mk : Option (Source × Makeup)) : Stripe :=
  let lib := s.libs.find? fun l => l.id == root.lib
  let tables := match mk with | none => s.tables | some m => makeupTables s.tables m.1.tables
  { id := d.id, ctx := c, root := root, area := area, passes := d.passes
    ramps := if mk.isSome then [0, 0, 0, 0] else d.ramps
    startMode := d.start, startPos := d.startPos, stepPos := d.stepPos, startRef := d.startRef, rate := 0, prefill := 0
    tables := tables, snapshot := effectiveBeams s.tables.beams s.seq.overlay
    ceiling := match mk with | none => (lib.map tables.ceiling).getD 0 | some m => m.1.ceiling
    uncomp := [], makeup := mk.map (·.2), phase := .queued, pass := 0, executing := false, rendered := 0, lates := 0
    strobes := 0, written := [], paused := false, passStart := none, triggered := false, offered := false, syncSent := false,
    stitchFailed := false, lostBeams := []
    ended := false }

/-- Check 6 of R222: pass weights, columns, room in the ledger. -/
def State.columnCheck (s : State) (st : Stripe) : Refused ⊕ (Stripe × List (Nat × Rect)) :=
  if !passWeightsOk st.tables st.passes then .inl (refuse passWeight)
  else
    let cols := (List.range st.passes.length).map (s.columns st)
    if cols.any (·.isNone) then .inl (refuse codeRange)
    else
      let st := { st with uncomp := cols.flatMap fun c => c.getD [] }
      let rects := (uncompRects st).filter fun r => 0 < st.liveIn r.1 r.2
      if s.ledgerFree < rects.length + 65536 then .inl (refuse ledgerFull) else .inr (st, rects)

/-- Check 7 of R222: the rate and the prefill depth (R223, R224). -/
def State.rateCheck (s : State) (d : Desc) (st : Stripe) (rects : List (Nat × Rect)) : Refused ⊕ Admitted :=
  let k := st.tables.lrK
  let lib := s.libs.find? fun l => l.id == st.root.lib
  let unions := (((lib.map Library.classes).getD []).filter fun c => !st.root.additive.contains c).length
  let taus := (List.range st.root.segments).map (segmentCycles st.root k unions)
  let cap := ((s.participants st).map fun e => raCap (s.die e).con.raMib).foldl min (raCap 1000000)
  let rMin := 4096 + (32 * k + 128)
  match rateSearch taus cap rMin (min d.rateReq s.maxRate) d.rateMin with
  | none => .inl (refuse admitRefused)
  | some (f, s0) =>
    .inr { stripe := { st with rate := f, prefill := min (256 * s0) st.root.rows }, rMin := rMin, rects := rects }

/-- The checks of R222 in their order. -/
def State.admission (s : State) (p : Packet) (c : Ctx) (makeup : Bool) : Refused ⊕ Admitted :=
  match descriptor p makeup with
  | none => .inl (refuse badParam)
  | some d =>
    match s.bound d.id with
    | .inl r => .inl r
    | .inr (area, root) =>
      match s.queueCheck d.id root with
      | some r => .inl r
      | none =>
        let mk := if makeup then s.makeupOf d root else none
        if makeup && mk.isNone then .inl (refuse makeupSource)
        else
          match s.columnCheck (s.newStripe c d area root mk) with
          | .inl r => .inl r
          | .inr (st, rects) => s.rateCheck d st rects

/-- Distinct uncompensable columns of a stripe (R225 res2). -/
def Stripe.uncompColumns (st : Stripe) : Nat := (st.uncomp.map (·.2)).dedup.length

/-- An admitted stripe joins the queue and its UNCOMPENSABLE entries are written (08 R213). -/
def State.queueStripe (s : State) (a : Admitted) : State :=
  let st := a.stripe
  let s := { s with seq.stripes := s.seq.stripes ++ [st], seq.worn := if st.uncomp.isEmpty then s.seq.worn else some st }
  let s := a.rects.foldl (fun s r => s.darkRect st 0x20 r.1 r.2 none) s
  (s.flushStripe st.id).updateUncomp

/-- STRIPE_SUBMIT and MAKEUP_SUBMIT (R222, R225, R226). -/
def submitBody (makeup : Bool) (p : Packet) (c : Ctx) (s : State) : State :=
  let mine := fun (a : Area) => a.bound == some (p.param 0)
  let s := if (descriptor p makeup).isSome then { s with areas := s.areas.map fun a => if mine a then s.checkHeader a else a }
    else s
  match s.admission p c makeup with
  | .inl r =>
    let s := match r.cause with
      | some k => { s with areas := s.areas.map fun a => if mine a then { a with cause := k } else a }
      | none => s
    s.finish c r.status r.res
  | .inr a =>
    let st := a.stripe
    let status := if st.rate = p.param 2 % 65536 then ok else admitRateLimited
    let res := [st.rate, st.prefill, st.uncompColumns, a.rMin]
    if p.admitOnly then s.finish c status res else ((s.queueStripe a).interim c status res).checkReserve

def execStripeSubmit (p : Packet) (s : State) : Res := s.direct 0x0300 p (submitBody false)
def execMakeupSubmit (p : Packet) (s : State) : Res := s.direct 0x0302 p (submitBody true)

end Sys2Proof.Machine
end

