-- ==== Sys2Proof/Machine/Coding.lean ====
section
/-! DEFINITION. The 8b/10b code of the setpoint port (12_motion.md R318). The manual names the code and gives no table: the tables are
the common ones (PRESUMED, notes/assumptions/50.md). -/

namespace Sys2Proof.Machine

/-- The six-bit half a b c d e i of a data character at negative disparity, by its low five bits. -/
def sixOf : List Nat :=
  [0b100111, 0b011101, 0b101101, 0b110001, 0b110101, 0b101001, 0b011001, 0b111000, 0b111001, 0b100101, 0b010101,
    0b110100, 0b001101, 0b101100, 0b011100, 0b010111, 0b011011, 0b100011, 0b010011, 0b110010, 0b001011, 0b101010,
    0b011010, 0b111010, 0b110011, 0b100110, 0b010110, 0b110110, 0b001110, 0b101110, 0b011110, 0b101011]

/-- The four-bit half f g h j at negative disparity, by the top three bits; 7 is the primary form. -/
def fourOf : List Nat := [0b1011, 0b1001, 0b0101, 0b1100, 0b1101, 0b1010, 0b0110, 0b1110]

/-- Ones in the low bits of a number. -/
def codeOnes (width v : Nat) : Nat := ((List.range width).filter fun i => v.testBit i).length

/-- A half of a character at a disparity: the complement stands at positive disparity for the halves that have two forms. The
running disparity changes where its ones and zeros differ in number. -/
def halfAt (width code : Nat) (both positive : Bool) : Nat × Bool :=
  let uneven := 2 * codeOnes width code != width
  (if positive && (both || uneven) then 2 ^ width - 1 - code else code, positive != uneven)

/-- The alternate form of the four-bit half 7 stands where the primary one would give five equal bits in a row. -/
def alternateSeven (low : Nat) (positive : Bool) : Bool :=
  if positive then low == 11 || low == 13 || low == 14 else low == 17 || low == 18 || low == 20

/-- A data character at a running disparity, and the disparity after it. -/
def dataChar (b : Byte) (positive : Bool) : BitVec 10 × Bool :=
  let low := b.toNat % 32
  let high := b.toNat / 32
  let x := halfAt 6 (sixOf.getD low 0) (low == 7) positive
  let four := if high = 7 && alternateSeven low x.2 then 0b0111 else fourOf.getD high 0
  let y := halfAt 4 four (high == 3) x.2
  (BitVec.ofNat 10 (x.1 * 16 + y.1), y.2)

/-- The comma K28.5. -/
def commaChar (positive : Bool) : BitVec 10 × Bool := (if positive then 0b1100000101 else 0b0011111010, !positive)

/-- A packet on the setpoint line: the comma, then its bytes; and the disparity after it (12 R318). -/
def packetChars (bytes : List Byte) (positive : Bool) : List (BitVec 10) × Bool :=
  let k := commaChar positive
  bytes.foldl (fun acc b => let x := dataChar b acc.2; (acc.1 ++ [x.1], x.2)) ([k.1], k.2)

end Sys2Proof.Machine
end

