-- ==== Sys2Proof/Machine/Capture.lean ====
section
/-! DEFINITION. Control elements on lanes and the loss of a reference or of lock (11_position_shot.md R289, R292, R298, R304,
R308, 10_rolgo_lanes.md R256, R257, R266). -/

namespace Sys2Proof.Machine

/-! ### Losing a reference or lock -/

/-- Locus loses lock (R289): no further pulse, and the device leaves ARMED or WRITING for CONFIGURED. -/
def State.loseLock (s : State) : State :=
  ({ s with locus.locked := false, locus.good := 0 }).dropToConfigured

/-- An axis becomes unreferenced (R292): its compare units cancel (Table 11-6), and a scan axis drops the device to CONFIGURED
(Table 1-7). A move of an axis that needed it ends (Table 12-5). -/
def State.loseReference (s : State) (a : Nat) : State :=
  let was := (s.locusAxis a).referenced
  let forget := fun (s : State) (n : Option Nat) => match n with
    | none => s
    | some n => s.modSource n fun x => { x with refCount := none, seen := none, lastTooth := none }
  let s := forget (forget s (s.locusAxis a).primary) (s.locusAxis a).secondary
  let s := s.modLocusAxis a fun la => { la with referenced := false }
  let s := (s.cancelCompares a).modAxis a fun x => { x with homed := false }
  if was && a = 0 then s.dropToConfigured else s

/-! ### Control elements (10 R256, R257) -/

/-- PASS_START goes to every non-retired lane of the participating dies (10 R266). -/
def State.sendPassStart (s : State) (st : Stripe) : State :=
  let ls := s.lanes.filter fun l => !l.retired && st.root.hasColumn (512 * (l.id / 12))
  let s := ls.foldl (fun s l =>
    s.modLane l.id fun l => l.addElem 0x07 (BitVec.ofNat 32 st.id) [BitVec.ofNat 8 st.pass] true) s
  s.modStripe st.id fun x => { x with passStart := some (ls.map (·.id)) }

/-- A lane need not be waited for any more: it answered, or is retired (10 R266). -/
def State.passAnswered (s : State) (lane : Nat) : State :=
  match s.seq.stripes with
  | [] => s
  | st :: _ => s.modStripe st.id fun x => { x with passStart := x.passStart.map fun ls => ls.filter (· != lane) }

end Sys2Proof.Machine
end

