-- ==== Sys2Proof/Machine/Sequencer.lean ====
section
/-! DEFINITION. The stripe sequencer: phases, pauses, approach, arming, late arms, the shots of a pass, its end, abort and the
ledger commands (09_stripes_ledger.md R221-R247, 11_position_shot.md R299-R310, 12_motion.md R322-R323). -/

namespace Sys2Proof.Machine

/-! ### Endings -/

/-- A queued stripe is removed at once: a start compare armed for it is disarmed (R236). -/
def State.removeStripe (s : State) (st : Stripe) (status : Nat) : State :=
  let head : Bool := match s.seq.stripes with | x :: _ => x.id == st.id | [] => false
  let s := if head && s.executing?.isNone && s.locus.gen.isSome then s.closeGates else s
  let s := s.endStripe st.id (some status)
  if head then s.afterStripe else s

/-! ### READY: pauses, PASS_START -/

/-- No pause is being served any more: PASS_START goes out (R229, 10 R266). -/
def State.pausesServed (s : State) (st : Stripe) : State :=
  ({ s with seq.pause := false }.modStripe st.id fun x => { x with paused := true }).sendPassStart st

/-- Whether a die holds a tile row of a pass: written to its render-ahead buffer, read to the beam window, or lost. -/
def Die.holdsRow (d : Die) (id pass ty : Nat) : Bool :=
  (d.con.ra.any fun b => b.stripe == id && b.pass == pass && b.ty == ty)
    || (d.lat.window.any fun w => w.stripe == id && w.pass == pass && w.y / 64 == ty)
    || (d.con.lost.any fun l => l.1 == id && l.2.1 == pass && l.2.2.1 == ty)

/-- Every participating die holds rows 0 to D - 1 of the pass (R227). -/
def State.prefilled (s : State) (st : Stripe) : Bool :=
  (s.participants st).all fun d => (List.range (ceilDiv st.prefill 64)).all fun ty => (s.die d).holdsRow st.id st.pass ty

/-- PREFILL_COMPLETE (R227, R229, R230, 16 R419): the oldest stripe's pass enters READY; the pauses before pass 0 begin. -/
def execPrefillComplete (s : State) : Res :=
  .next (match s.seq.stripes with
  | [] => s
  | st :: _ =>
    if !s.active || !(st.phase == .prefill || st.phase == .ret) || st.rendered ≤ st.pass || !s.prefilled st then s
    else
      let s := s.modStripe st.id fun x => { x with phase := .ready, passStart := none, lates := 0 }
      if st.pass ≠ 0 then s.sendPassStart st
      else
        let head := s.lanes.any fun l => l.headWarn && !l.retired
        let therm := s.therm.throttle
        if head || therm then
          { s with
            seq.headPause := head, seq.thermPause := therm, seq.pause := true, seq.pauseFor := 0
            therm.pauseCount := if therm then satInc s.therm.pauseCount else s.therm.pauseCount }
        else s.pausesServed st)

/-- SEQ_PAUSE_EXPIRY (R229): the head pause's time is over; the wait ends unless the thermal pause still lasts. -/
def execSeqPauseExpiry (s : State) : Res :=
  .next (match s.seq.stripes with
  | [] => s
  | st :: _ =>
    if st.phase ≠ .ready || st.pass ≠ 0 || st.paused || !s.active then s
    else
      let s := { s with seq.headPause := false }
      if s.seq.thermPause then s else s.pausesServed st)

/-! ### Approach (12 R322) -/

/-- Integer square root by bits, rounded down. -/
def isqrtFrom (n : Nat) : Nat → Nat → Nat
  | 0, r => r
  | k + 1, r => isqrtFrom n k (if (r + 2 ^ k) * (r + 2 ^ k) ≤ n then r + 2 ^ k else r)

def isqrt (n : Nat) : Nat := isqrtFrom n 100 0

/-- Distance (2^-16 count, rounded up) of a jerk-limited change between rest and velocity v with acceleration a and jerk j, in
the units of Table 12-1; none where the profile never gets there. -/
def rampDistance (v a j : Nat) : Option Nat :=
  let vv := v * 2 ^ 24
  let aa := a * 2 ^ 8
  if v = 0 then some 0
  else if a = 0 ∨ j = 0 then none
  else if aa * aa ≤ vv * j then some (ceilDiv (vv * (vv * j + aa * aa)) (2 * aa * j * 2 ^ 16))
  else some (ceilDiv (isqrt (vv * vv * vv / j) + 1) (2 ^ 16))

/-- Settle time in us: ARC_SCAN_CFG's, or 20 / bandwidth if that is larger (R322). -/
def State.settleTime (s : State) : Nat :=
  max s.arc.settleUs (match s.locus.bandwidth with | 0 => 10000 | 1 => 4000 | 2 => 2000 | _ => 1000)

/-- Crossing position c_n of a pass in 2^-24 count (11 R299). -/
def State.crossingPos (s : State) (st : Stripe) (n : Nat) : Int := st.startPos * 256 + s.sigma * n * (s.locusAxis 0).pitch

/-- The approach point and the run-out stop of a pass at velocity v, in 2^-16 count (R322). -/
def State.travel (s : State) (st : Stripe) (v : Nat) : Option (Int × Int) :=
  let sl := (s.axis 0).slots.getD 0 Slot.reset
  match rampDistance v sl.acc sl.jerk, rampDistance v sl.dec sl.jerk with
  | some up, some down =>
    let from_ := st.startPos - s.sigma * (up + v * s.settleTime * 256)
    let last := ceilDiv ((passShots st.root.rows - 1) * (s.locusAxis 0).pitch) 256
    some (from_, st.startPos + s.sigma * (last + down))
  | _, _ => none

def Axis.within (x : Axis) (pos : Int) : Bool := decide (x.softMin ≤ pos) && decide (pos ≤ x.softMax)

/-- The soft limits hold what pass 0 needs (R322). -/
def State.travelOk (s : State) (st : Stripe) (v : Nat) : Bool :=
  match s.travel st v with
  | some (a, b) => (s.axis 0).within a && (s.axis 0).within b && (s.axis 1).within st.stepPos
  | none => false

/-! ### Arming the start compare (R227, R228, 11 R310) -/

/-- Fewer than 8 pixel rows remain before the start (11 R310). -/
def State.lateArm (s : State) (st : Stripe) : Bool :=
  decide (-8 * ((s.locusAxis 0).pitch : Int) ≤ s.sigma * (s.scanEst * 256 - st.startPos * 256))

/-- The stripe-start compare is set to start_pos, rising in sigma (11 R310). -/
def State.aimStart (s : State) (st : Stripe) : State :=
  s.modCompare 15 fun c => { c with axis := 0, dir := if s.sigma = 1 then 0 else 1, target := st.startPos }

/-- A late arm (R228): no strobe; after late_limit of them the stripe is removed, and passes not written after a written one
are ledgered START_LATE. -/
def State.armLate (s : State) (st : Stripe) : State :=
  let n := st.lates + 1
  let s := { s with seq.late := true, seq.lateCount := satInc s.seq.lateCount, arc.scanVel := 0 }
  let s := ((s.aimStart st).compareEnd 15 .late).signal 20
  let s := s.modStripe st.id fun x => { x with lates := n }
  if n < s.seq.lateLimit then s
  else
    let s := if st.executing then s.darkRest st 0x0E st.pass 0 else s
    (s.endStripe st.id (some stripeLate)).afterStripe

/-- Pixel rows that the live beams of a shot lie over. -/
def Stripe.rowsUsed (st : Stripe) (p n : Nat) : List Nat :=
  (List.range 512).filterMap fun r =>
    if (st.select p).getLsbD (r / 8) && 8 * r ≤ n && n - 8 * r < st.root.rows then some (n - 8 * r) else none

/-- Lattice begins shot n: the bytes of the beam window that it reads (04 R112, R113), the records, and a fault for each group
that fails the clamp (08 R216). -/
def State.buildShot (s : State) (st : Stripe) (p n : Nat) (strikes : List Strike) : State :=
  let rows := st.rowsUsed p n
  let s := (s.participants st).foldl (fun s d =>
    s.unitReads d 0 fun a => decide (a < 0x400000) && rows.any fun y => y % 4096 == a / 0x400) s
  if s.perim.gateClosed then s
  else (s.clampDies st p n strikes).foldl (fun s d => s.detectOpen 0x0006 d 0 0) (s.latticeShot st p n strikes)

/-- An on-time arm (11 R310, R22): the gates open, generation begins, and Lattice makes shots 0 to 3. -/
def State.armNow (s : State) (st : Stripe) : State :=
  let total := passShots st.root.rows
  let s := { s with
    seq.late := false, seq.overspeed := false, seq.advanced := []
    seq.dataLate := s.seq.dataLate && st.pass != 0
    perim.gateClosed := false, locus.gen := some { next := 0, total := total, lastFire := none, lastCross := none } }
  let s := s.modStripe st.id fun x => { x with lates := 0 }
  let s := (s.aimStart st).modCompare 15 fun c => { c with state := .armed }
  let s := s.modDies fun d =>
    { d with
      lat := { d.lat with gens := (st.tables.gens.drop 4).map (· % 256), shot := 0, pass := st.pass
                          clamp := d.lat.clamp && st.pass != 0 }
      lanes := d.lanes.map fun l => { l with recs := l.recs.filter fun r => 0 < r.sent && r.sent < 194, fired := [] } }
  (List.range (min 4 total)).foldl (fun s n =>
    if s.perim.gateClosed then s else s.buildShot ((s.stripe? st.id).getD st) st.pass n s.seq.strikes) s

/-- The start compare is armed at the moment its start mode gives (R227): not in the ledger's reserve (R241), nor while the step
axis is unreferenced (11 R296). -/
def State.armStart (s : State) (st : Stripe) : State :=
  if s.seq.reserve || !(s.locusAxis 1).referenced || s.locus.gen.isSome || !s.active then s
  else if s.lateArm st then s.armLate st else s.armNow st

/-- The stripe's start mode lets it start now: at once, after its trigger has fired, or after its synchronized start
(13 R342, R349). -/
def State.mayStart (s : State) (st : Stripe) : Bool :=
  match st.startMode with
  | 0 => true
  | 1 => (s.datum.triggers.getD st.startRef Trigger.reset).state == 2
  | _ => st.pass != 0 || st.triggered

/-- The oldest stripe waits in READY with its approach under way for its trigger or synchronized start. -/
def State.startWaits (s : State) : Option Stripe :=
  match s.seq.stripes with
  | st :: _ => if st.phase = .ready && s.arc.scanVel != 0 && s.locus.gen.isNone then some st else none
  | [] => none

/-- A trigger has fired, or a synchronized start has come: a stripe that waits for it is armed (R227). -/
def State.startWaiting (s : State) : State :=
  match s.startWaits with
  | some st => if s.mayStart st then s.armStart st else s
  | none => s

/-- Both axes are IDLE, or held by the sequencer since an earlier pass or approach (12 R329), and the step axis can be in
position at step_pos. -/
def State.axesReady (s : State) (st : Stripe) : Bool :=
  let free := fun (a : Nat) => (s.axis a).state == .idle || (s.axis a).state == .sequencer
  let sl := (s.axis 1).slots.getD 0 Slot.reset
  free 0 && free 1 && (s.locusAxis 0).referenced && (s.locusAxis 1).referenced && s.locus.locked
    && (st.pass != 0 || (s.axis 1).cmd == st.stepPos || (sl.vel != 0 && sl.acc != 0 && sl.dec != 0 && sl.jerk != 0))

/-- PASS_START went out, and every lane it went to has answered or is retired (10 R266). -/
def State.passHeard (s : State) (st : Stripe) : Bool :=
  match st.passStart with
  | some ls => ls.all fun n => (s.lane n).retired
  | none => false

/-- The sequencer takes an axis, or keeps it, with slot 0 and a target to move to (12 R316, R329). -/
def Axis.take (x : Axis) (target : Int) : Axis :=
  { x with
    state := .sequencer, target := target, move := x.slots.getD 0 Slot.reset
    inPosition := x.inPosition && x.cmd == target && x.vel == 0 }

def Axis.atRest (x : Axis) : Bool := x.vel == 0 && x.cmd == x.target

/-- The scan axis is to move to the approach point of a pass at velocity v, the step axis to step_pos (09 R227, 12 R322). -/
def State.takeAxes (s : State) (st : Stripe) (v : Nat) : State :=
  let point := match s.travel st v with | some t => t.1 | none => st.startPos
  let s := { s with arc.approach := point }
  (s.modAxis 0 fun x => x.take point).modAxis 1 fun x => x.take (if st.pass = 0 then st.stepPos else x.cmd)

/-- APPROACH_BEGIN (12 R322, 11 R310): the sequencer takes the axes and moves them to the approach point and step_pos; with both at
rest there, the approach begins. A stripe whose travel leaves the soft limits is removed with MOVE_LIMIT. The physical faults
given strike shots 0 to 3 of the pass, whenever it is armed. -/
def execApproachBegin (strikes : List Strike) (s : State) : Res :=
  .next (match s.seq.stripes with
  | [] => s
  | st :: _ =>
    let f := min st.rate s.maxRate
    let v := s.scanVelocity f
    if !s.active || st.phase ≠ .ready || !st.paused || !s.passHeard st || s.locus.gen.isSome || s.arc.scanVel != 0
        || s.seq.reserve || f = 0 || !s.axesReady st then s
    else if st.pass = 0 && !s.travelOk st v then s.removeStripe st moveLimit
    else
      let s := s.takeAxes st v
      if !(s.axis 0).atRest || !(s.axis 1).atRest || !(s.axis 1).inPosition then s
      else
        let s := { s with arc.scanVel := v, arc.overspeedDecel := false, seq.strikes := strikes }
        if s.mayStart st then s.armStart st else s)

/-! ### The shots of a pass (11 R301, R304, 09 R233, R263) -/

/-- Records of shot n of a lane that hold a nonzero code, are live and were not committed (R263). -/
def State.uncommitted (s : State) (st : Stripe) (n : Nat) (l : Lane) : List Rec :=
  let cover := s.coverOf st st.pass
  l.recs.filter fun r =>
    r.shot == n && r.stripe == st.id && r.pass == st.pass && !r.committed && (r.codes.any (0 < ·))
      && liveAt (st.select st.pass) (r.group % 2) st.root.rows n && !(cover.any fun e => e.covers st.pass r.group n)

/-- LANE_ECHO at strobe n (R263); LANE_NOCOMMIT counts. -/
def State.laneEcho (s : State) (st : Stripe) (n : Nat) : State :=
  let lost := s.lanes.flatMap (s.uncommitted st n)
  let s := s.modLanes fun l =>
    { l with noCommit := satAdd l.noCommit (s.uncommitted st n l).length }
  s.darkRecs st 0x04 lost none

/-- A skipped shot (R233): its records are discarded and every live group-shot is ledgered OVERSPEED. -/
def State.skipShot (s : State) (st : Stripe) (n : Nat) : State :=
  let first := !s.seq.overspeed
  let s := { s with
    seq.overspeed := true, seq.skipCount := satInc s.seq.skipCount, locus.advances := wrapAdd s.locus.advances 1
    seq.advanced := n :: s.seq.advanced.filter fun m => n ≤ m + 8 }
  let s := s.modLanes fun l => { l with recs := l.recs.filter fun r => r.shot != n || (r.sent != 0 && r.sent != 194) }
  let span := st.groupSpan
  let s := s.dark st 0x07 st.pass n ((List.range span.2).map (span.1 + ·)) none
  if first then s.slowTo (min st.rate s.maxRate) else s

/-- Crossing 0 fires the start compare and enters WRITING (11 R310, Table 1-7); entries of earlier passes close. -/
def State.firstCrossing (s : State) (st : Stripe) : State :=
  let s := (s.compareEnd 15 .fired).setDev .writing
  let s := s.modStripe st.id fun x => { x with phase := .running, executing := true }
  s.closeEntries fun e => e.stripe == st.id && decide (e.pass < st.pass)

/-- Old records leave the lanes' bookkeeping: their reports are past (R243). -/
def State.dropOldRecs (s : State) (n : Nat) : State :=
  s.modLanes fun l => { l with recs := l.recs.filter fun r => n < r.shot + 10 || (r.sent != 0 && r.sent != 194) }

/-- The tracking loop's estimate of the scan axis position at a time, 2^-16 count (11 R298). -/
def State.estimateAt (s : State) (t : Nat) : Int :=
  s.scanEst + s.locus.vel * 256 * ((t : Int) - s.locus.estAt) / 4000

/-- The pulse of crossing n is due at time t (11 R299, R300): with the latency compensation, the estimate has reached the crossing
position, and the axis moves along +y. A schedule that has fallen into the past is due as well. -/
def State.pulseDue (s : State) (st : Stripe) (n t : Nat) : Bool :=
  decide (0 < s.sigma * s.locus.vel)
    && decide (0 ≤ s.sigma * (s.estimateAt (t + s.locus.latency) * 256 - s.crossingPos st n))

/-- A shot mark at every mark interval of strobes (11 R312), counted over the stripe (DESIGN CHOICE, notes/assumptions/49.md). -/
def State.shotMark (s : State) (strobes : Nat) : State :=
  if s.locus.markEvery != 0 && strobes % s.locus.markEvery == 0 then s.capture 0x08 0 0 (s.axisPos 0) else s

/-- A fire pulse: a strobe. -/
def State.strobe (s : State) (st : Stripe) (n : Nat) : State :=
  let s := (s.modStripe st.id fun x => { x with strobes := x.strobes + 1 }).laneEcho st n
  s.shotMark (st.strobes + 1)

/-- A pulse leaves for crossing n at time t: fire if 1 / f_max has passed since the last fire pulse, else advance (11 R301). -/
def State.pulse (s : State) (st : Stripe) (g : Gen) (t : Nat) (strikes : List Strike) : State :=
  let n := g.next
  let fires : Bool := match g.lastFire with
    | none => true
    | some a => decide (1000000000 ≤ (t - a) * 250 * s.maxRate)
  let s := { s with
    locus.gen := some { g with next := n + 1, lastCross := some t, lastFire := if fires then some t else g.lastFire }
    seq.latch := some (st.id, st.pass, n + 1) }
  let s := (s.emit (.pulse t fires)).count 0 6 1
  let s := if fires then s.count 0 7 1 else s
  let s := if n = 0 then s.firstCrossing st else s
  let now := fun (s : State) => (s.stripe? st.id).getD st
  let s := if fires then s.strobe (now s) n else s.skipShot (now s) n
  let s := if n + 4 < g.total then s.buildShot (now s) st.pass (n + 4) strikes else s
  let s := (s.closeAt n).dropOldRecs n
  let s := if 8 ≤ n then s.countSlots (now s) st.pass (n - 8) else s
  s.liveDies.foldl (fun s d => s.updatePanic d) s

/-- SHOT_PULSE (11 R299-R301, R306): the pulse of the next crossing leaves at time t (250 ps steps) if it is due; whether the
readback of its pulses differs (R305); the physical faults in the shot that Lattice then begins (08 R216). -/
def execShotPulse (t : Nat) (readbackFault : Bool) (strikes : List Strike) (s : State) : Res :=
  .next (match s.locus.gen, s.seq.stripes with
  | some g, st :: _ =>
    if g.total ≤ g.next || s.perim.gateClosed || !s.active || !s.pulseDue st g.next t then s
    else if (match g.lastCross with | some a => decide (t < a + 800) | none => false) then
      (({ s with locus.overrun := true }).detectOpen 0x0016 0 ((s.locusAxis 0).primary.getD 0) 0).loseLock
    else
      let s := s.pulse st g t strikes
      let s := if readbackFault then
          ({ s with locus.readback := true, locus.rbErr := satInc s.locus.rbErr }).detectOpen 0x0015 0 0 0
        else s
      s.checkReserve
  | _, _ => s)

/-- After a pass the scan axis decelerates with slot 0 and moves back to the next pass's approach point; after the last pass Arc
gives the axes back and only decelerates (12 R322). -/
def State.runOut (s : State) (st : Stripe) : State :=
  if st.pass + 1 < st.passes.length then
    s.takeAxes { st with pass := st.pass + 1 } (s.scanVelocity (min st.rate s.maxRate))
  else s.releaseAxes

/-- PASS_END (R221): the last crossing has closed the gates; the pass goes to RETURN, or after the last pass to completion. -/
def execPassEnd (s : State) : Res :=
  .next (match s.locus.gen, s.executing? with
  | some g, some st =>
    if g.next < g.total || st.phase ≠ .running then s
    else
      let s := s.closeGates.closeEntries fun e => e.stripe == st.id
      let s := { s with arc.scanVel := 0, arc.overspeedDecel := false }
      let s := s.runOut st
      let s := s.modDies fun d =>
        { d with
          lat.window := d.lat.window.filter fun w => !(w.stripe == st.id && w.pass == st.pass)
          con := { d.con with
            ra := d.con.ra.filter fun b => !(b.stripe == st.id && b.pass == st.pass)
            checked := d.con.checked.filter fun k => !(k.1 == st.id && k.2.1 == st.pass)
            lost := d.con.lost.filter fun l => !(l.1 == st.id && l.2.1 == st.pass) } }
      (s.modStripe st.id fun x =>
        if st.pass + 1 < st.passes.length then { x with phase := .ret, pass := st.pass + 1, passStart := none, lates := 0 }
        else { x with ended := true }).checkReserve
  | _, _ => s)

/-- The fired-dark reports of a pass's last shot have arrived from every lane whose head holds committed records of it, or were
found missing (R237, R243). -/
def State.reportsIn (s : State) (st : Stripe) : Bool :=
  let last := passShots st.root.rows - 1
  s.lanes.all fun l => l.state == .retired || l.fired.contains (last % 65536)
    || !(l.recs.any fun r => r.stripe == st.id && r.pass == st.pass && r.shot == last && r.committed)

/-- STRIPE_COMPLETE (R237). -/
def execStripeComplete (s : State) : Res :=
  .next (match s.executing? with
  | none => s
  | some st => if st.ended && s.reportsIn st then (s.endStripe st.id none).afterStripe else s)

/-! ### Abort and the ledger commands (R236, R241, R242) -/

/-- STRIPE_ABORT (R236, R67). -/
def stripeAbortBody (p : Packet) (c : Ctx) (s : State) : State :=
  let id := p.param 0
  let named := s.seq.stripes.filter fun st => id == 0xFFFFFFFF || st.id == id
  if named.isEmpty && id ≠ 0xFFFFFFFF then s.finish c stripeUnknown []
  else
    let count := match s.executing?, s.seq.latch with
      | some st, some (i, _, n) => if st.id = i then n else 0
      | _, _ => 0
    let s := named.foldl (fun s st => if st.executing then s.cutStripe 0x0C (some stripeAborted) else s.removeStripe st stripeAborted) s
    s.finish c ok [named.length, count]

/-- LEDGER_READ (R242). -/
def ledgerReadBody (p : Packet) (c : Ctx) (s : State) : State :=
  let first := p.param 0
  if s.seq.ledger.length ≤ s.ledgerPlace first then s.finish c badParam []
  else
    let es := (s.seq.ledger.drop (s.ledgerPlace first)).take (p.param 1)
    let s := if es.isEmpty then s else s.hostWrite (p.param64 2) (es.flatMap LedgerEntry.words)
    s.finish c ok [es.length, s.seq.ledger.length]

/-- LEDGER_STREAM (R242, 03 R89). -/
def ledgerStreamBody (p : Packet) (c : Ctx) (s : State) : State :=
  let ch := p.param 0 % 8
  if bit (p.param 1) 0 then
    if !s.bindable ch .ledger then s.finish c dmaChannelBusy []
    else (({ s with seq.stream := some ch }).bindT ch .ledger).finish c ok []
  else (({ s with seq.stream := none }).unbindT .ledger).finish c ok []

/-- LEDGER_RELEASE (R241, R242). -/
def ledgerReleaseBody (p : Packet) (c : Ctx) (s : State) : State :=
  let last := p.param 0
  let place := s.ledgerPlace last
  let n := if place < 2 ^ 31 then place + 1 else 0
  if indexAtOrBefore s.ledgerNext last then s.finish c badParam []
  else if s.seq.stripes.any fun st => st.makeup.any fun m => indexAtOrBefore m.first last then s.finish c ledgerInUse []
  else
    let s := { s with seq.ledger := s.seq.ledger.drop n, seq.first := wrapAdd s.seq.first n }
    let s := { s with seq.reserve := s.seq.reserve && decide (s.ledgerFree ≤ 131072) }
    s.pruneSources.finish c ok [s.seq.ledger.length]

def execStripeAbort (p : Packet) (s : State) : Res := s.direct 0x0301 p stripeAbortBody
def execLedgerRead (p : Packet) (s : State) : Res := s.direct 0x0303 p ledgerReadBody
def execLedgerStream (p : Packet) (s : State) : Res := s.direct 0x0304 p ledgerStreamBody
def execLedgerRelease (p : Packet) (s : State) : Res := s.direct 0x0305 p ledgerReleaseBody

end Sys2Proof.Machine
end

