-- ==== Sys2Proof/Machine/Arc.lean ====
section
/-! DEFINITION. Arc: axes, profiles, homing, the setpoint port (12_motion.md R314-R330). -/

namespace Sys2Proof.Machine

/-! ### Shared operations -/

/-- A motion fault (R327): C3 on an axis the sequencer owned, else C1; vector 21. -/
def State.motionFault (s : State) (a : Nat) (owned : Bool) : State :=
  (s.detectOpen (if owned then 0x0018 else 0x0019) 0 a 0).signal 21

/-- The drive of an axis is lost, a motion fault: an asserted enable deasserts at once, and a move ends (R319, R320, R327). -/
def State.driveLost (s : State) (a : Nat) : State :=
  let x := s.axis a
  if x.state = .absent then s
  else
    let s := s.modAxis a fun x =>
      { x with
        driveFault := true, state := .disabled, vel := 0, acc := 0, ctx := none, homing := none, disableAfter := false
        faultStop := false, inPosition := false }
    ((if x.enabled then s.finalOpt x.ctx moveInterrupted [3] else s)).motionFault a (x.state = .sequencer)

/-- Causes that keep an axis DISABLED: flags of its inputs, faults of its source, the drive (R329). -/
def State.axisBlocked (s : State) (a : Nat) : Bool :=
  let x := s.axis a
  let flagged := fun (d : Option Nat) => match d with | none => false | some d => (s.din d).stuck || (s.din d).chatter
  let src := match (s.locusAxis a).primary with | none => true | some p => (s.source p).faults != 0
  let drive := a < 2 && (2 ≤ s.arc.spBad || s.arc.driveBits.getLsbD (2 * a + 1))
  x.velLim == 0 || flagged x.negDin || flagged x.posDin || flagged x.homeDin || src || drive

/-- The secondary count of the scan axis in primary counts, without its offset (11 R297), 2^-16 count. -/
def State.secondaryCount (s : State) : Int :=
  match (s.locusAxis 0).secondary with
  | none => 0
  | some n => (s.locusAxis 0).ratio * (s.source n).pos / 2 ^ 24

/-- The reference event of a homing at an axis position (R328): the axis then stops. -/
def State.homeReference (s : State) (a : Nat) (before : Int) : State :=
  s.modAxis a fun x => { x with homing := x.homing.map fun h => { h with phase := .stopEnd, before := before } }

/-- A homing completes (R328, 11 R292): the axis is referenced, with its reference event at the reference value; a scan axis also
sets its secondary offset. -/
def State.homeDone (s : State) (a : Nat) (h : Homing) : State :=
  let shift := h.refValue - h.before
  let s := s.modLocusAxis a fun la => { la with referenced := true, offset := la.offset + shift }
  let s := if a = 0 then s.modLocusAxis 0 fun la => { la with off2 := s.axisPos 0 - s.secondaryCount } else s
  let owed := (s.axis a).ctx
  let s := s.modAxis a fun x =>
    { x with state := .idle, cmd := x.cmd + shift, homing := none, ctx := none, homed := true, inPosition := true }
  (s.finalOpt owed ok [unsigned 32 h.before, unsigned 64 h.before / 2 ^ 32]).signal 21

/-- Enter a homing phase from the present commanded position. -/
def State.homePhase (s : State) (a : Nat) (p : HomePhase) : State :=
  s.modAxis a fun x => { x with homing := x.homing.map fun h => { h with phase := p, start := x.cmd } }

/-- The limit input toward a side. -/
def Axis.limitDin (x : Axis) (positive : Bool) : Option Nat := if positive then x.posDin else x.negDin

/-- The switch of a homing method (Table 12-4). -/
def Axis.homeSwitch (x : Axis) (h : Homing) : Option Nat :=
  if h.method = 0 then x.limitDin h.positive else if h.method = 2 then none else x.homeDin

/-- A limit trip of a homing (R328). -/
def State.homeTrip (s : State) (a : Nat) (h : Homing) : State :=
  match h.phase with
  | .search | .indexSearch | .stopSwitch =>
    if h.tripped then s.failHoming a false
    else
      (s.modAxis a fun x => { x with homing := some { h with tripped := true } }).homePhase a .limitStop
  | .backOff | .reApproach | .limitStop | .limitBack => s.failHoming a false
  | .stopEnd => s

/-- An input of a homing axis changes (R328). -/
def State.homeInput (s : State) (a d : Nat) (active : Bool) : State :=
  let x := s.axis a
  match x.homing with
  | none => s
  | some h =>
    if x.homeSwitch h = some d then
      if active then
        match h.phase with
        | .search => s.homePhase a .stopSwitch
        | .reApproach => if h.method = 3 then s.homePhase a .indexSearch else s.homeReference a (s.axisPos a)
        | .stopSwitch | .backOff | .indexSearch | .limitStop | .limitBack | .stopEnd => s
      else if h.phase = .backOff then s.homePhase a .backOff
      else s
    else if active && (x.negDin = some d || x.posDin = some d) then s.homeTrip a h
    else s

/-- A homing searches for the index (R328). -/
def Axis.wantsIndex (x : Axis) : Bool :=
  match x.homing with
  | none => false
  | some h => (h.method == 2 && h.phase == .search) || h.phase == .indexSearch

/-- A limit input of an axis trips outside homing (R324, R327). -/
def State.hardLimit (s : State) (a : Nat) (positive : Bool) : State :=
  let x := s.axis a
  if x.state = .sequencer then s.motionFault a true
  else if x.enabled && (if positive then 0 < x.vel else x.vel < 0) then (s.stopAxis a true false 2).signal 21
  else s

/-- INPUT_CHATTER on an input of an axis (R326). -/
def State.axisChatter (s : State) (a : Nat) : State :=
  let x := s.axis a
  let s := if x.state = .homing then s.failHoming a true else s.stopAxis a true true 3
  s.modAxis a fun y => { y with chatter := true }

/-- A value kept between two others, ends included. -/
def between (a b v : Int) : Int := max (min a b) (min (max a b) v)

/-- Steps of a commanded position (R321): toward zero. -/
def stepIndex (cmd : Int) (perStep : Nat) : Int := if perStep = 0 then 0 else Int.tdiv cmd perStep

/-- A value kept within bounds. -/
def clampTo (lo hi v : Int) : Int := max lo (min hi v)

/-- The acceleration of the next tick (R315): within the jerk's reach of the present one and within the limits of acceleration and
deceleration. Where the velocity must rise (dir = 1) or fall (dir = -1), an acceleration against that direction falls away with
the jerk, and none against it begins. -/
def Axis.nextAcc (x : Axis) (dir : Int) (free : Int) : Int :=
  let j : Int := ceilDiv (x.move.jerk * 50) 256
  let top : Int := if 0 ≤ x.vel then x.move.acc else x.move.dec
  let low : Int := if x.vel ≤ 0 then x.move.acc else x.move.dec
  let lo := if dir = 1 then max (x.acc - j) (min (x.acc + j) 0) else x.acc - j
  let hi := if dir = -1 then min (x.acc + j) (max (x.acc - j) 0) else x.acc + j
  clampTo (-low) top (clampTo lo hi free)

/-- One profile tick under the limits of the move in progress (R315): the velocity is brought between lo and hi and stays there, and
the position advances by velocities that the tick passes through. The values within these bounds are the device's own, toward the
goal given. -/
def Axis.glide (x : Axis) (n : Nat) (lo hi goal : Int) : Axis :=
  let m := x.move
  let dir : Int := if x.vel < lo then 1 else if hi < x.vel then -1 else 0
  let acc := x.nextAcc dir (Config.profileAcceleration x.cmd x.vel x.acc goal m.vel m.acc m.dec m.jerk n)
  let slow := x.vel + min x.acc acc * 50 / 2 ^ 16
  let fast := x.vel - (-(max x.acc acc * 50)) / 2 ^ 16
  let v := clampTo slow fast (Config.profileVelocity x.cmd x.vel x.acc goal m.vel m.acc m.dec m.jerk n)
  let vel := if dir = 1 then min hi v else if dir = -1 then max lo v else clampTo lo hi v
  let cmd := between (x.cmd + min x.vel vel * 12800) (x.cmd + max x.vel vel * 12800)
    (Config.profilePosition x.cmd x.vel x.acc goal m.vel m.acc m.dec m.jerk n)
  { x with cmd := cmd, vel := vel, acc := if vel = lo && vel = hi then 0 else acc }

/-- A tick toward rest (R324, R325, R329). -/
def Axis.brake (x : Axis) (n : Nat) : Axis := x.glide n 0 0 x.cmd

/-- A tick of a move to a target (R315): it ends at rest where the target is reached, and never passes beyond it. -/
def Axis.approach (x : Axis) (n : Nat) : Axis :=
  let y := x.glide n (-(x.move.vel : Int)) x.move.vel x.target
  if (x.cmd ≤ x.target && x.target ≤ y.cmd) || (y.cmd ≤ x.target && x.target ≤ x.cmd) then
    { y with cmd := x.target, vel := 0, acc := 0 }
  else y

/-- The homing phases in which the axis moves in the homing's direction. -/
def HomePhase.outward (p : HomePhase) : Bool :=
  match p with
  | .search | .reApproach | .indexSearch => true
  | .backOff | .limitBack | .stopSwitch | .limitStop | .stopEnd => false

/-- A tick of a homing (R328): rest in the stopping phases, else its search or creep velocity in its direction. -/
def Axis.homeTick (x : Axis) (n : Nat) (h : Homing) : Axis :=
  let lim : Int := if h.phase == .search && h.method != 2 then h.search else h.creep
  let v := if h.positive == h.phase.outward then lim else -lim
  match h.phase with
  | .stopSwitch | .limitStop | .stopEnd => x.brake n
  | .search | .backOff | .reApproach | .indexSearch | .limitBack => x.glide n v v x.cmd

/-- One axis over one profile tick (R315); scan is the velocity that the sequencer holds, 0 where it moves to its target (R322). -/
def Axis.tick (x : Axis) (n : Nat) (scan : Int) : Axis :=
  match x.state with
  | .absent | .disabled | .idle => { x with vel := 0, acc := 0 }
  | .moving =>
    let y := x.approach n
    { y with cmd := between x.cmd x.target y.cmd }
  | .stopping =>
    let y := x.brake n
    if y.vel = 0 then
      { y with disableAfter := false, faultStop := false, state := if x.disableAfter then .disabled else .idle }
    else y
  | .homing => match x.homing with | none => { x with state := .idle, vel := 0, acc := 0 } | some h => x.homeTick n h
  | .sequencer => if scan = 0 then x.approach n else x.glide n scan scan x.cmd

/-- What follows in a homing once a tick has brought it to rest or past its back-off distance (R328). -/
def State.homeAfterTick (s : State) (a : Nat) : State :=
  let x := s.axis a
  match x.homing with
  | none => s
  | some h =>
    let far := decide ((h.backOff : Int) * 65536 ≤ |x.cmd - h.start|)
    let released := match x.homeSwitch h with | none => true | some d => !(s.din d).value
    match h.phase with
    | .stopSwitch => if x.vel = 0 then s.homePhase a .backOff else s
    | .limitStop => if x.vel = 0 then s.homePhase a .limitBack else s
    | .backOff => if released && far then s.homePhase a .reApproach else s
    | .limitBack =>
      if far then
        (s.modAxis a fun x => { x with homing := x.homing.map fun h => { h with positive := !h.positive } }).homePhase a .search
      else s
    | .stopEnd => if x.vel = 0 then s.homeDone a h else s
    | .search | .reApproach | .indexSearch => s

/-- The velocity that the sequencer holds on an axis: the scan velocity along +y on axis 0, while a pass asks for it (R322). -/
def State.scanGoal (s : State) (a : Nat) : Int := if a = 0 then s.sigma * s.arc.scanVel else 0

/-- Step pulses of an auxiliary axis in a tick (R321). -/
def State.axisSteps (s : State) (a : Nat) (before : Int) : State :=
  let x := s.axis a
  let d := stepIndex x.cmd x.perStep - stepIndex before x.perStep
  if a < 2 || d = 0 || !x.enabled then s
  else
    (s.modAxis a fun x =>
      { x with steps := wrapAdd x.steps d.natAbs, stepDir := decide (0 < d)
               remainder := x.cmd - stepIndex x.cmd x.perStep * x.perStep }).emit (.steps a d.natAbs (decide (0 < d)))

/-! ### Commands -/

def dinField (v : Nat) : Option (Option Nat) := if v < 16 then some (some v) else if v = 31 then some none else none

/-- AXIS_CONFIG's parameters (Table 12-6) on an axis; none where one is out of range. -/
def axisConfig (x : Axis) (a : Nat) (p : Packet) : Option Axis :=
  let w := p.param
  match dinField (bits (w 0) 4 0), dinField (bits (w 0) 12 8), dinField (bits (w 0) 20 16) with
  | some n, some q, some h =>
    let aux := 2 ≤ a
    let width := bits (w 11) 7 0
    if w 0 / 2 ^ 21 ≠ 0 ∨ bits (w 0) 7 5 ≠ 0 ∨ bits (w 0) 15 13 ≠ 0 ∨ w 6 = 0 ∨ w 7 = 0 ∨ w 8 = 0 ∨ w 9 = 0
        ∨ bits (w 5) 15 0 = 0 ∨ bits (w 5) 31 16 = 0 then none
    else if !aux && (w 10 ≠ 0 || w 11 ≠ 0) then none
    else if aux && (w 10 = 0 || width = 0 || w 11 / 2 ^ 18 ≠ 0 || 10 * w 10 < w 6 * 256 * max width 1) then none
    else
      some { x with
        negDin := n, posDin := q, homeDin := h, softMin := signed 64 (p.param64 1), softMax := signed 64 (p.param64 3)
        stallWin := bits (w 5) 15 0, stallUs := bits (w 5) 31 16, velLim := w 6, accLim := w 7, faultDec := w 8, jerkLim := w 9
        perStep := w 10, stepWidth := width, dirSetup := bits (w 11) 15 8, invertDir := bit (w 11) 16, stepLow := bit (w 11) 17
        inPosWin := bits (w 12) 15 0, inPosUs := bits (w 12) 31 16 }
  | _, _, _ => none

/-- Inputs an axis uses. -/
def Axis.dins (x : Axis) : List Nat := [x.negDin, x.posDin, x.homeDin].filterMap id

/-- AXIS_CONFIG (R330). -/
def axisConfigBody (p : Packet) (c : Ctx) (s : State) : State :=
  let a := p.target
  let x := s.axis a
  match axisConfig x a p with
  | none => s.finish c badParam []
  | some y =>
    let others := (List.range 10).any fun b => b != a && (s.axis b).dins.any fun d => y.dins.contains d
    if others || x.state = .absent then s.finish c badParam []
    else if x.busy || x.state = .sequencer then s.finish c axisBusy []
    else
      let first := x.velLim = 0 && x.state = .disabled
      let s := s.modAxis a fun _ => if first then { y with state := .idle, cmd := s.axisPos a } else y
      (if first && a < 2 && 2 ≤ s.arc.spBad then s.driveLost a else s).finish c ok []

/-- AXIS_PARAM (R316, R317): in flight, the free profile goes on from the present position, velocity and acceleration under the new
deceleration. -/
def axisParamBody (p : Packet) (c : Ctx) (s : State) : State :=
  let a := p.target
  let x := s.axis a
  let i := bits (p.param 0) 2 0
  let slot := x.slots.getD i Slot.reset
  let put := fun (sl : Slot) (s : State) => s.modAxis a fun x => { x with slots := x.slots.set i sl }
  if p.param 0 % 256 / 8 ≠ 0 ∨ p.param 0 / 512 ≠ 0 ∨ x.state = .absent then s.finish c badParam []
  else if bit (p.param 0) 8 then
    let v := p.param 3
    if x.faultDec < v then s.finish c badParam []
    else if !(x.busy || x.state = .sequencer) || (x.state = .sequencer && x.vel = 0 && x.cmd = x.target && s.scanGoal a = 0) then
      (put { slot with dec := v } s).finish c ok [0]
    else if v = x.move.dec then s.finish c ok [1]
    else if v < x.move.dec then s.finish c profileInflightDenied []
    else
      ((put { slot with dec := v } s).modAxis a fun x => { x with move := { x.move with dec := v } }).finish c ok [1]
  else
    let sl : Slot := { vel := p.param 1, acc := p.param 2, dec := p.param 3, jerk := p.param 4 }
    if x.velLim < sl.vel ∨ x.accLim < sl.acc ∨ x.faultDec < sl.dec ∨ x.jerkLim < sl.jerk then s.finish c badParam []
    else (put sl s).finish c ok [0]

/-- AXIS_HOME (R328, R330, 11 R281). -/
def axisHomeBody (p : Packet) (c : Ctx) (s : State) : State :=
  let a := p.target
  let x := s.axis a
  let m := bits (p.param 0) 1 0
  let pos := bit (p.param 0) 2
  let h : Homing :=
    { method := m, positive := pos, search := p.param 1, creep := p.param 2, dec := p.param 3
      refValue := signed 64 (p.param64 4), backOff := p.param 6, phase := .search, tripped := false, start := x.cmd, before := 0 }
  if x.state = .absent then s.finish c badParam []
  else if x.state = .disabled then s.finish c axisDisabled []
  else if x.state ≠ .idle then s.finish c axisBusy []
  else if p.param 0 / 8 ≠ 0 ∨ h.search = 0 ∨ h.creep = 0 ∨ h.dec = 0 ∨ x.velLim < h.search ∨ x.velLim < h.creep
      ∨ x.faultDec < h.dec ∨ (x.slots.getD 0 Slot.reset).jerk = 0 ∨ (m ≠ 2 ∧ (x.homeSwitch h).isNone) then
    s.finish c badParam []
  else
    let active := fun (d : Option Nat) => match d with | none => false | some d => (s.din d).value
    let trip := m ≠ 0 && active (x.limitDin pos)
    let on := active (x.homeSwitch h)
    let h := { h with phase := if trip then .limitBack else if on then .backOff else .search, tripped := trip }
    (s.modAxis a fun x =>
      { x with state := .homing, ctx := some c, homing := some h, homed := false, inPosition := false
               move := { vel := h.search, acc := x.accLim, dec := h.dec, jerk := (x.slots.getD 0 Slot.reset).jerk } }).interim c ok []

/-- AXIS_MOVE (R330, 11 R281). -/
def axisMoveBody (p : Packet) (c : Ctx) (s : State) : State :=
  let a := p.target
  let x := s.axis a
  let rel := bit (p.param 2) 8
  let slot := x.slots.getD (bits (p.param 2) 2 0) Slot.reset
  let v := signed 64 (p.param64 0)
  let target := if rel then x.cmd + v else v
  let referenced := (s.locusAxis a).referenced
  if x.state = .absent then s.finish c badParam []
  else if x.state = .disabled then s.finish c axisDisabled []
  else if x.state ≠ .idle then s.finish c axisBusy []
  else if p.param 2 % 256 / 8 ≠ 0 ∨ p.param 2 / 512 ≠ 0 ∨ slot.vel = 0 ∨ slot.acc = 0 ∨ slot.dec = 0 ∨ slot.jerk = 0 then
    s.finish c badParam []
  else if !referenced && (!rel || a < 2) then s.finish c axisUnreferenced []
  else if referenced && (target < x.softMin || x.softMax < target) then s.finish c moveLimit []
  else if (x.cmd < target && s.limitActive a true) || (target < x.cmd && s.limitActive a false) then s.finish c moveLimit []
  else
    (s.modAxis a fun x =>
      { x with state := .moving, ctx := some c, target := target, move := slot, inPosition := false }).interim c ok []

/-- AXIS_STOP on one axis; whether it is left DISABLED after a request to enable it (R329). -/
def State.axisStop (s : State) (a : Nat) (fault enable : Bool) : State × Bool :=
  let x := s.axis a
  if x.state = .sequencer then (s, false)
  else if x.busy then (s.stopAxis a fault false 1, false)
  else if x.state = .disabled && enable then
    if s.axisBlocked a then (s, true)
    else (s.modAxis a fun x => { x with state := .idle, cmd := s.axisPos a }, false)
  else (s, false)

/-- AXIS_STOP (R329, 11 R281). -/
def axisStopBody (p : Packet) (c : Ctx) (s : State) : State :=
  let fault := bit (p.param 0) 0
  let enable := bit (p.param 0) 1
  if p.param 0 / 4 ≠ 0 ∨ (!p.isDev ∧ (s.axis p.target).state = .absent) then s.finish c badParam []
  else if p.isDev then
    let owned := (s.axis 0).state = .sequencer || (s.axis 1).state = .sequencer
    let r := (List.range 10).foldl (fun (acc : State × Bool) a =>
      if (acc.1.axis a).state = .absent then acc
      else let t := acc.1.axisStop a fault enable; (t.1, acc.2 || t.2)) (s, false)
    r.1.finish c (if owned then axisBusy else if r.2 then axisDisabled else ok) []
  else if (s.axis p.target).state = .sequencer then s.finish c axisBusy []
  else
    let r := s.axisStop p.target fault enable
    r.1.finish c (if r.2 then axisDisabled else ok) []

def execAxisConfig (p : Packet) (s : State) : Res := s.direct 0x0400 p axisConfigBody
def execAxisParam (p : Packet) (s : State) : Res := s.direct 0x0401 p axisParamBody
def execAxisHome (p : Packet) (s : State) : Res := s.direct 0x0402 p axisHomeBody
def execAxisMove (p : Packet) (s : State) : Res := s.direct 0x0403 p axisMoveBody
def execAxisStop (p : Packet) (s : State) : Res := s.direct 0x0404 p axisStopBody

/-! ### Time-driven events -/

/-- A pass in RETURN whose scan axis rests at the approach point enters PREFILL while its buffers are not full (09 R221). -/
def State.returned (s : State) : State :=
  match s.seq.stripes with
  | [] => s
  | st :: _ =>
    if st.phase = .ret && (s.axis 0).vel = 0 && (s.axis 0).cmd = s.arc.approach && !s.prefilled st then
      s.modStripe st.id fun x => { x with phase := .prefill }
    else s

/-- One axis over a profile tick: its profile, its step pulses, and what follows in a homing. -/
def State.tickAxis (s : State) (a : Nat) : State :=
  ((s.modAxis a fun x => x.tick s.arc.ticks (s.scanGoal a)).axisSteps a (s.axis a).cmd).homeAfterTick a

/-- PROFILE_TICK (R315, R321): every axis over the next 50 µs. -/
def execProfileTick (s : State) : Res :=
  .next (if s.domOn 0 7 then ((List.range 10).foldl State.tickAxis { s with arc.ticks := s.arc.ticks + 1 }).returned else s)

/-- Seed of a setpoint or status packet (R318, R319). -/
def spSeed (cycle : Nat) : Word := 0xFFFFFFFF ^^^ BitVec.ofNat 32 cycle

/-- The words of the setpoint packet of a cycle that ends at time t ns (Table 12-2). -/
def State.setpointWords (s : State) (cycle t : Nat) : List Word :=
  let x0 := s.axis 0
  let x1 := s.axis 1
  let axisWords := fun (x : Axis) =>
    [BitVec.ofInt 32 x.cmd, BitVec.ofInt 32 (x.cmd / 2 ^ 32), BitVec.ofInt 32 x.vel, BitVec.ofInt 32 x.acc]
  let w0 := b2n x1.faultStop * 2 ^ 19 + b2n x0.faultStop * 2 ^ 18 + b2n x1.enabled * 2 ^ 17 + b2n x0.enabled * 2 ^ 16 + 0x01A1
  let ws := [BitVec.ofNat 32 w0, BitVec.ofNat 32 cycle, BitVec.ofNat 32 (t % 1000000000), BitVec.ofNat 32 (t / 1000000000)]
    ++ axisWords x0 ++ axisWords x1 ++ [0]
  ws ++ [crcWords (spSeed cycle) ws]

/-- SETPOINT_PACKET_TX (R318): the packet of cycle k, 25 µs before t_k. -/
def execSetpointPacketTx (s : State) : Res :=
  .next (if s.arc.spRunning then
    let t := ceilDiv (s.ns + 25000) 50000 * 50000
    let line := packetChars (wordsBytes (s.setpointWords (s.arc.spCycle % 2 ^ 32) t)) s.arc.spDisparity
    { (s.emit (.setpoint line.1)).count 0 187 1 with arc.spCycle := s.arc.spCycle + 1, arc.spDisparity := line.2 }
  else s)

/-- A bad or missing status packet; the second in a row is SETPOINT_LINK for axes 0 and 1, and each further one for an axis that is
enabled (R319). -/
def State.badSetpointStatus (s : State) : State :=
  let s := { s with arc.spErr := satInc s.arc.spErr, arc.spBad := s.arc.spBad + 1 }
  if s.arc.spBad < 2 then s
  else
    (List.range 2).foldl (fun (s : State) a => if s.arc.spBad = 2 || (s.axis a).enabled then s.driveLost a else s)
      { s with arc.spLinkFault := true }

/-- SETPOINT_STATUS_RX (R319): the words of a status packet after its line decoding. A fault bit is DRIVE_FAULT when it rises, and
while the axis is enabled. -/
def execSetpointStatusRx (words : List Word) (s : State) : Res :=
  let cycle := (s.arc.spCycle - 1) % 2 ^ 32
  let w0 := wordAt words 0
  let good := words.length = 4 && bits w0 15 0 = 0x01A2 && bits w0 31 20 = 0 && wordAt words 1 = cycle && wordAt words 2 = 0
    && words.getD 3 0 = crcWords (spSeed cycle ^^^ 0x80000000) (words.take 3)
  .next (if !s.arc.spRunning || s.arc.spCycle = 0 then s
  else if !good then s.badSetpointStatus
  else
    let before := s.arc.driveBits
    let s := { s with arc.spBad := 0, arc.driveBits := BitVec.ofNat 4 (bits w0 19 16) }
    (List.range 2).foldl (fun s a =>
      let ready := bit w0 (16 + 2 * a)
      let fault := bit w0 (17 + 2 * a)
      let begins := fault && !before.getLsbD (2 * a + 1)
      if begins || ((fault || !ready) && (s.axis a).enabled) then s.driveLost a else s) s)

/-- SETPOINT_STATUS_TIMEOUT (R319). -/
def execSetpointStatusTimeout (s : State) : Res := .next (if s.arc.spRunning then s.badSetpointStatus else s)

/-- STALL (R325): the axis is brought to rest with the fault deceleration and then DISABLED. -/
def execStall (axis : Nat) (s : State) : Res :=
  let x := s.axis axis
  .next (if x.enabled then
    let s := s.modAxis axis fun x => { x with stall := true }
    (s.stopAxis axis true true 3).motionFault axis (x.state = .sequencer)
  else s)

/-- MOVE_COMPLETE (R330): a move whose axis rests at its target within the in-position window ends with OK; a STOPPING axis
never completes here. -/
def execMoveComplete (axis : Nat) (s : State) : Res :=
  let x := s.axis axis
  let near := |s.axisPos axis - x.cmd| ≤ (x.inPosWin : Int) * 65536
  .next (if x.state = .moving && x.cmd = x.target && x.vel = 0 && near then
    ((s.modAxis axis fun x => { x with state := .idle, ctx := none, inPosition := true }).finalOpt x.ctx ok [0]).signal 21
  else if (x.state = .idle || x.state = .sequencer) && x.vel = 0 && near then
    s.modAxis axis fun x => { x with inPosition := true }
  else s)

/-- HOMING_SEARCH_LIMIT (R328): a search of 2^40 counts without a reference event. -/
def execHomingSearchLimit (axis : Nat) (s : State) : Res :=
  .next (if (s.axis axis).state = .homing then (s.failHoming axis false).signal 21 else s)

end Sys2Proof.Machine
end

