-- ==== Sys2Proof/Machine/Power.lean ====
section
/-! DEFINITION. Power domains, board rails, the power record, resets' common part, temperature sensors and thermal levels
(16_power_thermal.md R401-R420, 18_boot_update.md Table 18-1). -/

namespace Sys2Proof.Machine

/-! ### Board power record (R404) -/

/-- Nominal window in mV of a rail kind (20 Table 20-2); the kinds the table does not bound take any value. -/
def railWindow (kind : Nat) : Nat × Nat :=
  match kind with
  | 0 => (680, 840)
  | 1 => (825, 875)
  | 2 => (873, 927)
  | 3 => (1164, 1236)
  | 4 => (3201, 3399)
  | 6 => (1019, 1081)
  | 8 => (485, 515)
  | _ => (0, 65535)

/-- One entry of the record (Table 16-2). -/
def parseRail (dies : Nat) (w : List Word) : Option Rail :=
  let w0 := wordAt w 0
  let w1 := wordAt w 1
  let w2 := wordAt w 2
  let kind := bits w0 19 16
  let r : Rail :=
    { addr := bits w0 6 0, page := bits w0 15 8, kind := kind, die := bits w0 22 20, shared := bit w0 23
      step := bits w0 27 24, keep := bit w0 28, avs := bit w0 29, nominal := bits w1 15 0, vmin := bits w1 31 16
      vmax := bits w2 15 0, ramp := bits w2 31 16, on := false, tries := 0 }
  let win := railWindow kind
  if bit w0 7 || 9 < kind || bits w0 31 30 ≠ 0 || wordAt w 3 ≠ 0 || r.ramp < 1 || 500 < r.ramp || dies ≤ r.die
      || (r.avs && kind ≠ 0) || (5 ≤ kind && kind ≤ 8 && !r.keep) || r.nominal < r.vmin || r.vmax < r.nominal
      || r.nominal < win.1 || win.2 < r.nominal || (kind = 0 && (r.vmin < 680 || 840 < r.vmax)) then none
  else some r

def parseRails (dies : Nat) : Nat → List Word → Option (List Rail)
  | 0, _ => some []
  | n + 1, ws =>
    match parseRail dies (ws.take 4), parseRails dies n (ws.drop 4) with
    | some r, some rs => some (r :: rs)
    | _, _ => none

/-- The steps respect the orders of 20 R477: VSRAM not after the VCORE of its die (a shared rail feeds every die), VLANE_TERM
not before VLANE, and VDD1, VDD2H, VDD2L, VDDQ in this order. -/
def railOrder (rails : List Rail) : Bool :=
  let feeds := fun (a b : Rail) => a.shared || b.shared || a.die == b.die
  rails.all fun a => rails.all fun b =>
    (if a.kind == 1 && b.kind == 0 && feeds a b then decide (a.step ≤ b.step) else true)
      && (if a.kind == 2 && b.kind == 3 && feeds a b then decide (a.step ≤ b.step) else true)
      && (if 5 ≤ a.kind && b.kind ≤ 8 && a.kind < b.kind && feeds a b then decide (a.step ≤ b.step) else true)

/-- The record's rails; none where it fails its magic, version, count, CRC, ranges or orders. -/
def parseRecord (dies : Nat) (ws : List Word) : Option (List Rail) :=
  let n := bits (wordAt ws 1) 15 8
  if wordAt ws 0 ≠ 0x57525042 ∨ bits (wordAt ws 1) 7 0 ≠ 1 ∨ n < 1 ∨ 32 < n ∨ wordAt ws 2 ≠ 0 ∨ ws.length < 4 + 4 * n
      ∨ ws.getD 3 0 ≠ crcWords 0xFFFFFFFF ((ws.drop 4).take (4 * n)) then none
  else (parseRails dies n (ws.drop 4)).filter railOrder

/-! ### Rail sequencing (R405-R408) -/

/-- PMBus commands that turn a rail on: page, faults cleared, control by OPERATION, rate, limits, nominal voltage, on. -/
def railOn (i : Nat) (r : Rail) : List Emission :=
  (if r.page = 0xFF then [] else [.pmbus i 0x00 r.page]) ++
    [.pmbus i 0x03 0, .pmbus i 0x02 0x1A, .pmbus i 0x27 1, .pmbus i 0x40 (r.vmax + r.vmax / 20),
      .pmbus i 0x44 (r.vmin - r.vmin / 20), .pmbus i 0x21 r.nominal, .pmbus i 0x01 0x80]

/-- Enable the rails of a step; keep rails already on are left on. -/
def State.enableStep (s : State) (k : Nat) : State :=
  let is := (List.range s.therm.rails.length).filter fun i =>
    match s.therm.rails[i]? with | some r => r.step == k && !r.on | none => false
  let s := s.emits (is.flatMap fun i => match s.therm.rails[i]? with | some r => railOn i r | none => [])
  { s with therm.rails := s.therm.rails.map fun r => if r.step = k then { r with on := true } else r }

/-- The least step above k (or from 0 when k is none) that the record has. -/
def nextStep (rails : List Rail) (k : Option Nat) : Option Nat :=
  (List.range 16).find? fun i => (match k with | none => true | some k => decide (k < i)) && rails.any fun r => r.step == i

/-- Turn off every enabled rail that is not kept, in descending step (R407, R408). -/
def State.railsOff (s : State) (all : Bool) : State :=
  let off := fun (r : Rail) => r.on && (all || !r.keep)
  let is := (List.range 16).reverse.flatMap fun k =>
    (List.range s.therm.rails.length).filter fun i =>
      match s.therm.rails[i]? with | some r => r.step == k && off r | none => false
  let s := s.emits (is.map fun i => .pmbus i 0x01 0x00)
  { s with therm.rails := s.therm.rails.map fun r => if off r then { r with on := false, tries := 0 } else { r with tries := 0 } }

/-- Domains of a die in operation (R401, R409). -/
def Die.runDomains (d : Die) : BitVec 8 :=
  let on : BitVec 8 := if d.id = 0 then 0xFF else 0x7F
  if d.retired then on &&& ~~~(0x78 : BitVec 8) else on

/-- Every rail is good: the domains of every die are switched on (Table 16-4); boot ROM next. -/
def State.domainsOn (s : State) : State :=
  let s := s.modDies fun d =>
    let on := d.runDomains
    let vc := ((s.therm.rails.find? fun r => r.kind == 0 && (r.shared || r.die == d.id)).map (·.nominal)).getD 0
    { d with
      pow := { d.pow with on := on, iso := ~~~on, vcore := vc, atLimit := false, highRounds := 0 }
      apex := 1
      mem.state := if on.getLsbD 3 then .training else d.mem.state }
  { s with ctl.boot := .rom }

/-- The power-up sequence begins with the record read from flash (R406); a bad record keeps the device in STANDBY. With the
thermal latch set the device enters HALTED instead (18 R441). -/
def State.powerUp (s : State) (record : List Word) : State :=
  if s.therm.latched then
    (({ s with ctl.boot := .idle } : State).modDies fun d => { d with pow := { d.pow with on := 0x03, iso := 0xFC } }).setDev .halted
  else
    match parseRecord s.nDies record with
    | none => { s with therm.recordBad := true }
    | some rails =>
      let kept := fun (r : Rail) => r.keep && s.therm.rails.any fun o => o.addr == r.addr && o.page == r.page && o.on
      let s := { s with therm.rails := rails.map fun (r : Rail) => { r with on := kept r } }
      match nextStep rails none with
      | none => s.domainsOn
      | some k => { s.enableStep k with ctl.boot := .rails k }

/-- RAIL_STEP_COMPLETE (R406). -/
def execRailStepComplete (s : State) : Res :=
  .next (match s.ctl.boot with
  | .rails k =>
    (match nextStep s.therm.rails (some k) with
    | none => s.domainsOn
    | some j => { s.enableStep j with ctl.boot := .rails j })
  | .idle | .rom | .loading => s)

/-- A rail failure during the sequence (R407). -/
def State.railFails (s : State) (entry : Nat) : State :=
  match s.ctl.boot with
  | .rails _ => { s.railsOff false with ctl.boot := .idle, therm.pgoodFail := true, therm.railFail := entry % 32 }
  | .idle | .rom | .loading => s

/-- RAIL_FAILURE (R407). -/
def execRailFailure (entry : Nat) (s : State) : Res := .next (s.railFails entry)

/-- PMBUS_TRANSACTION (R405): a failed transaction is retried twice; a third failure in a row fails the rail. -/
def execPmbusTransaction (entry : Nat) (ok : Bool) (s : State) : Res :=
  let tries := ((s.therm.rails[entry]?).map (·.tries)).getD 0
  let s' := { s with therm.rails := s.therm.rails.modify entry fun r => { r with tries := if ok then 0 else r.tries + 1 } }
  .next (if ok || tries + 1 < 3 || s.therm.rails.length ≤ entry then s'
  else
    (match s.ctl.boot with
    | .rails _ => s'.railFails entry
    | .idle | .rom | .loading =>
      { s' with therm.railFail := entry % 32
                therm.rails := s'.therm.rails.modify entry fun r => { r with tries := 0 } }))

/-- PMBUS_ALERT (R410): an alert without a monitor fault is counted; STATUS_WORD of every rail is read. -/
def execPmbusAlert (monitorFault : Bool) (s : State) : Res :=
  .next (if s.ctl.dev = .off then s
  else
    let s := s.emits ((List.range s.therm.rails.length).map fun i => .pmbus i 0x79 0)
    if monitorFault then s else { s with therm.alerts := satInc s.therm.alerts })

/-- PMBUS_TELEMETRY (Table 16-3, PT_POWER): the package power is the sum of the rails' READ_POUT. -/
def execPmbusTelemetry (pout : List Nat) (s : State) : Res :=
  .next (if s.ctl.dev = .off then s else { s with therm.power := min pout.sum 0xFFFF })

/-! ### What resets and STANDBY share (18 Table 18-1, R440) -/

/-- A die after a reset that keeps AON and DRAM: every unit at its reset state, domains as they are. -/
def Die.afterReset (d : Die) : Die :=
  let off := d.switchOff 0x7E
  { off with pow := d.pow }

/-- The reset of everything that a warm, software or PERST# reset does not keep. -/
def State.resetCommon (s : State) (software : Bool) : State :=
  let s := (s.closeGates.interruptStripe).arcOff
  let s := { s with
    hif := { Hif.reset with gen := s.hif.gen + 1 }
    ctl := { s.ctl with
      dev := .standby, ready := false, pixelPitch := 0, deviceId := 0, d3hot := false, scratch := 0, err := 0, irqStat := 0
      laneSel := 0, laneWrIgnored := false, fw := 0 }
    perim := { s.perim with
      active := none, waiting := [], dropped := 0, logLost := 0, gateNs := 0, stormSeen := false, stormActive := false }
    libs := if software then [] else s.libs.filter fun l => l.load.isNone
    tables := if software then Tables.reset else s.tables
    areas := List.replicate 2 Area.reset
    seq := { Seq.reset with
      latch := s.seq.latch, interrupted := s.seq.interrupted, ledger := s.seq.ledger, first := s.seq.first
      reserve := s.seq.reserve, sources := s.seq.sources, epochs := s.seq.epochs, worn := s.seq.worn, overlay := s.seq.overlay }
    locus := Locus.reset, arc := Arc.reset, datum := Datum.reset, chord := Chord.reset, calRuns := [], perf := PerfCtl.reset
    flash := { s.flash with busy := 0, blocks := 0, staging := none } }
  s.resetFunction.resetDma.modDies Die.afterReset

/-- Entry to STANDBY (R408): lanes to L2, DRAM in self-refresh, every domain but AON off, the rails without keep off; every
die is back in round mode (R413). -/
def State.enterStandby (s : State) : State :=
  let s := s.lanesToL2.resetCommon false
  let s := { s with ctl.boot := .idle }
  let s := s.modDies fun d =>
    { d with
      pow := { d.pow with on := 0x01, iso := 0xFE, demand := false }
      mem.state := if d.mem.state == .off then .off else .selfRefresh }
  s.railsOff false

/-- PERST_ASSERTED (18 R438, R408, Table 1-7): from any state but OFF the device enters STANDBY; the standby hold clears. -/
def execPerstAsserted (s : State) : Res :=
  let s' := { s with ctl.perst := true }
  .next (if s.ctl.dev = .off then s'
  else if s.ctl.dev = .standby && s.ctl.boot = .idle then { s' with ctl.hold := false }
  else
    let s := s'.enterStandby
    { s with ctl.hold := false, ctl.bootCause := 1, ctl.resetRequest := none })

/-- PERST_DEASSERTED (Table 1-7, R406): power-up begins in STANDBY without a standby hold. -/
def execPerstDeasserted (record : List Word) (s : State) : Res :=
  let s := { s with ctl.perst := false }
  .next (if s.ctl.dev = .standby && s.ctl.boot = .idle && !s.ctl.hold then s.powerUp record else s)

/-- WAKE_N_LOW (R408): a low of 10 µs or more clears the standby hold, and power-up follows while PERST# is deasserted. -/
def execWakeNLow (record : List Word) (s : State) : Res :=
  .next (if s.ctl.dev = .standby && s.ctl.hold then
    let s := { s with ctl.hold := false }
    if s.ctl.perst then s else s.powerUp record
  else s)

/-- POWER_ON_RESET (18 R438, 20 R476): from OFF to STANDBY with everything at its power-on value; with PERST# already deasserted
the power-up sequence begins (Table 1-7), on the record given. -/
def execPowerOnReset (record : List Word) (s : State) : Res :=
  .next (if s.ctl.dev = .off then
    let z := State.powerOn s.fuses s.flash
    let z := { z with
      ctl.perst := s.ctl.perst, ctl.darkN := s.ctl.darkN, ctl.headTripN := s.ctl.headTripN, free := s.free, out := s.out
      pending := s.pending, hif.gen := s.hif.gen + 1 }
    if z.ctl.perst then z else z.powerUp record
  else s)

/-- AON_SUPPLY_LOST (Table 1-7): OFF from any state; nothing is kept but the flash and the fuses. -/
def execAonSupplyLost (s : State) : Res :=
  let z := State.powerOn s.fuses s.flash
  .next ({ z with
    ctl.dev := .off, ctl.perst := s.ctl.perst, ctl.darkN := s.ctl.darkN, ctl.headTripN := s.ctl.headTripN, free := s.free
    out := s.out, pending := s.pending, hif.gen := s.hif.gen + 1
    dies := z.dies.map fun d => { d with pow := { d.pow with on := 0x00, iso := 0xFF } } })

/-- POWER_STANDBY (R408): the entry is written, the hold is set and the device enters STANDBY. -/
def powerStandbyBody (_p : Packet) (c : Ctx) (s : State) : State :=
  let s := (s.finish c ok []).enterStandby
  { s with ctl.hold := true }

def execPowerStandby (p : Packet) (s : State) : Res := s.direct 0x0B00 p powerStandbyBody

/-! ### Temperatures (R412-R419), in 1/16 °C -/

/-- Neighbours of a sensor (Table 16-5). -/
def sensorNeighbours (n : Nat) : List Nat :=
  ([[1, 3], [0, 2, 4], [1, 5], [0, 4, 6], [1, 3, 5, 7], [2, 4, 8], [3, 7, 9], [4, 6, 8, 10], [5, 7, 11], [6, 10], [7, 9, 11],
    [8, 10]] : List (List Nat)).getD n []

/-- Junction temperature of a die: the highest of its valid sensors (R414). -/
def Die.junction (d : Die) : Option Int :=
  ((d.pow.sensors.filter fun x => !x.excluded).map (·.temp)).max?

/-- T_hot over every die, retired ones included. -/
def State.tHot (s : State) : Option Int := (s.dies.filterMap Die.junction).max?

def insertSorted (x : Int) : List Int → List Int
  | [] => [x]
  | y :: ys => if x ≤ y then x :: y :: ys else y :: insertSorted x ys

def sortInts (xs : List Int) : List Int := xs.foldr insertSorted []

/-- Twelve times a sensor's model value less its trim offset (R415); none without another valid sensor. -/
def modelValue (sensors : List Sensor) (n : Nat) : Option Int :=
  let valid := fun i => match sensors[i]? with | some x => !x.excluded | none => false
  let temp := fun i => (sensors.getD i Sensor.reset).temp
  let near := (sensorNeighbours n).filter valid
  let others := ((List.range 12).filter fun i => i != n && valid i).map temp
  if 2 ≤ near.length then some ((near.map temp).sum * (12 / near.length : Nat))
  else if others = [] then none
  else
    let xs := sortInts others
    let k := xs.length
    some (6 * (xs.getD ((k - 1) / 2) 0 + xs.getD (k / 2) 0))

/-- Twelve times a valid sensor's difference from its model. -/
def modelDiff (sensors : List Sensor) (n : Nat) : Option Nat :=
  match sensors[n]? with
  | none => none
  | some x => if x.excluded then none else (modelValue sensors n).map fun m => (12 * (x.temp - x.offset) - m).natAbs

/-- The candidate to exclude: the largest difference above 8 °C, the lowest number on a tie. -/
def worstSensor (sensors : List Sensor) : Option Nat :=
  ((List.range 12).foldl
    (fun (acc : Option (Nat × Nat)) n =>
      match modelDiff sensors n with
      | none => acc
      | some d =>
        if d ≤ 12 * 128 then acc
        else match acc with
          | none => some (n, d)
          | some (_, b) => if b < d then some (n, d) else acc) none).map (·.1)

/-- The sensors the cross-check excludes, in order (R415). -/
def crossCheck : Nat → List Sensor → List Nat
  | 0, _ => []
  | fuel + 1, sensors =>
    match worstSensor sensors with
    | none => []
    | some n => n :: crossCheck fuel (sensors.modify n fun x => { x with excluded := true })

/-- Exclude a sensor: SENSOR_BROKEN, C2 (R392, R415). -/
def State.excludeSensor (s : State) (die n : Nat) : State :=
  let s := s.modDie die fun d => { d with pow.sensors := d.pow.sensors.modify n fun x => { x with excluded := true } }
  let s := s.updateReplace
  if s.domOn die 1 then s.detectOpen 0x0020 die n 0 else s

/-- A hardware stop begins (R417): dark, SAFE_DARK, every lane in L0 to L1; a thermal pause ends. -/
def State.thermalStop (s : State) (die n : Nat) : State :=
  if s.therm.stopped then s
  else
    let s := { s with therm.stopped := true, seq.thermPause := false, seq.pause := s.seq.headPause }
    let down := (s.lanes.filter fun l => l.power == .l0 && !l.retired && (l.state == .up || l.state == .retraining)).map (·.id)
    let s := down.foldl (fun s n => s.modDie (n / 12) fun d => d.dropLaneEq (n % 12)) s
    let s := s.modLanes fun l =>
      if l.power == .l0 && !l.retired && (l.state == .up || l.state == .retraining) then
        { l.hushed with power := .l1, state := .up, thermalL1 := true }
      else l
    let s := if s.domOn 0 1 then s.detectOpen 0x001E die n 0 else s
    s.signal 24

/-- The latch (R418). -/
def State.thermalLatch (s : State) (die n : Nat) : State :=
  let s := { s with therm.latched := true }
  if s.domOn 0 1 then s.detectOpen 0x001F die n 0 else s.enterHalted

/-- No die has a valid sensor (R414). -/
def State.checkBlind (s : State) : State :=
  if s.tHot.isNone && !s.therm.blind then ({ s with therm.blind := true }).thermalStop 0 0 else s

/-- SENSOR_CONVERSION (R412, R415, R416). -/
def execSensorConversion (die sensor : Nat) (reading : Int) (failed : Bool) (s : State) : Res :=
  let x := (s.die die).pow.sensors.getD sensor Sensor.reset
  .next (if s.ctl.dev = .off || s.nDies ≤ die || 12 ≤ sensor then s
  else if failed || reading < -640 || 2400 < reading then
    let s := s.modDie die fun d => { d with pow.sensors := d.pow.sensors.modify sensor fun x => { x with fresh := true } }
    if x.excluded then s else (s.excludeSensor die sensor).checkBlind
  else
    let s := s.modDie die fun d =>
      { d with pow.sensors := d.pow.sensors.modify sensor fun x =>
          { x with temp := reading, fresh := true, hot := if 2000 ≤ reading then x.hot + 1 else 0 } }
    if x.excluded then s
    else
      let s := if 1840 ≤ reading then s.thermalStop die sensor else s
      if 2000 ≤ reading && 1 ≤ x.hot && !s.therm.latched then s.thermalLatch die sensor else s)

/-- The cross-check of a die (R415). -/
def State.crossCheckDie (s : State) (d : Nat) : State :=
  let bad := crossCheck 12 (s.die d).pow.sensors
  let s := bad.foldl (fun s n => s.excludeSensor d n) s
  (s.modDie d fun x => { x with pow.sensors := x.pow.sensors.map fun y => { y with fresh := false } }).checkBlind

/-- Warning and throttle levels (Table 16-6). -/
def State.thermalLevels (s : State) : State :=
  match s.tHot with
  | none => s
  | some t =>
    let m : Int := 16 * s.therm.margin
    let warn := if s.therm.warn then decide (1552 - m ≤ t) else decide (1600 - m ≤ t)
    let throttle := if s.therm.throttle then decide (1552 ≤ t) else decide (1600 ≤ t)
    let rise := warn && !s.therm.warn
    let s := { s with therm.warn := warn, therm.throttle := throttle }
    if rise then s.signal 24 else s

/-- The end of a hardware stop: every junction below 95 °C (R417). -/
def State.thermalStopEnd (s : State) : State :=
  let cool := s.dies.all fun d => match d.junction with | none => true | some t => decide (t < 1520)
  if s.therm.stopped && !s.therm.blind && cool then
    let held := (s.lanes.filter fun l => l.thermalL1 && l.power == .l1 && !l.retired).map (·.id)
    let s := ({ s with therm.stopped := false } : State).modLanes fun (l : Lane) => { l with thermalL1 := false }
    (held.foldl (fun (s : State) n => s.modLane n Lane.leaveL1) s).signal 24
  else s

/-- One round of a thermal pause, 1 ms (R419). -/
def State.pauseRound (s : State) : State :=
  if s.seq.thermPause then
    let n := s.seq.pauseFor + 1
    let fin := (!s.therm.throttle || s.therm.maxPause ≤ n) && s.therm.minPause ≤ n
    { s with
      therm.pauseMs := satInc s.therm.pauseMs
      seq.pauseFor := if fin then 0 else n
      seq.thermPause := !fin
      seq.pause := !fin || s.seq.headPause }
  else s

/-- Dies a rail feeds. -/
def State.railDies (s : State) (r : Rail) : List Nat := if r.shared then List.range s.nDies else [r.die]

/-- Adaptive voltage of one VCORE rail (R411). -/
def State.avsRail (s : State) (i : Nat) (r : Rail) : State :=
  let ds := s.railDies r
  let low := ds.any fun d => (s.die d).pow.slack < 12
  let high := ds.all fun d => 100 ≤ (s.die d).pow.highRounds
  let running := s.seq.stripes.any fun st => st.phase == .running
  let v := (s.die (ds.headD 0)).pow.vcore
  let setV := fun (s : State) (v : Nat) =>
    (ds.foldl (fun s d => s.modDie d fun x => { x with pow := { x.pow with vcore := v, highRounds := 0 } }) s).emit
      (.pmbus i 0x21 v)
  let limit := fun (s : State) (b : Bool) =>
    ds.foldl (fun s d => s.modDie d fun x => { x with pow := { x.pow with atLimit := b } }) s
  if low then
    if v + 5 ≤ r.vmax then limit (setV s (v + 5)) false
    else
      let was := ds.all fun d => (s.die d).pow.atLimit
      if was then s else (limit s true).signal 24
  else if high && !running && r.vmin + 5 ≤ v then limit (setV s (v - 5)) false
  else limit s false

/-- Adaptive voltage over every rail with avs. -/
def State.avs (s : State) : State :=
  (List.range s.therm.rails.length).foldl (fun s i =>
    match s.therm.rails[i]? with
    | some r => if r.avs && r.kind = 0 && r.on then s.avsRail i r else s
    | none => s) s

/-- HOUSEKEEPING_ROUND_END (R413-R419). -/
def execHousekeepingRoundEnd (slack : List Nat) (s : State) : Res :=
  .next (if s.ctl.dev = .off then s
  else
    let s := s.modDies fun d =>
      let k := min (slack.getD d.id 63) 63
      { d with pow := { d.pow with
          rounds := wrapAdd d.pow.rounds 1, slack := k, highRounds := if 24 < k then d.pow.highRounds + 1 else 0 } }
    let s := (List.range s.nDies).foldl (fun s d => if (s.die d).pow.demand then s else s.crossCheckDie d) s
    s.thermalLevels.thermalStopEnd.avs.pauseRound)

/-- GUARD_ROUND (R413, R415): the cross-check of a die in demand mode. -/
def execGuardRound (die : Nat) (s : State) : Res :=
  .next (if s.ctl.dev = .off || s.nDies ≤ die then s else (s.crossCheckDie die).thermalLevels.thermalStopEnd)

/-- An s12.4 value in 16 bits. -/
def s16 (t : Int) : Nat := unsigned 16 t

/-- THERMAL_READ (R420). The outside data are the readings of the conversions a die in demand mode makes for the command,
sensor 0 first, a word with bit 16 set for a failed one. -/
def thermalReadBody (env : List Word) (p : Packet) (c : Ctx) (s : State) : State :=
  let d := p.target
  let demand := (s.die d).pow.demand
  let s := if demand then
      (List.range 12).foldl (fun s n =>
        match execSensorConversion d n (signed 16 (wordAt env n)) (bit (wordAt env n) 16) s with
        | .next t => t
        | .fault _ | .refused _ => s) s
    else s
  let x := s.die d
  let j := s16 (x.junction.getD 0)
  let ws := ((List.range 12).map fun n =>
      let t := x.pow.sensors.getD n Sensor.reset
      s16 t.temp + b2n t.excluded * 2 ^ 16 + b2n demand * 2 ^ 17) ++ [j, x.pow.rounds, 0, 0]
  (s.hostWrite (p.param64 0) (ws.map (BitVec.ofNat 32))).finish c ok [j]

def execThermalRead (p : Packet) (env : List Word) (s : State) : Res := s.direct 0x0B01 p (thermalReadBody env)

/-- THERMAL_CONFIG (R420). -/
def thermalConfigBody (p : Packet) (c : Ctx) (s : State) : State :=
  let mode := bit (p.param 0) 0
  let margin := bits (p.param 0) 12 8
  let lo := p.param 1
  let hi := p.param 2
  if p.param 0 % 256 / 2 ≠ 0 ∨ p.param 0 / 2 ^ 13 ≠ 0 ∨ 30 < margin then s.finish c badParam []
  else if p.isDev then
    if lo < 1 ∨ 10000 < lo ∨ hi < lo ∨ 60000 < hi then s.finish c badParam []
    else
      (({ s with therm.margin := margin, therm.minPause := lo, therm.maxPause := hi }).modDies fun d =>
        { d with pow.demand := mode }).finish c ok []
  else if lo ≠ 0 ∨ hi ≠ 0 then s.finish c badParam []
  else
    (({ s with therm.margin := margin }).modDie p.target fun d => { d with pow.demand := mode }).finish c ok []

def execThermalConfig (p : Packet) (s : State) : Res := s.direct 0x0B02 p thermalConfigBody

end Sys2Proof.Machine
end

