-- ==== Sys2Proof/Machine/Calibration.lean ====
section
/-! DEFINITION. Calibration and performance counters (17_calibration_counters.md R421-R437). -/

namespace Sys2Proof.Machine

/-! ### Items (Table 17-1) -/

/-- Values of an instance of an item: lane, source, trim, die, sensor. -/
def itemStride (item : Nat) : Nat := if item = 0 then 3 else if item = 1 then 4 else if item = 3 then 18 else 1

/-- Whether a die has an item: ENCODER and LATENCY are die 0's. -/
def itemOn (item die : Nat) : Bool := item < 5 && (die = 0 || !(item = 1 || item = 2))

def Cal.value (c : Cal) (item i : Nat) : Int := (c.values.getD item []).getD i 0
/-- FFE_SET's coefficients of a lane (10 Table 10-4): pre, main and post in force. -/
def Cal.ffeWord (c : Cal) (lane : Nat) : Word :=
  BitVec.ofNat 32 (unsigned 8 (c.value 0 (3 * lane)) * 2 ^ 16 + unsigned 8 (c.value 0 (3 * lane + 1)) * 256
    + unsigned 8 (c.value 0 (3 * lane + 2)))

def Cal.measure (c : Cal) (item i : Nat) : Int := (c.measured.getD item []).getD i 0

/-- Items with a pending step: a measurement one step or more from the value in force (R423). -/
def Cal.pendingItem (c : Cal) (item : Nat) : Bool :=
  item < 4 && (List.range (c.values.getD item []).length).any fun i => c.value item i != c.measure item i

/-- Whether a quality word is within its limit (Table 17-4). -/
def State.qualityOk (s : State) (item inst q : Nat) : Bool :=
  match item with
  | 0 => 77 ≤ bits q 7 0 && 30 ≤ bits q 25 16
  | 1 =>
    let c := (s.source inst).cfg
    bits q 15 0 ≤ 1024 && c.ampLow ≤ bits q 31 16 && bits q 31 16 ≤ c.ampHigh
  | 2 => decide (|signed 16 q| ≤ 100)
  | 3 => 16 ≤ bits q 7 0 && 16 ≤ bits q 15 8 && 24 ≤ bits q 23 16
  | _ => decide (|signed 16 q| ≤ 64)

/-- States in which calibration measures (R422). -/
def State.calRuns? (s : State) (die item : Nat) : Bool := s.running && s.dieLive die && itemOn item die

/-- The measurement of an item may be taken on a die: SENSOR's only while CAL_RUN runs it, MEMORY's not in panic but where it is
forced (R422, 04 R100, R107). -/
def Die.measures (d : Die) (item : Nat) : Bool :=
  if item = 4 then d.cal.sensorRun else if item = 3 then !d.mem.panic || d.mem.forced else true

/-- CAL_MEASUREMENT (R422, R432): a measurement of one value with its instance's quality word. -/
def execCalMeasurement (die item index : Nat) (value : Int) (quality : Nat) (s : State) : Res :=
  .next (if !s.calRuns? die item || !(s.die die).measures item then s
  else
    let inst := index / itemStride item
    let was := s.qualityOk item inst (((s.die die).cal.quality.getD item []).getD inst 0)
    let good := s.qualityOk item inst quality
    let s := (s.modDie die fun d =>
      { d with cal := { d.cal with
          measured := d.cal.measured.modify item fun l => l.set index value
          quality := d.cal.quality.modify item fun l => l.set inst quality
          below := if good then d.cal.below else d.cal.below ||| BitVec.ofNat 5 (2 ^ item) }
               mem.forced := if item = 3 then false else d.mem.forced }).count die 165 1
    if was && !good then s.signal 26 else s)

/-- No pass RUNNING and the stripe-start compare not armed (R424). -/
def State.calGap (s : State) : Bool :=
  !(s.seq.stripes.any fun st => st.phase == .running) && (s.locus.compares.getD 15 Compare.reset).state != .armed

/-- A window for a step of an item (R424); in panic MEMORY's correction is deferred (04 R100). -/
def State.calWindow (s : State) (die item inst : Nat) : Bool :=
  let m := (s.die die).mem
  match item with
  | 0 => s.calGap && (s.lane (12 * die + inst)).power == .l0 && (s.lane (12 * die + inst)).state == .up
  | 1 => s.calGap && (s.source inst).valid
  | 2 => s.calGap
  | 3 => !m.panic && (s.calGap || (m.makeUp && m.panicOff ≤ m.lead))
  | _ => false

/-- Whether pending steps of an item may be applied (R423). -/
def State.calAllowed (s : State) (die item : Nat) : Bool :=
  (s.die die).cal.auto.getLsbD item || s.calRuns.any fun r => r.dies.contains die && bit r.mask item

/-- CAL_STEP (R423, R424): one step toward the measurement, within a window. -/
def execCalStep (die item index : Nat) (s : State) : Res :=
  let c := (s.die die).cal
  let inst := index / itemStride item
  let v := c.value item index
  let m := c.measure item index
  .next (if !s.calRuns? die item || v = m || !s.calAllowed die item || !s.calWindow die item inst then s
  else
    let s := (s.modDie die fun d =>
      { d with cal := { d.cal with
          values := d.cal.values.modify item fun l => l.set index (if v < m then v + 1 else v - 1)
          steps := satInc d.cal.steps } }).count die 164 1
    if item = 0 then s.modLane (12 * die + inst) fun l => l.addElem 0x0D ((s.die die).cal.ffeWord inst) [] false else s)

/-! ### Commands -/

/-- CAL_RUN (R427). -/
def calRunBody (p : Packet) (c : Ctx) (s : State) : State :=
  let mask := p.param 0
  let dies := if p.isDev then s.liveDies else [p.target]
  let laneUp := dies.any fun d => (s.die d).lanes.any fun l => l.power == .l0 && !l.retired
  if mask = 0 ∨ 32 ≤ mask ∨ (!p.isDev ∧ p.target ≠ 0 ∧ (bit mask 1 ∨ bit mask 2)) then s.finish c badParam []
  else if bit mask 4 && (s.ctl.dev ≠ .configured || laneUp) then s.finish c calConditions []
  else
    let s := if bit mask 4 then
        s.modDies fun d => if dies.contains d.id then { d with cal := { d.cal with sensorRun := true } } else d
      else s
    let run : CalRun := { ctx := c, dies := dies, mask := mask }
    ({ s with calRuns := s.calRuns ++ [run] }).interim c ok []

/-- Items of a run that have converged on every die it names (R427). -/
def State.converged (s : State) (r : CalRun) : Nat :=
  ((List.range 5).map fun i =>
    let done := r.dies.all fun d =>
      !itemOn i d || (if i = 4 then !(s.die d).cal.sensorRun else !(s.die d).cal.pendingItem i)
    if bit r.mask i && done then 2 ^ i else 0).sum

/-- CAL_RUN_COMPLETE (R427): the first run that has converged ends with OK, or the oldest after its 60 s with
CAL_INCOMPLETE. -/
def execCalRunComplete (s : State) : Res :=
  let pick := match s.calRuns.find? fun r => s.converged r == r.mask with
    | some r => some r
    | none => s.calRuns.head?
  .next (match pick with
  | none => s
  | some r =>
    let m := s.converged r
    (({ s with calRuns := s.calRuns.erase r }).final r.ctx (if m = r.mask then ok else calIncomplete) [m]).signal 26)

/-- SENSOR_CAL_COMPLETE (R425): the round end after the 10 s measurement sets o_s within ±4 °C. -/
def execSensorCalComplete (offsets : List (Nat × Nat × Int)) (s : State) : Res :=
  .next (s.modDies fun d =>
    if !d.cal.sensorRun then d
    else
      let mine := offsets.filterMap fun o => if o.1 = d.id then some o.2 else none
      let good := fun (v : Int) => decide (|v| ≤ 64)
      { d with
        cal := { d.cal with
          sensorRun := false
          sensorOut := mine.foldl (fun b o => if good o.2 then b else b ||| BitVec.ofNat 12 (2 ^ o.1)) d.cal.sensorOut }
        pow.sensors := mine.foldl (fun l o =>
          l.modify o.1 fun x => if good o.2 && !x.excluded then { x with offset := o.2 } else x) d.pow.sensors })

/-- The bytes of a section's instances (Table 17-3). -/
def State.calInstances (s : State) (die item : Nat) : List Word :=
  let c := (s.die die).cal
  let v := fun i => c.value item i
  let q := fun i => (c.quality.getD item []).getD i 0
  let w16 := fun (a b : Int) => BitVec.ofNat 32 (unsigned 16 a + unsigned 16 b * 2 ^ 16)
  match item with
  | 0 => (List.range 12).map fun k =>
      BitVec.ofNat 32 (unsigned 8 (v (3 * k)) + unsigned 8 (v (3 * k + 1)) * 2 ^ 8 + unsigned 8 (v (3 * k + 2)) * 2 ^ 16
        + (s.lane (12 * die + k)).rate % 4 * 2 ^ 24)
  | 1 => (List.range 4).flatMap fun k => [w16 (v (4 * k)) (v (4 * k + 1)), w16 (v (4 * k + 2)) (v (4 * k + 3))]
  | 2 => (List.range 2).map fun k => BitVec.ofNat 32 (unsigned 16 (v k))
  | 3 => memorySection (c.values.getD 3 []) (q 0)
  | _ => (List.range 12).map fun k => BitVec.ofNat 32 (s16 ((s.die die).pow.sensors.getD k Sensor.reset).offset * 2 ^ 16)

/-- Instances of an item on a die. -/
def itemInstances (item : Nat) : Nat := if item = 1 then 4 else if item = 2 then 2 else if item = 3 then 1 else 12

/-- A section with its header (Table 17-3). -/
def State.calSection (s : State) (die item : Nat) : List Word :=
  let b := s.calInstances die item
  [BitVec.ofNat 32 (item + die * 2 ^ 8 + (8 + 4 * b.length) * 2 ^ 16), BitVec.ofNat 32 (itemInstances item)] ++ b

/-- CAL_READ (R428). -/
def calReadBody (p : Packet) (c : Ctx) (s : State) : State :=
  let item := p.param 0
  if 5 ≤ item ∨ !itemOn item p.target then s.finish c badParam []
  else
    let q := (List.range (itemInstances item)).map fun i =>
      BitVec.ofNat 32 (((s.die p.target).cal.quality.getD item []).getD i 0)
    let ws := s.calSection p.target item ++ q
    (s.hostWrite (p.param64 1) ws).finish c ok [4 * ws.length]

/-- Calibration slots of the running bank: positions in Flash.cal (18 Table 18-2). -/
def State.calSlots (s : State) : Nat × Nat := (2 * s.ctl.bank, 2 * s.ctl.bank + 1)

/-- The newest valid record of two slots and the slot it is in. -/
def newestCal (cal : List (Option CalRecord)) (a b : Nat) : Option (Nat × CalRecord) :=
  match (cal.getD a none), (cal.getD b none) with
  | some x, some y => if x.generation < y.generation then some (b, y) else some (a, x)
  | some x, none => some (a, x)
  | none, some y => some (b, y)
  | none, none => none

/-- A record of every item of every die (R429, R430). -/
def State.calRecord (s : State) (generation : Nat) : CalRecord :=
  let secs := (List.range s.nDies).flatMap fun d =>
    ((List.range 5).filter fun i => itemOn i d).map fun i => s.calSection d i
  let body := secs.flatten
  let head : List Word := [0x524C4143, BitVec.ofNat 32 (secs.length * 2 ^ 8 + 1), BitVec.ofNat 32 generation,
    BitVec.ofNat 32 (32 + 4 * body.length), BitVec.ofNat 32 s.timeNs, lo32 s.timeSec, hi32 s.timeSec]
  { generation := generation, check := crcWords (0xFFFFFFFF ^^^ BitVec.ofNat 32 generation) (head ++ body)
    values := s.dies.map fun d => d.cal.values, offsets := s.dies.map fun d => d.pow.sensors.map (·.offset) }

/-- CAL_STORE (R429); the first outside word is nonzero where the flash write or its verification fails. -/
def calStoreBody (env : List Word) (_p : Packet) (c : Ctx) (s : State) : State :=
  let (a, b) := s.calSlots
  let newest := newestCal s.flash.cal a b
  let slot := match newest with | some (i, _) => if i = a then b else a | none => a
  let r := s.calRecord (match newest with | some (_, x) => x.generation + 1 | none => 1)
  if env.headD 0 ≠ 0 then ({ s with flash.cal := s.flash.cal.set slot none }).finish c calStoreFailed []
  else (({ s with flash.cal := s.flash.cal.set slot (some r) }).finish c ok [r.check.toNat]).signal 26

/-- Loading at boot (R431): the record with the higher generation, else the defaults; the MEMORY values in force stay those of
the training (R426). -/
def State.loadCal (s : State) : State :=
  let (a, b) := s.calSlots
  match newestCal s.flash.cal a b with
  | none => s.modDies fun d => { d with cal := { d.cal with noRecord := true, gen := 0 } }
  | some (_, r) =>
    s.modDies fun d =>
      let v := (r.values.getD d.id Cal.resetValues).set 3 (d.cal.values.getD 3 [])
      { d with
        cal := { d.cal with noRecord := false, gen := r.generation, values := v, measured := v }
        pow.sensors := d.pow.sensors.zipIdx.map fun x => { x.1 with offset := (r.offsets.getD d.id []).getD x.2 0 } }

def execCalRun (p : Packet) (s : State) : Res := s.direct 0x0700 p calRunBody
def execCalRead (p : Packet) (s : State) : Res := s.direct 0x0701 p calReadBody
def execCalStore (p : Packet) (env : List Word) (s : State) : Res := s.direct 0x0702 p (calStoreBody env)

/-! ### Counters -/

/-- A global snapshot (R435). -/
def State.snapshot (s : State) : State :=
  ({ s with perf.snapSeq := wrapAdd s.perf.snapSeq 1 }).modDies fun d =>
    if d.retired then d else { d with perf := { d.perf with snap := d.perf.cnt } }

/-- The header's first five words (R436). -/
def State.snapHeader (s : State) : List Nat :=
  [s.perf.snapSeq, s.nDies + s.dieMask * 2 ^ 8, s.timeNs, s.timeSec % 2 ^ 32, s.timeSec / 2 ^ 32]

/-- A snapshot record (R436). -/
def State.snapRecord (s : State) : List Word :=
  (s.snapHeader.map (BitVec.ofNat 32)) ++ List.replicate 11 0
    ++ s.dies.flatMap fun d => d.perf.snap.flatMap fun n => [lo32 n, hi32 n]

/-- COUNTER_SNAPSHOT (R436). -/
def counterSnapshotBody (p : Packet) (c : Ctx) (s : State) : State :=
  let s := s.snapshot
  (s.hostWrite (p.param64 0) s.snapRecord).finish c ok [s.perf.snapSeq]

/-- COUNTER_STREAM (R436). -/
def counterStreamBody (p : Packet) (c : Ctx) (s : State) : State :=
  let ch := p.param 0 % 8
  let period := p.param 1
  if period = 0 then (({ s with perf.stream := none }).unbindT .counters).finish c ok []
  else if period < 100 ∨ 10000000 < period then s.finish c badParam []
  else if !s.bindable ch .counters then s.finish c dmaChannelBusy []
  else (({ s with perf.stream := some (ch, period) }).bindT ch .counters).finish c ok []

def execCounterSnapshot (p : Packet) (s : State) : Res := s.direct 0x0A00 p counterSnapshotBody
def execCounterStream (p : Packet) (s : State) : Res := s.direct 0x0A01 p counterStreamBody

/-- COUNTER_STREAM_PERIOD (R436): a snapshot record goes to the stream's channel. -/
def execCounterStreamPeriod (s : State) : Res :=
  .next (match s.perf.stream with
  | none => s
  | some (ch, _) => if s.running then let s := s.snapshot; s.record ch .counters s.snapRecord else s)

/-- MIRROR_SNAPSHOT (R435, R437): BAR2's mirror is rewritten between two increments of its update word. -/
def execMirrorSnapshot (s : State) : Res :=
  .next (if s.domOn 0 7 then
    let s := s.snapshot
    { s with
      perf.mirror := s.snapHeader
      perf.mirrorCnt := s.dies.map fun d => d.perf.snap.take 63
      perf.update := wrapAdd s.perf.update 2 }
  else s)

end Sys2Proof.Machine
end

