-- ==== Sys2Proof/Machine/Flash.lean ====
section
/-! DEFINITION. The boot flash: bank selector, flash blocks, manifests and the verification of a bank (18_boot_update.md
R442-R446, R450). -/

namespace Sys2Proof.Machine

/-! ### The bank selector (R443) -/

def Selector.default : Selector :=
  { sequence := 0, validA := true, validB := true, trials := 0, trial := false, active := 0, versionA := 0, versionB := 0 }

/-- The selector in force, or bank A, CONFIRMED, both banks valid. -/
def State.selectorOr (s : State) : Selector := s.selector.getD Selector.default

/-- Write a selector over the copy with the lower sequence (R443). -/
def State.writeSelector (s : State) (f : Selector → Selector) : State :=
  let cur := s.selectorOr
  let new := { f cur with sequence := cur.sequence + 1 }
  let copy := match s.flash.sel with
    | [some a, some b] => if a.sequence < b.sequence then 0 else 1
    | [some _, none] => 1
    | _ => 0
  { s with flash.sel := s.flash.sel.set copy (some new) }

def Selector.valid (x : Selector) (bank : Nat) : Bool := if bank = 0 then x.validA else x.validB

def Selector.setValid (x : Selector) (bank : Nat) (b : Bool) : Selector :=
  if bank = 0 then { x with validA := b } else { x with validB := b }

def Selector.setVersion (x : Selector) (bank : Nat) (v : Word) : Selector :=
  if bank = 0 then { x with versionA := v } else { x with versionB := v }

/-! ### Blocks and manifest (R444, R445) -/

/-- Size of a bank in bytes (Table 18-2). -/
def bankSize : Nat := 62 * 2 ^ 20

/-- The words of flash block k of a bank. -/
def flashBlock (ws : List Word) (k : Nat) : List Word := (ws.drop (1024 * k)).take 1024

/-- Block k of a bank passes its CRC (R444). -/
def blockPasses (base : Nat) (ws : List Word) (k : Nat) : Bool :=
  let b := flashBlock ws k
  b.length == 1024 && b.getD 1023 0 == blockCheck (base + 4096 * k) (b.take 1023)

/-- The data words of n blocks from block k up. -/
def flashData (ws : List Word) (k n : Nat) : List Word := (List.range n).flatMap fun i => (flashBlock ws (k + i)).take 1023

/-- A manifest entry (Table 18-4). -/
structure ManifestEntry where
  kind : Nat
  target : Nat
  version : Word
  offset : Nat
  length : Nat
  deriving DecidableEq, Repr

/-- A manifest's header and entries (Table 18-4). -/
structure Manifest where
  variants : Nat
  settings : Nat
  version : Word
  security : Nat
  entries : List ManifestEntry
  deriving DecidableEq, Repr

def ManifestEntry.parse (ws : List Word) : ManifestEntry :=
  { kind := bits (wordAt ws 0) 7 0, target := bits (wordAt ws 0) 15 8, version := ws.getD 1 0, offset := wordAt ws 2
    length := wordAt ws 3 }

/-- Flash blocks an entry's image occupies (R444). -/
def ManifestEntry.blocks (e : ManifestEntry) : List Nat :=
  (List.range (ceilDiv e.length 4092)).map fun i => e.offset / 4096 + i

/-- An entry's fields lie within Table 18-4, and its image within the bank (R446). -/
def ManifestEntry.fits (e : ManifestEntry) : Bool :=
  decide (1 ≤ e.kind ∧ e.kind ≤ 4 ∧ e.offset % 4096 = 0 ∧ 16384 ≤ e.offset
    ∧ (if e.kind = 1 then e.target < 8 else e.target = 0xFF)
    ∧ e.length ≤ (if e.kind = 1 then 512 * 1024 else 4 * 2 ^ 20)
    ∧ e.offset + 4096 * ceilDiv e.length 4092 ≤ bankSize)

/-- The manifest in the first 4 blocks of a bank; none where its magic, its version or its count of entries is not that of
Table 18-4. -/
def Manifest.parse (ws : List Word) : Option Manifest :=
  let d := flashData ws 0 4
  let n := bits (wordAt d 1) 15 8
  if wordAt d 0 ≠ 0x57464744 ∨ bits (wordAt d 1) 7 0 ≠ 1 ∨ n < 1 ∨ 200 < n then none
  else
    some { variants := bits (wordAt d 1) 23 16, settings := bits (wordAt d 1) 31 24, version := d.getD 2 0
           security := wordAt d 3
           entries := (List.range n).map fun i => ManifestEntry.parse (d.drop (16 * (i + 1))) }

def bankManifest (x : BankImage) : Option Manifest := Manifest.parse x.content

/-- Image version of a bank; 0 where it has no manifest. -/
def bankVersion (x : BankImage) : Word := ((bankManifest x).map (·.version)).getD 0

/-- Security version of a bank; 0 where it has no manifest. -/
def bankSecurity (x : BankImage) : Nat := ((bankManifest x).map (·.security)).getD 0

/-- The head receiver firmware entry of a bank. -/
def headEntry (x : BankImage) : Option ManifestEntry :=
  (bankManifest x).bind fun m => m.entries.find? fun e => e.kind == 4

/-- Version of the head receiver firmware of a bank (R449). -/
def headVersionOf (x : BankImage) : Option Word := (headEntry x).map (·.version)

/-- Bytes of the head receiver firmware of a bank. -/
def headImage (x : BankImage) : List Byte :=
  match headEntry x with
  | none => []
  | some e => (wordsBytes (flashData x.content (e.offset / 4096) (ceilDiv e.length 4092))).take e.length

/-- Blocks that the verification of a bank checks: the manifest's and those of its images (R446). -/
def checkedBlocks (x : BankImage) : List Nat :=
  List.range 4 ++ (((bankManifest x).map (·.entries)).getD []).flatMap (·.blocks)

/-! ### Verification (R446) -/

/-- Bit of a variant in a manifest's variants field (Table 18-4). -/
def Variant.manifestBit : Variant → Nat
  | .dg2 => 0
  | .dg4 => 1
  | .dg8 => 2

/-- The entry set is that of R446 for a device of the dies given. -/
def Manifest.setOk (m : Manifest) (dies : Nat) : Bool :=
  let n := fun p => (m.entries.filter p).length
  m.entries.all (·.fits)
    && (List.range dies).all (fun d => n (fun e => e.kind == 1 && e.target == d) == 1)
    && n (fun e => e.kind == 2) == 1 && n (fun e => e.kind == 3) == 1 && decide (n (fun e => e.kind == 4) ≤ 1)

/-- The manifest is acceptable to this device: variant, security version, layout and entry set (R446). -/
def State.manifestOk (s : State) (x : BankImage) : Bool :=
  match bankManifest x with
  | none => false
  | some m => bit m.variants s.fuses.variant.manifestBit && decide (s.fuses.minSecurity ≤ m.security) && m.setOk s.nDies

/-- The status of a bank that does not verify, in the order of R450's list; none when it verifies (R446). An image that
misses its digest answers as one whose layout or set is not acceptable (DEDUCED, notes/assumptions/48.md). -/
def State.imageStatus (s : State) (b : Nat) (x : BankImage) : Option (Nat × List Nat) :=
  match (checkedBlocks x).find? fun k => !blockPasses (bankBase b) x.content k with
  | some k => some (updateCheck, [bankBase b + 4096 * k])
  | none =>
    if !x.keyOk || !x.signatureOk then some (updateSignature, [])
    else if !s.manifestOk x || !x.digestsOk then some (updateImage, [])
    else none

/-- A bank verifies (R446). -/
def State.bankVerifies (s : State) (b : Nat) : Bool :=
  match s.flash.banks.getD b none with
  | none => false
  | some x => (s.imageStatus b x).isNone

end Sys2Proof.Machine
end

