-- ==== Sys2Proof/Machine/HostIf.lean ====
section
/-! DEFINITION. The rings' registers: doorbells, enabling and disabling, base and size, interrupt coalescing
(02_host_commands.md R51-R57, R71). -/

namespace Sys2Proof.Machine

/-! ### Rings -/

def CmdRing.size (r : CmdRing) : Nat := 2 ^ r.log2

/-- A command ring's doorbell: the host's tail; a value not below the size is ignored (R52). -/
def CmdRing.doorbell (r : CmdRing) (v : Nat) : CmdRing := if v < r.size then { r with tail := v } else r

/-- Enabling resets head and doorbell to 0 (R56). -/
def CmdRing.enable (r : CmdRing) : CmdRing := if r.enabled then r else { r with enabled := true, head := 0, tail := 0 }

def CmdRing.disable (r : CmdRing) : CmdRing := { r with enabled := false }

/-- Enabling the status ring resets tail and doorbell to 0 and the phase to 1 (R56). -/
def StatRing.enable (r : StatRing) : StatRing :=
  if r.enabled then r else { r with enabled := true, tail := 0, head := 0, phase := true }

/-- Disabling the status ring releases every reservation (R56). -/
def StatRing.disable (r : StatRing) : StatRing :=
  if r.enabled then { r with enabled := false, reserved := 0, gen := r.gen + 1 } else r

/-- The doorbell's index field (HIF_DB_NCMD). -/
def dbIndex (v : Word) : Nat := v.toNat % 2 ^ 13

/-! ### The endpoint (R46, R47, R50) -/

/-- What the endpoint supports (Table 2-1): rates in GT/s, widths, sizes in bytes. -/
structure PcieCaps where
  deviceId : Nat
  classCode : Nat
  headerType : Nat
  rates : List Nat
  widths : List Nat
  maxPayload : Nat
  maxReadRequest : Nat
  tagBits : Nat
  outstanding : Nat
  msixVectors : Nat
  msi : Bool
  intx : Bool
  d3hot : Bool
  aspmL1 : Bool
  l0s : Bool
  l0p : Bool
  aer : Bool
  flr : Bool
  deriving DecidableEq, Repr

/-- Table 2-1; what the table lists as not supported (SR-IOV, ATS, PRI, PASID, expansion ROM, atomic operations, TPH) has no
field, since nothing beyond the table is advertised. -/
def Variant.pcieCaps (v : Variant) : PcieCaps :=
  { deviceId := 0xD600 + v.dies, classCode := 0x120000, headerType := 0, rates := [64, 32, 16, 8], widths := [16, 8, 4]
    maxPayload := 512, maxReadRequest := 4096, tagBits := 10, outstanding := 768, msixVectors := 64, msi := false, intx := false
    d3hot := true, aspmL1 := true, l0s := false, l0p := false, aer := true, flr := true }

/-- Bytes of BAR0 and BAR2 (R47). -/
def bar0Size : Nat := 0x4000000
def bar2Size : Nat := 0x1000

/-- A write to one half of a BAR's base: the bits below its size stay 0. -/
def barHalf (size : Nat) (x : BitVec 64) (high : Bool) (v : Nat) : BitVec 64 :=
  let n := if high then x.toNat % 2 ^ 32 + v * 2 ^ 32 else x.toNat / 2 ^ 32 * 2 ^ 32 + v
  BitVec.ofNat 64 (n / size * size)

/-- A configuration register: vendor and device, class and revision, header type, BARs (R47: 64-bit memory BARs, BAR2
prefetchable; every other BAR and the expansion ROM read 0), payload and read request sizes. -/
def State.configReg (s : State) (a : Nat) : Nat :=
  let c := s.fuses.variant.pcieCaps
  match a with
  | 0x00 => c.deviceId * 65536 + Config.vendorId.toNat
  | 0x08 => c.classCode * 256 + Config.revisionId.toNat
  | 0x0C => c.headerType * 65536
  | 0x10 => s.pcie.bar0.toNat % 2 ^ 32 + 0x4
  | 0x14 => s.pcie.bar0.toNat / 2 ^ 32
  | 0x18 => s.pcie.bar2.toNat % 2 ^ 32 + 0xC
  | 0x1C => s.pcie.bar2.toNat / 2 ^ 32
  | 0x48 => s.pcie.mps * 32 + s.pcie.mrrs * 4096
  | _ => 0

/-- A write of a configuration register: sizes above what the endpoint supports are stored as the largest. -/
def Pcie.write (p : Pcie) (a : Nat) (w : Word) : Pcie :=
  let v := w.toNat
  match a with
  | 0x10 => { p with bar0 := barHalf bar0Size p.bar0 false v }
  | 0x14 => { p with bar0 := barHalf bar0Size p.bar0 true v }
  | 0x18 => { p with bar2 := barHalf bar2Size p.bar2 false v }
  | 0x1C => { p with bar2 := barHalf bar2Size p.bar2 true v }
  | 0x48 => { p with mps := min (bits v 7 5) 2, mrrs := min (bits v 14 12) 5 }
  | _ => p

/-- The mask bit of a vector is written; a pending message of a vector that is no longer masked is sent (R50). -/
def State.maskVector (s : State) (v : Nat) (masked : Bool) : State :=
  let b := BitVec.ofNat 64 (2 ^ v)
  ({ s with ctl.msixMask := if masked then s.ctl.msixMask ||| b else s.ctl.msixMask &&& ~~~b }).sendPending

/-- Bytes of the maximum payload and of the maximum read request (Table 2-1). -/
def Pcie.maxPayload (p : Pcie) : Nat := 128 * 2 ^ p.mps
def Pcie.maxReadRequest (p : Pcie) : Nat := 128 * 2 ^ p.mrrs

/-! ### Meanings -/

/-- HIF_DB_NCMD_WRITE (R52). -/
def execHifDbNcmdWrite (value : Word) (s : State) : Res :=
  .next (if !s.hifOn then s
  else if dbIndex value < s.hif.ncmd.size then { s with hif.ncmd := s.hif.ncmd.doorbell (dbIndex value) }
  else s.hifErr 0)

/-- HIF_DB_UCMD_WRITE (R52). -/
def execHifDbUcmdWrite (value : Word) (s : State) : Res :=
  .next (if !s.hifOn then s
  else if dbIndex value < s.hif.ucmd.size then { s with hif.ucmd := s.hif.ucmd.doorbell (dbIndex value) }
  else s.hifErr 0)

/-- HIF_DB_STAT_WRITE: the host's head; room that comes free drains the holding queue (R52, R54). -/
def execHifDbStatWrite (value : Word) (s : State) : Res :=
  .next (if !s.hifOn then s
  else if dbIndex value < 2 ^ s.hif.stat.log2 then ({ s with hif.stat.head := dbIndex value }).drainHolding
  else s.hifErr 0)

/-- NORMAL_RING_ENABLE, URGENT_RING_ENABLE, STATUS_RING_ENABLE: the enable bit goes from 0 to 1 (R56). -/
def execNormalRingEnable (s : State) : Res := .next (if s.hifOn then { s with hif.ncmd := s.hif.ncmd.enable } else s)
def execUrgentRingEnable (s : State) : Res := .next (if s.hifOn then { s with hif.ucmd := s.hif.ucmd.enable } else s)
def execStatusRingEnable (s : State) : Res := .next (if s.hifOn then { s with hif.stat := s.hif.stat.enable } else s)

/-- NORMAL_RING_DISABLE, URGENT_RING_DISABLE: fetching stops; fetched commands go on (R56). -/
def execNormalRingDisable (s : State) : Res := .next (if s.hifOn then { s with hif.ncmd := s.hif.ncmd.disable } else s)
def execUrgentRingDisable (s : State) : Res := .next (if s.hifOn then { s with hif.ucmd := s.hif.ucmd.disable } else s)

/-- Disabling the status ring also discards the holding queue, and the entries that D3hot keeps (R56). -/
def State.disableStatus (s : State) : State :=
  { s with hif.stat := s.hif.stat.disable, hif.holding := [], hif.deferred := [] }

/-- STATUS_RING_DISABLE (R56). -/
def execStatusRingDisable (s : State) : Res := .next (if s.hifOn then s.disableStatus else s)

/-- IRQ_COALESCE_TIMEOUT: vector 0 is signalled for the entries not yet signalled (R71). -/
def execIrqCoalesceTimeout (s : State) : Res :=
  .next (if 0 < s.hif.unsignalled && 0 < s.hif.coalUs then ({ s with hif.unsignalled := 0 }).message 0 else s)

end Sys2Proof.Machine
end

