-- ==== Sys2Proof/Machine/Boot.lean ====
section
/-! DEFINITION. Resets, boot and link events (18_boot_update.md R438-R457, 02_host_commands.md R48-R49, 01 R43). -/

namespace Sys2Proof.Machine

/-! ### BOOT_START (R447, R448, R453, R454, 04 R96-R99) -/

/-- A DRAM configuration of 04 Table 4-1: rate code 0 6,400, 1 7,500, 2 8,533 MT/s; capacity with one or two ranks. -/
def dramSupported (r : DramReport) : Bool :=
  r.linkEcc && decide (r.rate < 3)
    && ((r.ranks == 0 && (r.capacityGib == 4 || r.capacityGib == 6 || r.capacityGib == 8))
      || (r.ranks == 1 && (r.capacityGib == 8 || r.capacityGib == 12 || r.capacityGib == 16)))

/-- Margins at or above the limits of 17 Table 17-4. -/
def marginsOk (q : Nat) : Bool := 16 ≤ bits q 7 0 && 16 ≤ bits q 15 8 && 24 ≤ bits q 23 16

/-- The saved training values, where their check word is good (R98, R99). -/
def savedTraining (r : DramReport) (saved : Option (List Int × Nat × Word)) : Option (List Int × Nat) :=
  match saved with
  | none => none
  | some (v, q, c) => if c ^^^ r.flip = trainingCheck v q then some (v, q) else none

/-- The training values and margins with which a die's memory starts (R98, R99): the saved ones if a fast verification passes,
else those of a full training if its margins are within their limits. -/
def trainedValues (r : DramReport) (saved : Option (List Int × Nat × Word)) : Option (List Int × Nat) :=
  let full := if marginsOk r.margins then some (r.values, r.margins) else none
  match savedTraining r saved with
  | some x => if r.fastOk then some x else full
  | none => full

/-- Whether the memory of every non-retired die starts, with the same rate and capacity on all (R96, R98). A die that differs
from die 0 in its ranks alone differs too: R96 asks for one rate and capacity and speaks of 'any die differs' (DESIGN CHOICE,
notes/assumptions/46.md). -/
def State.memoryStarts (s : State) (drams : List DramReport) : Bool :=
  match drams with
  | [] => false
  | r0 :: _ =>
    s.dies.all fun d => d.retired ||
      (match drams[d.id]? with
      | none => false
      | some r => dramSupported r && r.rate == r0.rate && r.capacityGib == r0.capacityGib && r.ranks == r0.ranks
          && (trainedValues r d.mem.saved).isSome)

/-- The memory controller of a die after its start: MEMORY values and margins in force, histories and open rows cleared (R102,
MEM_INFO, 17 R426). -/
def Die.train (r : DramReport) (d : Die) : Die :=
  let x := (trainedValues r d.mem.saved).getD (r.values, r.margins)
  let failed := (savedTraining r d.mem.saved).isSome && !r.fastOk
  { d with
    mem := { d.mem with
      state := .active, capacity := r.capacityGib, rate := r.rate, ranks := r.ranks
      saved := some (x.1, x.2, trainingCheck x.1 x.2)
      err := if failed then d.mem.err ||| 2#4 else d.mem.err
      history := List.replicate 16 0, opened := List.replicate 16 none }
    cal := { d.cal with
      values := d.cal.values.set 3 x.1, measured := d.cal.measured.set 3 x.1, quality := d.cal.quality.set 3 [x.2] } }

/-- The memory controllers after training. -/
def State.trainMemory (s : State) (drams : List DramReport) : State :=
  s.modDies fun d =>
    match drams[d.id]? with
    | none => d
    | some r => if d.retired then d else d.train r

/-- Boot runs on from a bank: firmware loads (R448). -/
def State.bootBank (s : State) (bank : Nat) (drams : List DramReport) : State :=
  let s := (s.trainMemory drams).modDies fun d => { d with apex := 2, imageOk := true }
  { s with ctl.boot := .loading, ctl.bank := bank, ctl.fw := ((s.flash.banks.getD bank none).map bankVersion).getD 0 }

/-- Neither bank boots (R447). -/
def State.bootFails (s : State) : State := ({ s with ctl.boot := .idle } : State).enterHalted

/-- BOOT_START: the boot ROM of die 0 chooses the bank. -/
def execBootStart (drams : List DramReport) (s : State) : Res :=
  .next (if s.ctl.boot ≠ .rom then s
  else
    let sel := s.selectorOr
    let act := sel.active
    let other := 1 - act
    let mem := s.memoryStarts drams
    let boots := fun (s : State) b => mem && s.bankVerifies b
    if sel.trial && (3 ≤ sel.trials || s.ctl.fallBackFlag || !boots s act) then
      let s := s.writeSelector fun x => ({ x with active := other, trial := false, trials := 0 }).setValid act false
      let s := { s with ctl.fallBackFlag := false, ctl.fellBack := true, ctl.trials := 0 }
      if boots s other then s.bootBank other drams else s.bootFails
    else if sel.trial then
      let s := s.writeSelector fun x => { x with trials := x.trials + 1 }
      { s.bootBank act drams with ctl.trials := sel.trials + 1 }
    else if boots s act then { s.bootBank act drams with ctl.trials := 0 }
    else if sel.valid other && boots s other then
      { s.bootBank other drams with ctl.altBank := true, ctl.trials := 0 }
    else s.bootFails)

/-! ### BOOT_COMPLETE -/

/-- The calibration slots of a bank on trial that hold no valid record take the newest of the other bank's (R453). -/
def State.trialCal (s : State) : State :=
  let (a, b) := s.calSlots
  let o := 2 * (1 - s.ctl.bank)
  if s.onTrial && (newestCal s.flash.cal a b).isNone then
    match newestCal s.flash.cal o (o + 1) with
    | none => s
    | some (_, r) => { s with flash.cal := (s.flash.cal.set a (some r)).set b (some r) }
  else s

/-- Self-tests of the compression engines and check-value units (14 R363, R369). -/
def State.selfTests (s : State) (compFail : List Nat) (crcFail : List (Nat × Nat)) : State :=
  let s := s.modDies fun d =>
    { d with
      comp.selftestOk := !compFail.contains d.id
      crc := d.crc.zipIdx.map fun u => { u.1 with selftestOk := !crcFail.contains (d.id, u.2) } }
  let s := (compFail.filter (· < s.nDies)).foldl (fun s d => s.detectOpen 0x0008 d 0 0) s
  (crcFail.filter fun x => x.1 < s.nDies && x.2 < 4).foldl (fun s x => s.detectOpen 0x0009 x.1 x.2 0) s

/-- Fault records for the SRAM errors that a die logged before the reset (04 R113). -/
def State.sramRecords (s : State) : State :=
  (List.range s.nDies).foldl (fun s d =>
    match (s.die d).sram.ueLog with
    | none => s
    | some (port, addr) =>
      (s.detect 0x000A d (port % 256) (BitVec.ofNat 32 addr) 0).modDie d fun x => { x with sram.ueLog := none }) s

/-- Ledger entries for the stripe that a reset interrupted, cause WARM_RESET, and its completion status PARTIAL_LEDGERED
(01 R43): an entry of a ring generation that the reset has ended, which R440 and R49 discard (notes/assumptions/47.md). -/
def State.interruptedEntries (s : State) : State :=
  match s.seq.interrupted with
  | none => s
  | some (st, n) =>
    let s := { s with seq.stripes := [st], seq.interrupted := none }
    let s := (s.darkRest st 0x0B st.pass n).flushStripe st.id
    let st := (s.stripe? st.id).getD st
    (({ s with seq.stripes := [], seq.last := none }).pruneSources).final st.ctx partialLedgered [st.strobes, st.written.length]

/-- Causes present at the end of boot take the device on to SAFE_DARK (Table 1-7, R416, 15 R373). -/
def State.bootDark (s : State) : State :=
  let s := if s.ctl.darkN then s.detectOpen 0x0022 0 0 0 else s
  let s := if s.headTrip then s.detectOpen 0x0013 0 0 0 else s
  if s.therm.stopped || s.therm.blind then s.enterSafeDark 0x09 else s

/-- BOOT_COMPLETE (R448): firmware runs, the interpreter is ready and the device is CONFIGURED. -/
def execBootComplete (compFail : List Nat) (crcFail : List (Nat × Nat)) (s : State) : Res :=
  .next (if s.ctl.boot ≠ .loading then s
  else
    let (n, s) := s.draw
    let s := { s with ctl.boot := .idle, ctl.ready := true, chord.session := Config.session n, arc.spRunning := true }
    let s := (s.setDev .configured).trialCal.loadCal
    let s := s.modDies fun d => { d with lanes := d.lanes.map fun l => if l.retired then l else { l with state := .down } }
    let s := (s.interruptedEntries.sramRecords).selfTests compFail crcFail
    let s := if s.ctl.fellBack then s.signal 27 else s
    s.updateReplace.bootDark)

/-! ### Resets -/

/-- States in which a warm or software reset acts (Table 1-7). -/
def State.resettable (s : State) : Bool :=
  s.ctl.dev == .configured || s.ctl.dev == .armed || s.ctl.dev == .writing || s.ctl.dev == .safeDark

/-- A device reset that reboots with the rails on: DRAM in self-refresh meanwhile (R440, Table 4-5). -/
def State.deviceReset (s : State) (software : Bool) (cause : Nat) : State :=
  let s := s.resetCommon software
  let s := s.modDies fun d =>
    { d with apex := 1, mem.state := if d.mem.state == .off then .off else if d.retired then d.mem.state else .training }
  { s with ctl.boot := .rom, ctl.bootCause := cause, ctl.resetRequest := none }

/-- BOOT_CAUSE of a requested reset (Table 18-8). -/
def ResetKind.cause : ResetKind → Nat
  | .warm => 2
  | .software => 3
  | .sramError => 4
  | .activation => 5
  | .fallBack => 6

/-- WARM_RESET (R438, R440). -/
def execWarmReset (s : State) : Res :=
  .next (if s.resettable then s.deviceReset false ((s.ctl.resetRequest.map ResetKind.cause).getD 2) else s)

/-- SOFTWARE_RESET (R438, R439): the discarded data is freed after the entries of R43, whose source goes with it. -/
def execSoftwareReset (s : State) : Res := .next (if s.resettable then s.deviceReset true 3 else s)

/-- RESET (R439, Table 2-6): the entry is written first; the reset follows 1 ms later as its own command. -/
def resetBody (p : Packet) (c : Ctx) (s : State) : State :=
  if p.param 0 = 1 then { s.finish c ok [] with ctl.resetRequest := some .warm }
  else if p.param 0 = 2 then { s.finish c ok [] with ctl.resetRequest := some .software }
  else s.finish c badParam []

def execReset (p : Packet) (s : State) : Res := s.direct 0x0004 p resetBody

/-! ### Link events (02 R48, R49; 03 R94) -/

/-- Hot reset, FLR and link-down (R49): rings off, admitted stripes that have not started removed without entries, entries
of commands in progress discarded; host-owned channels back at reset. A function in D3hot stays there: the spec gives no power
state after these events (DESIGN CHOICE, notes/assumptions/46.md). -/
def State.linkReset (s : State) : State :=
  if !s.domOn 0 7 then s
  else
    let s := { s with
      hif := { s.hif with
        ncmd := s.hif.ncmd.disable, ucmd := s.hif.ucmd.disable, stat := s.hif.stat.disable, holding := [], deferred := []
        fenced := none, owing := [], gen := s.hif.gen + 1, unsignalled := 0 } }
    let s := s.resetFunction.removeQueued wrongState
    { s with
      dmaD := s.dmaD.zipIdx.map fun c => if c.1.firmware then c.1 else DmaD.reset (6 ≤ c.2)
      dmaT := List.replicate 8 DmaT.reset
      seq.stream := none, perf.stream := none, locus.captureCh := none, datum.captureCh := none, chord.receiveCh := none }

def execHotReset (s : State) : Res := .next s.linkReset
def execFunctionLevelReset (s : State) : Res := .next s.linkReset
def execLinkDown (s : State) : Res := .next s.linkReset

/-- D3HOT_ENTRY (R48). -/
def execD3hotEntry (s : State) : Res := .next (if s.domOn 0 7 then { s with ctl.d3hot := true } else s)

/-- D3HOT_EXIT (R48, R54): the entries that became due are written in order, and pending messages are sent. -/
def execD3hotExit (s : State) : Res :=
  .next (if s.ctl.d3hot then
    let due := s.hif.deferred
    let s := { s with ctl.d3hot := false, hif.deferred := [] }
    let s := due.foldl (fun s e =>
      if e.ctx.gen ≠ s.hif.gen || !s.hif.stat.enabled then s
      else if s.hif.holding.isEmpty && 0 < s.hif.stat.free then s.putEntry e
      else { s with hif.holding := s.hif.holding ++ [e] }) s
    s.drainHolding.sendPending
  else s)

end Sys2Proof.Machine
end

