-- ==== Sys2Proof/Machine/Check.lean ====
section
/-! DEFINITION. The check-value units (14_compression_crc.md R364-R368). -/

namespace Sys2Proof.Machine

/-- The low w bits of a word. -/
def lowBits (w : Nat) (v : Word) : Word := BitVec.ofNat 32 (v.toNat % 2 ^ w)

/-- The low w bits in reverse order. -/
def reflect (w : Nat) (v : Word) : Word :=
  (List.range w).foldl (fun a i => if v.getLsbD i then a ||| (1#32 <<< (w - 1 - i)) else a) 0

/-- One bit into the running register: right-shifting when input bytes are reflected, left-shifting otherwise (R365). -/
def CrcUnit.bitIn (u : CrcUnit) (v : Word) (b : Bool) : Word :=
  if u.refin then
    let s := v >>> 1
    if v.getLsbD 0 != b then s ^^^ reflect u.width u.poly else s
  else
    let s := lowBits u.width (v <<< 1)
    if v.getLsbD (u.width - 1) != b then s ^^^ u.poly else s

/-- One byte into the running register. -/
def CrcUnit.byteIn (u : CrcUnit) (v : Word) (b : Byte) : Word :=
  (List.range 8).foldl (fun v i => u.bitIn v (b.getLsbD (if u.refin then i else 7 - i))) v

/-- Bytes through the unit: the running register and CRC_BYTES. -/
def CrcUnit.feed (u : CrcUnit) (bs : List Byte) : CrcUnit :=
  { u with value := bs.foldl u.byteIn u.value, bytes := wrapAdd u.bytes bs.length }

/-- CRC_RESULT (R365). -/
def CrcUnit.result (u : CrcUnit) : Word :=
  (if u.refout != u.refin then reflect u.width u.value else u.value) ^^^ u.xorout

def CrcUnit.seed (u : CrcUnit) : Word := u.init ^^^ u.fold0 ^^^ u.fold1 ^^^ u.fold2

/-- A value with a bit set above w (R364). -/
def CrcUnit.wide (u : CrcUnit) (v : Word) : Bool := decide (2 ^ u.width ≤ v.toNat)

/-- Bytes of the trailer (R366). -/
def CrcUnit.trailer (u : CrcUnit) : Nat := ceilDiv u.width 8

/-- CRC_CTRL.start (R364, R365). -/
def CrcUnit.start (u : CrcUnit) : CrcUnit :=
  if u.wide u.poly || u.wide u.init || u.wide u.xorout || u.wide u.fold0 || u.wide u.fold1 || u.wide u.fold2 then
    { u with cfgErr := true }
  else { u with value := u.seed, bytes := 0 }

/-- A write that a descriptor in progress locks out (R367). -/
def CrcUnit.unlocked (u : CrcUnit) (f : CrcUnit → CrcUnit) : CrcUnit := if u.busy then { u with cfgLocked := true } else f u

/-- A width or mode as it is stored (CRC_CTRL). -/
def storedWidth (w : Nat) : Nat := if 1 ≤ w ∧ w ≤ 32 then w else 32
def storedMode (m : Nat) : Nat := if m < 3 then m else 0

/-- The fields of a CRC_CTRL write. -/
def CrcUnit.control (u : CrcUnit) (v : Nat) : CrcUnit :=
  { u with mode := storedMode (bits v 17 16), width := storedWidth (bits v 13 8), refout := bit v 3, refin := bit v 2 }

def State.crcUnit (s : State) (die u : Nat) : CrcUnit := (s.die die).crc.getD u CrcUnit.reset

def State.modCrc (s : State) (die u : Nat) (f : CrcUnit → CrcUnit) : State :=
  s.modDie die fun d => { d with crc := d.crc.modify u f }

/-- Bytes that pass a unit, and its performance counter (17 Table 17-7). -/
def State.feedCrc (s : State) (die u : Nat) (bs : List Byte) : State :=
  (s.modCrc die u fun c => c.feed bs).count die (60 + u) bs.length

/-- Firmware acts on a unit of a die whose FABRIC domain is on. -/
def State.crcPort (s : State) (die u : Nat) (f : CrcUnit → CrcUnit) : Res :=
  .next (if s.domOn die 2 && die < s.nDies && u < 4 then s.modCrc die u fun c => c.unlocked f else s)

/-- Data through a port: bytes through an idle unit. -/
def State.crcBytes (s : State) (die u : Nat) (bs : List Byte) : Res :=
  .next (if s.domOn die 2 && die < s.nDies && u < 4 then
    if (s.crcUnit die u).busy then s.modCrc die u fun c => { c with cfgLocked := true } else s.feedCrc die u bs
  else s)

/-- CRC_START: a write of CRC_CTRL with start set, whose other fields it stores (R364, R365, R367). -/
def execCrcStart (die unit : Nat) (control : Word) (s : State) : Res :=
  s.crcPort die unit fun c => (c.control control.toNat).start

/-- CRC_DATA (R366): four bytes, low byte first. -/
def execCrcData (die unit : Nat) (value : Word) (s : State) : Res := s.crcBytes die unit (wordBytes value)

/-- CRC_DATA8 (R366). -/
def execCrcData8 (die unit : Nat) (value : Byte) (s : State) : Res := s.crcBytes die unit [value]

/-- CRC_VALUE_WRITE (R367): the running register holds its low w bits. -/
def execCrcValueWrite (die unit : Nat) (value : Word) (s : State) : Res :=
  s.crcPort die unit fun c => { c with value := lowBits c.width value }

/-- CRC_BYTES_WRITE (R367). -/
def execCrcBytesWrite (die unit : Nat) (value : Word) (s : State) : Res :=
  s.crcPort die unit fun c => { c with bytes := value.toNat }

end Sys2Proof.Machine
end

