-- ==== Sys2Proof/Machine/Locus.lean ====
section
/-! DEFINITION. Locus: position sources, index, digital inputs, the tracking loop, compare units and configuration
(11_position_shot.md R280-R313). -/

namespace Sys2Proof.Machine

/-! ### Sources and axes -/

/-- Locus works while the IO and CTRL domains of die 0 are on (16 R401). -/
def State.locusOn (s : State) : Bool := s.domOn 0 7 && s.domOn 0 1

/-- The axis that a source serves, in either role (R281). -/
def State.axisOf (s : State) (n : Nat) : Option Nat :=
  (List.range 10).find? fun a => (s.locusAxis a).primary == some n || (s.locusAxis a).secondary == some n

/-- The axis whose primary source it is. -/
def State.primaryOf (s : State) (n : Nat) : Option Nat := (List.range 10).find? fun a => (s.locusAxis a).primary == some n

/-- Every source of an axis is valid; an absent axis is not (R289). -/
def State.axisValid (s : State) (a : Nat) : Bool :=
  match (s.locusAxis a).primary with
  | none => false
  | some p =>
    (s.source p).valid && (match (s.locusAxis a).secondary with | none => a != 0 | some q => (s.source q).valid)

/-- The deviation of the scan axis's two sources, 2^-16 count (R297). -/
def State.scanDev (s : State) : Int := s.axisPos 0 - ((s.locusAxis 0).off2 + s.secondaryCount)

/-- Faults that make a source invalid (Table 11-4): edge_rate, line, amplitude, biss_crc, biss_error, biss_timeout. -/
def invalidating (b : Nat) : Bool := 1 ≤ b && b ≤ 6

/-- No flag of an invalidating fault is set. -/
def Source'.flagsClear (x : Source') : Bool := (List.range 10).all fun b => !(invalidating b && x.faults.getLsbD b)

/-- A source is valid again once its conditions have been absent for 1 ms and its flags are clear (R289), unless barred. -/
def Source'.revalidate (x : Source') : Source' :=
  { x with valid := x.valid || (x.cfg.mode != 0 && !x.bad && !x.barred && x.flagsClear) }

/-- An axis becomes invalid or unreferenced: its homing fails, its move is interrupted (R289, R296, 12 R328, Table 12-5). -/
def State.axisLost (s : State) (a : Nat) (unlock : Bool) : State :=
  let x := s.axis a
  let s := if x.state = .homing then (s.failHoming a false).signal 21
    else if x.state = .moving then (s.stopAxis a true false 5).signal 21 else s
  let s := s.loseReference a
  if a = 0 && unlock then s.loseLock else s

/-- A source fault (R287, R288): its flag, a capture record, vector 20, and for a scan or stripe-step source a report to
Perimeter; an invalidating fault makes source and axis invalid (R289). -/
def State.sourceFault (s : State) (n b : Nat) : State :=
  let x := s.source n
  let was := x.valid
  let drop := invalidating b
  let s := s.modSource n fun x =>
    { x with faults := x.faults ||| BitVec.ofNat 10 (2 ^ b), valid := x.valid && !drop, bad := x.bad || drop }
  let s := (s.capture 0x09 n b x.pos).locusIrq n
  let s := match s.axisOf n with
    | some a => if a < 2 then s.detectOpen 0x0016 0 n 0 else s
    | none => s
  if drop && was then (match s.axisOf n with | some a => s.axisLost a true | none => s) else s

/-- INDEX_MISMATCH (R293, R296): the axis becomes unreferenced, and a scan axis loses lock. -/
def State.indexMismatch (s : State) (n : Nat) : State :=
  let x := s.source n
  let s := s.modSource n fun x => { x with faults := x.faults ||| 0x100 }
  let s := (s.capture 0x09 n 8 x.pos).locusIrq n
  match s.axisOf n with
  | none => s
  | some a => (if a < 2 then s.detectOpen 0x0017 0 n 0 else s).axisLost a true

/-! ### Index (R293-R295) -/

/-- The index period in counts: Tp times the teeth in tooth modes. -/
def SrcCfg.indexPeriod (c : SrcCfg) : Nat := if c.reference = 0 then c.period else c.period * c.teeth

/-- The expected count nearest to a count. -/
def nearestIndex (ref : Int) (period : Nat) (count : Int) : Int := ref + period * roundDiv (count - ref) period

/-- The expected index positions that a move of the count has passed by more than the tolerance: upward the last one below,
downward the last one above (R293). -/
def passedIndex (ref : Int) (period tol : Nat) (before now : Int) : Option Int :=
  if before < now then
    let e := ref + period * ((now - tol - 1 - ref) / period)
    if before ≤ e + tol then some e else none
  else
    let e := ref - period * ((ref - (now + tol + 1)) / period)
    if e - tol ≤ before && now < before then some e else none

/-- A referenced axis passes an expected index (R293): a mismatch where none came. -/
def State.checkMissing (s : State) (n : Nat) (before : Int) : State :=
  let x := s.source n
  let ip := x.cfg.indexPeriod
  match s.axisOf n, x.refCount with
  | some a, some ref =>
    if ip = 0 || !(s.locusAxis a).referenced then s
    else
      match passedIndex ref ip x.cfg.tolerance (before / 65536) (x.pos / 65536) with
      | none => s
      | some e => if x.seen = some e then s.modSource n fun x => { x with seen := none } else s.indexMismatch n
  | _, _ => s

/-! ### Position changes -/

/-- The direction flag follows a count that has moved by the hysteresis against it (R291). -/
def State.direction (s : State) (n : Nat) : State :=
  let x := s.source n
  let h : Int := x.cfg.hysteresis * 65536
  let ext := if x.dir then max x.extreme x.pos else min x.extreme x.pos
  let flips := if x.dir then decide (x.pos + h ≤ ext) else decide (ext + h ≤ x.pos)
  if flips then
    ((s.modSource n fun x => { x with dir := !x.dir, extreme := x.pos, faults := x.faults ||| 0x200 }).capture 0x06 n 0 x.pos).locusIrq n
  else s.modSource n fun x => { x with extreme := ext }

/-- A source's position changes by an amount (2^-16 count): direction, missing index, compare units. -/
def State.moveSource (s : State) (n : Nat) (delta : Int) : State :=
  let before := (s.source n).pos
  let axis := s.primaryOf n
  let from_ := match axis with | some a => s.axisPos a | none => 0
  let s := (s.modSource n fun x => { x with pos := x.pos + delta }).direction n
  let s := s.checkMissing n before
  match axis with
  | some a => if s.axisValid a then s.runCompares a from_ else s
  | none => s

/-! ### A/B/Z (R283) -/

/-- Quadrature phase of the A and B levels: A leads while the count rises. -/
def quadrature (a b : Bool) : Nat := if a then (if b then 2 else 1) else (if b then 3 else 0)

/-- A time at the output of the glitch filter, corrected for the filter's delay (R283): 10 steps of 250 ps a tick. -/
def SrcCfg.edgeTime (c : SrcCfg) (t : Nat) : Nat := t - 10 * c.filter

/-- AB_EDGE (R283, R287): the levels after an edge that the filter let through at time t, in 250 ps steps. -/
def execAbEdge (src : Nat) (a b z : Bool) (t : Nat) (s : State) : Res :=
  .next (
    let x := s.source src
    if !s.locusOn || 12 ≤ src || x.cfg.mode = 0 then s
    else
      let s := s.modSource src fun x => { x with zLevel := z, zIgnored := x.zIgnored && z }
      if x.cfg.mode ≠ 1 || (x.a == a && x.b == b) then s
      else
        let step := (quadrature a b + 4 - quadrature x.a x.b) % 4
        let t := x.cfg.edgeTime t
        let fast := match x.lastEdge with | some u => decide (t < u + 72) | none => false
        let s := s.modSource src fun x => { x with a := a, b := b, lastEdge := some t }
        if step = 2 || fast then s.sourceFault src 1
        else
          let up := (step == 1) != x.cfg.invert
          s.moveSource src (if up then 65536 else -65536))

/-! ### Sin/cos (R284) -/

/-- sin^2 + cos^2 lies within the window; full scale is 0.75 V at 16 bits, the nominal amplitude 0.5 V (20 Table 20-4). -/
def SrcCfg.inWindow (c : SrcCfg) (sin cos : Int) : Bool :=
  let m := (sin * sin + cos * cos) * 22500
  decide ((c.ampLow : Int) ^ 2 * 2 ^ 30 ≤ m) && decide (m ≤ (c.ampHigh : Int) ^ 2 * 2 ^ 30)

/-- The next binary digits of an angle, as a part of the full turn, of a vector (c, s) that is not 0: a digit is 1 in the lower half
plane, and squaring the vector doubles its angle. -/
def angleDigits (c s : Int) : Nat → Nat
  | 0 => 0
  | k + 1 => (if s < 0 || (s = 0 && c < 0) then 2 ^ k else 0) + angleDigits (c * c - s * s) (2 * c * s) k

/-- Phase of a sample in 1/4,096 period (R284): atan2 of the offset- and gain-corrected signals, rounded down (DESIGN CHOICE,
notes/assumptions/50.md); with a phase correction, or for two signals of 0, the free value. -/
def samplePhase (sin cos : Int) (cal : List Int) : Nat :=
  let s := (sin - cal.getD 0 0) * cal.getD 2 0
  let c := (cos - cal.getD 1 0) * 2 ^ 15
  if cal.getD 3 0 = 0 && (s != 0 || c != 0) then angleDigits c s 12 else (Config.sincosPhase s c (cal.getD 3 0)).toNat

/-- SINCOS_SAMPLE (R284, R287): the converter's pair for one sample. -/
def execSincosSample (src : Nat) (sin cos : Int) (t : Nat) (s : State) : Res :=
  .next (
    let x := s.source src
    if !s.locusOn || 4 ≤ src || x.cfg.mode ≠ 2 then s
    else
      let ph := samplePhase sin cos (((s.die 0).cal.values.getD 1 []).drop (4 * src))
      let n := if x.cfg.inWindow sin cos then 0 else min (x.ampBad + 1) 8
      let d := signed 12 (ph + 4096 - x.phase)
      let s := s.modSource src fun x => { x with phase := ph, lastEdge := some t, ampBad := n }
      let s := if n = 8 && !x.faults.getLsbD 3 then s.sourceFault src 3 else s
      if x.lastEdge.isNone then s.moveSource src (ph * 65536 - x.pos)
      else if 204 < d.natAbs then s.sourceFault src 1
      else s.moveSource src ((if x.cfg.invert then -d else d) * 65536))

/-! ### BiSS-C (R285) -/

/-- BISS_CYCLE_START (R285): Locus clocks a cycle, with its first falling edge at time t, in 250 ps steps. -/
def execBissCycleStart (src t : Nat) (s : State) : Res :=
  .next (if s.locusOn && src < 4 && (s.source src).cfg.mode = 3 then
    (s.modSource src fun x => { x with cycling := true, cycleAt := t }).emit (.bissClock src)
  else s)

/-- CRC of polynomial x^6 + x + 1 over bits, first bit first (Table 11-3). -/
def biss6 (bs : List Bool) : Nat :=
  bs.foldl (fun c b =>
    let top := (c / 32 + b2n b) % 2
    c * 2 % 64 ^^^ (if top = 1 then 3 else 0)) 0

/-- A bit list, most significant first, as a number. -/
def msbNat (bs : List Bool) : Nat := bs.foldl (fun n b => 2 * n + b2n b) 0

/-- BISS_DATA_RECEIVED (R285, R287): position, nE, nW and the inverted CRC of a cycle, and the line delay that its acknowledge
shows, in 250 ps steps. -/
def execBissDataReceived (src : Nat) (bits : List Bool) (delay : Nat) (s : State) : Res :=
  .next (
    let x := s.source src
    let n := x.cfg.bits
    if !s.locusOn || 4 ≤ src || x.cfg.mode ≠ 3 || !x.cycling then s
    else
      let s := s.modSource src fun x => { x with cycling := false, lineDelay := delay }
      let data := bits.take (n + 2)
      if bits.length ≠ n + 8 || msbNat (bits.drop (n + 2)) ≠ 63 - biss6 data then
        let s := s.modSource src fun x => { x with crcSingle := min (x.crcSingle + 1) 65535, crcRow := x.crcRow + 1 }
        if 1 ≤ x.crcRow && !x.faults.getLsbD 4 then s.sourceFault src 4 else s
      else
        let w := msbNat (data.take n)
        let d := signed n (w + 2 ^ n - x.phase)
        let s := s.modSource src fun x =>
          { x with crcRow := 0, bissWarn := !(data.getD (n + 1) true), phase := w, lastEdge := some (x.cycleAt - delay / 2) }
        if !(data.getD n true) then s.sourceFault src 5
        else if x.lastEdge.isNone then s.moveSource src ((w : Int) * 65536 - x.pos)
        else if 2 ^ (n - 3) < d.natAbs then s.sourceFault src 1
        else s.moveSource src ((if x.cfg.invert then -d else d) * 65536))

/-- BISS_TIMEOUT (Table 11-4): no start bit within 20 us of the first clock. -/
def execBissTimeout (src : Nat) (s : State) : Res :=
  .next (if s.locusOn && src < 4 && (s.source src).cfg.mode = 3 && (s.source src).cycling then
    (s.modSource src fun x => { x with cycling := false }).sourceFault src 6
  else s)

/-! ### Faults and revalidation -/

/-- LINE_FAULT (Table 11-4). -/
def execLineFault (src : Nat) (s : State) : Res :=
  .next (if s.locusOn && src < 12 && (s.source src).cfg.mode != 0 then s.sourceFault src 2 else s)

/-- Z_STUCK (Table 11-4): index events are ignored until Z falls; the source stays valid. -/
def execZStuck (src : Nat) (s : State) : Res :=
  .next (
    let x := s.source src
    if s.locusOn && src < 12 && x.cfg.mode != 0 && x.cfg.zTimeout != 0 && x.zLevel then
      (s.modSource src fun x => { x with zIgnored := true }).sourceFault src 7
    else s)

/-- SOURCE_REVALID (R289): every fault condition of the source has been absent for 1 ms. -/
def execSourceRevalid (src : Nat) (s : State) : Res :=
  .next (if s.locusOn then s.modSource src fun x => Source'.revalidate { x with bad := false } else s)

/-! ### Index events -/

/-- A correction of the count by -d (R293); on the scan axis, of either source, deferred while a pass is RUNNING (R294). -/
def State.correctIndex (s : State) (n : Nat) (d : Int) : State :=
  let s := s.modSource n fun x => { x with lastD := d, corrections := min (x.corrections + 1) 65535 }
  let running := s.crossWord != 0xFFFFFFFF
  if running && (s.locusAxis 0).primary == some n then { s with locus.deferred := some d }
  else if running && (s.locusAxis 0).secondary == some n then { s with locus.deferred2 := some d }
  else
    let axis := s.primaryOf n
    let from_ := match axis with | some a => s.axisPos a | none => 0
    let s := s.shiftSource n d
    let s := if axis == some 0 then { s with locus.est := s.locus.est - d * 65536 } else s
    match axis with
    | some a => if d ≠ 0 then s.runCompares a from_ else s
    | none => s

/-- An index event at a captured count: homing, comparison and correction (R292, R293). -/
def State.indexAt (s : State) (n : Nat) (count : Int) : State :=
  let x := s.source n
  let ip := x.cfg.indexPeriod
  let pos := count * 65536
  match s.axisOf n with
  | none => s.capture 0x01 n 0 pos
  | some a =>
    if (s.locusAxis a).primary == some n && (s.axis a).wantsIndex then
      let s := (s.capture 0x01 n 0 pos).homeReference a (pos + (s.locusAxis a).offset)
      s.modSource n fun x => { x with refCount := some count, seen := some count }
    else if !(s.locusAxis a).referenced || ip = 0 then s.capture 0x01 n 0 pos
    else
      match x.refCount with
      | none => (s.capture 0x01 n 0 pos).modSource n fun x => { x with refCount := some count, seen := some count }
      | some ref =>
        let e := nearestIndex ref ip count
        let d := count - e
        if d.natAbs ≤ x.cfg.tolerance then
          ((s.modSource n fun x => { x with seen := some e }).capture 0x02 n (unsigned 16 d) pos).correctIndex n d
        else (s.capture 0x01 n 0 pos).indexMismatch n

/-- A tooth of a wheel whose reference mark is not known (R295), by its gap from the last tooth: the same or the next tooth, the
reference mark, or a mismatch. -/
def State.toothByGap (s : State) (n : Nat) (count : Int) : State :=
  let x := s.source n
  let tp := x.cfg.period
  let keep := fun (s : State) => s.modSource n fun x => { x with lastTooth := some count }
  match x.lastTooth with
  | none => keep s
  | some last =>
    let gap := (count - last).natAbs
    if gap ≤ x.cfg.tolerance || (gap ≤ tp + x.cfg.tolerance && tp ≤ gap + x.cfg.tolerance) then keep s
    else
      let up := fun (s : State) => s.modSource n fun x => { x with toothUp := decide (last < count) }
      if x.cfg.reference = 1 && 3 * tp ≤ 2 * gap && 2 * gap ≤ 5 * tp then (up (keep s)).indexAt n count
      else if x.cfg.reference = 2 && tp ≤ 4 * gap && 4 * gap ≤ 3 * tp then (up s).indexAt n count
      else (keep s).indexMismatch n

/-- A tooth of a wheel with a missing tooth and its reference mark at ref (R295): teeth stand at whole places of Tp from it, but for
the missing one beside the mark. A place passed without its tooth is a gap other than at the reference. -/
def State.toothMissing (s : State) (n : Nat) (ref count : Int) : State :=
  let x := s.source n
  let tp : Int := x.cfg.period
  let place := roundDiv (count - ref) x.cfg.period
  let absent := fun (p : Int) => p % x.cfg.teeth == (if x.toothUp then (x.cfg.teeth : Int) - 1 else 1)
  let last := match x.lastTooth with | some l => roundDiv (l - ref) x.cfg.period | none => place
  let stray := decide ((x.cfg.tolerance : Int) < |count - (ref + tp * place)|)
  let gapOk := decide (|place - last| ≤ 1) || (decide (|place - last| = 2) && absent ((place + last) / 2))
  let s := s.modSource n fun x => { x with lastTooth := some (ref + tp * place) }
  if place % x.cfg.teeth = 0 then if gapOk then s.indexAt n count else s.indexMismatch n
  else if stray || absent place || !gapOk then s.indexMismatch n
  else s

/-- A tooth of a wheel with an extra tooth, the reference mark at ref (R295): regular teeth stand half a Tp beside whole places of Tp
from it. -/
def State.toothExtra (s : State) (n : Nat) (ref count : Int) : State :=
  let x := s.source n
  let tp : Int := x.cfg.period
  let mark := nearestIndex ref x.cfg.indexPeriod count
  if 4 * |count - mark| ≤ tp then s.indexAt n count
  else
    let place := (count - ref) / tp
    let last := match x.lastTooth with | some l => (l - ref) / tp | none => place
    let stray := decide (2 * (x.cfg.tolerance : Int) < |2 * (count - ref) - tp * (2 * place + 1)|)
    let s := s.modSource n fun x => { x with lastTooth := some (ref + tp * place + tp / 2) }
    if stray || 1 < |place - last| then s.indexMismatch n else s

/-- A tooth of POS3's reference (R295): by its place where the axis is referenced and the mark is known, else by its gap. -/
def State.tooth (s : State) (n : Nat) (count : Int) : State :=
  let x := s.source n
  let referenced := match s.axisOf n with | some a => (s.locusAxis a).referenced | none => false
  match x.refCount with
  | some ref =>
    if !referenced || x.cfg.period = 0 || x.cfg.teeth = 0 then s.toothByGap n count
    else if x.cfg.reference = 1 then s.toothMissing n ref count
    else s.toothExtra n ref count
  | none => s.toothByGap n count

/-- INDEX_EVENT (R283, R293-R296): Z's rising edge at a captured count. -/
def execIndexEvent (src : Nat) (count : Int) (s : State) : Res :=
  .next (
    let x := s.source src
    if !s.locusOn || 12 ≤ src || x.cfg.mode = 0 || x.zIgnored then s
    else if x.cfg.reference = 0 then s.indexAt src count else s.tooth src count)

/-- SPEED_WINDOW_END (R290). -/
def execSpeedWindowEnd (src : Nat) (s : State) : Res :=
  .next (if s.locusOn && (s.source src).cfg.mode != 0 then
    s.modSource src fun x => { x with speed := satS32 (x.pos / 65536 - x.windowStart), windowStart := x.pos / 65536 }
  else s)

/-! ### The scan axis (R297-R299, R306) -/

/-- DEVIATION (R297): the two sources of the scan axis have differed by more than the window for 1 us. -/
def execDeviation (axis : Nat) (s : State) : Res :=
  .next (if s.locusOn && axis = 0 && (s.locusAxis 0).secondary.isSome
      && ((s.locusAxis 0).devWindow : Int) * 65536 < |s.scanDev| then
    let s := ({ s with locus.deviation := true }).locusIrq 14
    let s := s.detectOpen 0x0016 0 ((s.locusAxis 0).primary.getD 0) 0
    s.axisLost 0 true
  else s)

/-- A measurement of the scan axis's primary source at time t (R298): residual, estimates, lock. -/
def State.track (s : State) (t : Nat) : State :=
  match (s.locusAxis 0).primary with
  | none => s
  | some p =>
    let l := s.locus
    let est := l.est + l.vel * 256 * ((t : Int) - l.estAt) / 4000
    let e := (s.source p).pos - est
    let lsb := (s.source p).pos / 256 - est / 256
    let s := s.count 0 185 1
    let s := { s with
      locus.est := Config.trackPosition l.bandwidth est l.vel e
      locus.vel := Config.trackVelocity l.bandwidth est l.vel e
      locus.estAt := t, locus.resid := satS32 lsb }
    let within := decide (|e| ≤ (l.lockWin : Int) * 256) && s.axisValid 0
    let good := if within then min (l.good + 1) 1024 else 0
    let s := { s with locus.good := good }
    let s := if s.crossWord != 0xFFFFFFFF && s.sigma * s.locus.vel < 0 && !l.reversed then
        ({ s with locus.reversed := true }).locusIrq 14
      else s
    if (l.unlockWin : Int) * 256 < |e| then s.loseLock
    else if good = 1024 then { s with locus.locked := true } else s

/-- TRACKING_MEASUREMENT (R298): the last edge, sample or cycle of a source, at its time; only the scan axis's primary is tracked. -/
def execTrackingMeasurement (src : Nat) (s : State) : Res :=
  .next (if s.locusOn && (s.locusAxis 0).primary = some src && (s.source src).valid then
    match (s.source src).lastEdge with | some t => s.track t | none => s
  else s)

/-- REST_MEASUREMENT (R298): the held count of an A/B/Z primary at the end of a 1 us without a counted edge. -/
def execRestMeasurement (src : Nat) (s : State) : Res :=
  .next (if s.locusOn && (s.locusAxis 0).primary = some src && (s.source src).valid && (s.source src).cfg.mode = 1 then
    s.track (s.locus.estAt + 4000)
  else s)

/-! ### Digital inputs (R286) -/

/-- The axis that uses an input (12 R324). -/
def State.dinAxis (s : State) (d : Nat) : Option Nat := (List.range 10).find? fun a => (s.axis a).dins.contains d

/-- An input's value is set: limits and homing act on a change (12 R324, R328). -/
def State.setDin (s : State) (d : Nat) (v : Bool) : State :=
  let x := s.din d
  let s := { s with locus.dins := s.locus.dins.modify d fun x => { x with value := v } }
  if x.value == v then s
  else
    let s := if x.capture then s.capture 0x07 d (b2n v) 0 else s
    match s.dinAxis d with
    | none => s
    | some a =>
      if (s.axis a).state = .homing then s.homeInput a d v
      else if v && (s.axis a).posDin = some d then s.hardLimit a true
      else if v && (s.axis a).negDin = some d then s.hardLimit a false
      else s

/-- The changes of the raw level within the chatter window that ends at a tick of the timebase, with one at that tick (R286); one more
than the chatter count is enough. -/
def Din.changesAt (x : Din) (now : Nat) : List Nat :=
  (now :: x.changes.filter fun t => now ≤ t + x.chatterMs * 400000).take (x.chatterCount + 1)

/-- DIN_CHANGE (R286): the raw level changes; too many changes in the window flag INPUT_CHATTER. -/
def execDinChange (din : Nat) (level : Bool) (s : State) : Res :=
  .next (
    let x := s.din din
    if !s.locusOn || 16 ≤ din || x.raw == level then s
    else
      let recent := x.changesAt s.now
      let chat := x.chatterCount != 0 && decide (x.chatterCount < recent.length) && !x.chatter
      let s := { s with locus.dins := s.locus.dins.modify din fun x =>
        { x with raw := level, changes := recent, chatter := x.chatter || chat } }
      if chat then
        let s := (s.setDin din true).locusIrq 12
        match s.dinAxis din with
        | some a => s.axisChatter a
        | none => s
      else s)

/-- DIN_DEBOUNCE (R286): the input has been stable for its debounce time. -/
def execDinDebounce (din : Nat) (s : State) : Res :=
  .next (
    let x := s.din din
    if !s.locusOn || 16 ≤ din then s
    else
      let v := x.raw != x.invert
      let s := { s with locus.dins := s.locus.dins.modify din fun x => { x with level := v } }
      s.setDin din (v || x.chatter))

/-- DIN_STUCK (R286). -/
def execDinStuck (din : Nat) (s : State) : Res :=
  .next (
    let x := s.din din
    if s.locusOn && din < 16 && x.stuckMs != 0 && x.value then
      ({ s with locus.dins := s.locus.dins.modify din fun x => { x with stuck := true } }).locusIrq 12
    else s)

/-- Clear flags of an input: bit 0 STUCK, bit 1 INPUT_CHATTER; the value follows the debounced level again (R286). -/
def State.clearDin (s : State) (d flags : Nat) : State :=
  let x := s.din d
  let unchat := bit flags 1 && x.chatter
  let s := { s with locus.dins := s.locus.dins.modify d fun x =>
    { x with stuck := x.stuck && !bit flags 0, chatter := x.chatter && !bit flags 1, changes := if unchat then [] else x.changes } }
  if unchat then s.setDin d x.level else s

/-- LOCUS_DIN_FLAG_CLEAR (R286): a write of 1 to bits of LOCUS_DIN_FLAG. -/
def execLocusDinFlagClear (din : Nat) (flags : Nat) (s : State) : Res :=
  .next (if s.hifOn && s.locusOn && din < 16 then s.clearDin din flags else s)

/-! ### COMPARE_SET (R311) -/

/-- An axis whose position can be watched: present, valid and referenced. -/
def State.axisUsable (s : State) (a : Nat) : Bool := s.axisValid a && (s.locusAxis a).referenced

/-- COMPARE_SET (R307-R311). -/
def compareSetBody (p : Packet) (c : Ctx) (s : State) : State :=
  let u := p.target
  let w := p.param 2
  let a := bits w 3 0
  let dir := bits w 5 4
  let timed := bit w 8
  if u = 15 then s.finish c compareReserved []
  else if w / 512 ≠ 0 ∨ 10 ≤ a ∨ (s.locusAxis a).primary.isNone ∨ (timed = true ∧ 11 < p.param 3)
      ∨ (timed = false ∧ p.param 3 ≠ 0) then s.finish c badParam []
  else if dir = 3 then
    (s.modCompare u fun x => { x with state := .idle, axis := a }).finish c ok [0]
  else if !s.axisUsable a then s.finish c axisUnreferenced []
  else
    let s := s.modCompare u fun x =>
      { x with axis := a, dir := dir, target := signed 64 (p.param64 0), irq := bit w 6, capture := bit w 7
               trigger := p.param 3, state := .waitTrigger, late := false }
    let s := if timed && (s.datum.triggers.getD (p.param 3) Trigger.reset).state != 2 then s else s.armCompare u
    let x := s.compare u
    if x.state = .late then s.finish c ok [1, unsigned 64 x.pos % 2 ^ 32, unsigned 64 x.pos / 2 ^ 32] else s.finish c ok [0]

/-- The compare units that wait on a trigger are armed when it fires (R308). -/
def State.armTimed (s : State) (trig : Nat) : State :=
  (List.range 15).foldl (fun s u =>
    let c := s.compare u
    if c.state == .waitTrigger && c.trigger == trig then s.armCompare u else s) s

/-! ### LOCUS_CONFIG (R313) -/

/-- The configuration of a source from section 0x01 or 0x02; none where a field is out of range. -/
def srcConfig (p : Packet) (n : Nat) : Option SrcCfg :=
  let w := p.param 1
  let mode := bits w 1 0
  let ref := bits w 4 3
  let w4 := p.param 4
  let biss := mode == 3
  let c : SrcCfg :=
    { mode := mode, invert := bit w 2, reference := ref, filter := bits w 9 5, hysteresis := bits w 17 10, period := p.param 2
      tolerance := bits (p.param 3) 7 0, teeth := bits (p.param 3) 31 16
      ampLow := if mode = 2 then bits w4 7 0 else 40, ampHigh := if mode = 2 then bits w4 15 8 else 130
      bits := if biss then bits w4 5 0 else 0, clock := if biss then bits w4 10 6 else 0
      cycle := if biss then bits w4 31 16 else 0, window := bits (p.param 5) 10 0, zTimeout := p.param 6 }
  if w / 2 ^ 18 ≠ 0 ∨ (4 ≤ n ∧ (1 < mode ∨ w4 ≠ 0)) ∨ 2 < ref ∨ (ref ≠ 0 ∧ n ≠ 3) ∨ bits (p.param 3) 15 8 ≠ 0 then none
  else if mode = 0 then some c
  else if c.hysteresis = 0 ∨ c.window = 0 ∨ 1024 < c.window ∨ p.param 5 / 2 ^ 11 ≠ 0 then none
  else if biss = true ∧ (c.bits < 8 ∨ 48 < c.bits ∨ c.clock < 2 ∨ 20 < c.clock ∨ c.cycle < 8 ∨ 1000 < c.cycle) then none
  else some c

/-- A BiSS-C source of the scan axis has a cycle of at most 10 us (R288). -/
def scanCycleOk (c : SrcCfg) : Bool := c.mode != 3 || decide (c.cycle ≤ 10)

/-- A source takes a configuration (R289, R292, 15 Table 15-6): a changed one unreferences its axis. -/
def State.setSource (s : State) (n : Nat) (c : SrcCfg) : State :=
  let changed := (s.source n).cfg != c
  let s := s.modSource n fun x =>
    let x := { x with cfg := c, barred := false, bad := x.bad && !changed, valid := x.valid && !changed
                      lastEdge := if changed then none else x.lastEdge, crcRow := 0, ampBad := 0, cycling := false }
    x.revalidate
  match s.axisOf n with
  | some a => if changed then s.axisLost a true else s
  | none => s

/-- The axis configuration of section 0x04; none where a field is out of range or R281 is broken. -/
def State.axisSection (s : State) (p : Packet) (a : Nat) : Option LocusAxis :=
  let w := p.param 1
  let pri := bits w 3 0
  let sec := bits w 7 4
  let pitch := p.param 4 + bits (p.param 5) 15 0 * 2 ^ 32
  let used := fun (n : Nat) => (List.range 10).any fun b =>
    b != a && ((s.locusAxis b).primary == some n || (s.locusAxis b).secondary == some n)
  let scan := a == 0
  let top := if a < 2 then 4 else 12
  let x := s.locusAxis a
  if pri = 15 then
    (if sec = 15 ∧ (scan = true ∨ bit w 8 = false) then
      some { x with primary := none, secondary := none, negative := bit w 8, ratio := signed 32 (p.param 2)
                    devWindow := bits (p.param 3) 15 0, pitch := pitch }
    else none)
  else if top ≤ pri || used pri then none
  else if scan then
    (if 4 ≤ sec ∨ sec = pri ∨ used sec = true ∨ bits (p.param 3) 15 0 = 0 ∨ pitch < 2 ^ 16
        ∨ scanCycleOk (s.source pri).cfg = false ∨ scanCycleOk (s.source sec).cfg = false then none
    else
      some { x with primary := some pri, secondary := some sec, negative := bit w 8, ratio := signed 32 (p.param 2)
                    devWindow := bits (p.param 3) 15 0, pitch := pitch })
  else if sec ≠ 15 ∨ bit w 8 = true then none
  else
    some { x with primary := some pri, secondary := none, negative := false, ratio := signed 32 (p.param 2)
                  devWindow := bits (p.param 3) 15 0, pitch := pitch }

/-- An axis takes a configuration: new sources unreference it, and an axis that gains or loses its primary source becomes
DISABLED or ABSENT (R292, 12 R329). -/
def State.setAxis (s : State) (a : Nat) (y : LocusAxis) : State :=
  let x := s.locusAxis a
  let changed := x.primary != y.primary || x.secondary != y.secondary
  let s := if changed then s.axisLost a true else s
  let s := s.modLocusAxis a fun x => { y with referenced := x.referenced, offset := x.offset, off2 := x.off2 }
  let s := if changed && a = 0 then
      { s with locus.est := (match y.primary with | some p => (s.source p).pos | none => 0), locus.vel := 0 }
    else s
  match x.primary, y.primary with
  | none, some _ => s.modAxis a fun z => { z with state := .disabled, vel := 0 }
  | some _, none => s.modAxis a fun z => { z with state := .absent, vel := 0, ctx := none, homing := none }
  | _, _ => s

/-- LOCUS_CONFIG (R313). -/
def locusConfigBody (p : Packet) (c : Ctx) (s : State) : State :=
  let sec := bits (p.param 0) 7 0
  let i := bits (p.param 0) 15 8
  let bad := s.finish c badParam []
  if p.param 0 / 2 ^ 16 ≠ 0 then bad
  else
    match sec with
    | 0x01 | 0x02 =>
      let n := if sec = 1 then i else 4 + i
      if (if sec = 1 then 4 else 8) ≤ i then bad
      else
        (match srcConfig p n with
        | none => bad
        | some k => if s.axisOf n = some 0 && !scanCycleOk k then bad else (s.setSource n k).finish c ok [])
    | 0x03 =>
      if 16 ≤ i || (bits (p.param 3) 7 0 ≠ 0 && bits (p.param 3) 31 16 = 0) then bad
      else
        ({ s with locus.dins := s.locus.dins.modify i fun x =>
            { x with
              debounce := bits (p.param 1) 15 0, invert := bit (p.param 1) 16, capture := bit (p.param 1) 17
              stuckMs := bits (p.param 2) 15 0, chatterCount := bits (p.param 3) 7 0, chatterMs := bits (p.param 3) 31 16
              changes := [] } }).finish c ok []
    | 0x04 =>
      if 10 ≤ i then bad
      else (match s.axisSection p i with | none => bad | some y => (s.setAxis i y).finish c ok [])
    | 0x05 =>
      let lat := bits (p.param 1) 13 0
      if i ≠ 0 || 16000 < lat then bad
      else
        ({ s with
          locus.latency := lat, locus.bandwidth := bits (p.param 1) 17 16, locus.lockWin := bits (p.param 2) 15 0
          locus.unlockWin := bits (p.param 2) 31 16, locus.markEvery := bits (p.param 3) 15 0 }).finish c ok []
    | 0x06 =>
      let ch := bits (p.param 1) 2 0
      if i ≠ 0 then bad
      else if !bit (p.param 1) 3 then (({ s with locus.captureCh := none }).unbindT .locus).finish c ok []
      else if !s.bindable ch .locus then s.finish c dmaChannelBusy []
      else (({ s with locus.captureCh := some ch }).bindT ch .locus).finish c ok []
    | _ => bad

def execLocusConfig (p : Packet) (s : State) : Res := s.direct 0x0405 p locusConfigBody
def execCompareSet (p : Packet) (s : State) : Res := s.direct 0x0406 p compareSetBody

end Sys2Proof.Machine
end

