-- ==== Sys2Proof/Machine/Datum.lean ====
section
/-! DEFINITION. Datum: time configuration, triggers, the PTP domains, selection, steps and the Ethernet ports
(13_time_chord.md R331-R342, R352). -/

namespace Sys2Proof.Machine

/-! ### Captures and triggers (R341, R342, R352) -/

/-- A Datum capture record (R352): pos and shot are 0. -/
def State.datumCapture (s : State) (kind unit info : Nat) : State :=
  match s.datum.captureCh with
  | none => s
  | some ch =>
    s.record ch .datum
      [BitVec.ofNat 32 (info * 65536 + unit * 256 + kind), 0, 0, 0, BitVec.ofNat 32 s.timeFrac, BitVec.ofNat 32 s.timeNs,
        lo32 s.timeSec, hi32 s.timeSec]

/-- Vector 22 where DATUM_CTRL's bit allows it (Table 13-9): 0 irq_trig, 1 irq_sel, 2 irq_ovf. -/
def State.datumIrq (s : State) (b : Nat) : State := if s.datum.irq.getLsbD b then s.signal 22 else s

def State.trigger (s : State) (t : Nat) : Trigger := s.datum.triggers.getD t Trigger.reset

def State.modTrigger (s : State) (t : Nat) (f : Trigger → Trigger) : State :=
  { s with datum.triggers := s.datum.triggers.modify t f }

def Trigger.reached (x : Trigger) (time : Nat) : Bool := x.ns * 2 ^ 48 + x.frac * 2 ^ 32 ≤ time

/-- Trigger 12 serves the synchronized start of the oldest stripe, which has sent SYNC_READY (R349). -/
def State.syncFires (s : State) (t : Nat) : State :=
  match s.seq.stripes with
  | st :: _ =>
    if t = 12 && st.startMode = 2 && st.syncSent then s.modStripe st.id fun x => { x with triggered := true } else s
  | [] => s

/-- A trigger fires and its consumers act (R341, R342). -/
def State.fireTrigger (s : State) (t : Nat) (late : Bool) : State :=
  let s := s.modTrigger t fun x => { x with state := 2, late := late }
  let s := (s.datumCapture 0x01 t (b2n late)).datumIrq 0
  ((s.syncFires t).armTimed t).startWaiting

/-- Arming a trigger; a time already reached fires it at once (R341). -/
def State.armTrigger (s : State) (t ns frac : Nat) : State :=
  let s := s.modTrigger t fun _ => { state := 1, late := false, ns := ns, frac := frac }
  if (s.trigger t).reached s.datum.time then s.fireTrigger t true else s

/-- TIME_TRIGGER (R341). -/
def timeTriggerBody (p : Packet) (c : Ctx) (s : State) : State :=
  let w := p.param 0
  let t := w % 16
  if 32 ≤ w || 11 < t then s.finish c badParam []
  else if bit w 4 then (s.modTrigger t fun x => { x with state := 0, late := false }).finish c ok [0]
  else if 999999999 < p.param 3 then s.finish c badParam []
  else
    let s := s.armTrigger t (p.param64 1 * 1000000000 + p.param 3) (p.param 4 % 65536)
    s.finish c ok [b2n (s.trigger t).late]

def execTimeTrigger (p : Packet) (s : State) : Res := s.direct 0x0502 p timeTriggerBody

/-- TRIGGER_FIRE (R341): device time has reached an armed trigger. -/
def execTriggerFire (trigger : Nat) (s : State) : Res :=
  .next (if s.running && trigger < 16 && (s.trigger trigger).state == 1 then s.fireTrigger trigger false else s)

/-! ### Steps (R334, R335) -/

/-- The conditions of a step: CONFIGURED, and no drive-enable output asserted. -/
def State.stepAllowed (s : State) : Bool := s.ctl.dev == .configured && s.arc.axes.all fun x => !x.enabled

def State.domain (s : State) (d : Nat) : Domain := s.datum.domains.getD d Domain.reset

def State.modDomain (s : State) (d : Nat) (f : Domain → Domain) : State :=
  { s with datum.domains := s.datum.domains.modify d f }

/-- The residue of the selected domain: device time less its estimate; beyond 1 ms it is far, and a step is to follow (R338). -/
def State.formResidue (s : State) : State :=
  let rho := if (s.domain s.datum.selected).known then -(s.domain s.datum.selected).offset else s.datum.rho
  let far := decide (1000000 * 2 ^ 48 < |rho|)
  { s with datum.rho := rho, datum.far := far, datum.stepPending := s.datum.stepPending || far }

/-- Armed triggers whose time has become past fire late (R335). -/
def State.pastTriggers (s : State) : State :=
  (List.range 16).foldl (fun s t =>
    if (s.trigger t).state == 1 && (s.trigger t).reached s.datum.time then s.fireTrigger t true else s) s

/-- The device time steps (R334). -/
def State.stepTime (s : State) (time : Nat) : State :=
  let delta : Int := (time : Int) - s.datum.time
  let s := { s with
    datum.time := time, datum.domains := s.datum.domains.map fun (d : Domain) => if d.known then { d with offset := d.offset - delta } else d }
  ((if s.datum.disciplined then s.formResidue else s).datumCapture 0x03 0 0).pastTriggers

/-- A step to the selected domain's estimate: the device time follows it from then on (R334, R338). -/
def State.stepToEstimate (s : State) : State :=
  let d := s.domain s.datum.selected
  let s := { s with
    datum.stepPending := false, datum.far := false, datum.disciplined := true, datum.rho := 0, datum.rate := d.rate }
  s.stepTime ((s.datum.time : Int) + d.offset).toNat

/-- DEVICE_TIME_STEP (R334): a pending step is applied. -/
def execDeviceTimeStep (s : State) : Res :=
  .next (if s.running && s.datum.stepPending && s.stepAllowed && (s.domain s.datum.selected).known then s.stepToEstimate
  else s)

/-! ### Selection (R338) -/

def State.domLocked (s : State) (d : Nat) : Bool := (s.domain d).state == .locked

/-- Whether the selected domain is lost: it is neither LOCKED nor, outside holdover, ACQUIRING after a stray sample. -/
def State.selectedLost (s : State) : Bool :=
  match (s.domain s.datum.selected).state with
  | .locked => false
  | .acquiring => s.datum.holdover
  | .disabled | .listening | .lost => true

/-- The device time follows another domain, seamlessly. -/
def State.selectDomain (s : State) (d : Nat) : State :=
  let s := { s with datum.selected := d, datum.rate := (s.domain d).rate }
  (s.formResidue.datumCapture 0x02 0 0).datumIrq 1

/-- Selection and holdover after a change of a domain's state or of the preference. -/
def State.reselect (s : State) : State :=
  let pref := s.datum.preferred
  let sel := s.datum.selected
  if !s.datum.disciplined then
    { s with datum.stepPending := s.datum.stepPending && s.domLocked sel }
  else
    let s := if sel ≠ pref && s.domLocked pref && (s.datum.revert || s.selectedLost) then s.selectDomain pref
      else if s.selectedLost && s.domLocked (1 - sel) then s.selectDomain (1 - sel)
      else s
    let hold := !(s.domLocked 0 || s.domLocked 1)
    if hold == s.datum.holdover then s
    else
      let s := { s with datum.holdover := hold }
      let s := if hold then s
        else ({ s with datum.rate := (s.domain s.datum.selected).rate }).formResidue
      s.datumCapture 0x04 0 0

/-- A domain has locked: the first lock of a free device time selects it, and a step sets the time where the configuration asks
for one (R334, R338). -/
def State.domainLocked (s : State) (d : Nat) : State :=
  if s.datum.disciplined then s.reselect
  else
    let s := { s with datum.selected := d }
    if !s.datum.stepFirst then
      ({ s with datum.disciplined := true, datum.rate := (s.domain d).rate }).formResidue
    else if s.stepAllowed then s.stepToEstimate
    else { s with datum.stepPending := true }

/-- A domain is lost (R337). -/
def State.loseDomain (s : State) (d : Nat) : State :=
  (s.modDomain d fun x =>
    { x with
      state := .lost, good := 0, discards := 0, known := false, master := none, pendingSync := none, delayReq := none
      pdelay := none, syncPair := none }).reselect

/-! ### Samples (R337) -/

/-- A complete Sync exchange: the domain's lead over the device time, in 2^-8 ns. -/
def State.sample (s : State) (d : Nat) (lead : Int) : State :=
  let x := s.domain d
  let v := lead * 2 ^ 40
  let off := if x.known then v - x.offset else 0
  let s := s.modDomain d fun x => { x with lastOff := satS32 (off / 2 ^ 40) }
  if x.known && decide ((x.jumpThr : Int) * 2 ^ 48 < |off|) then
    let s := s.modDomain d fun x => { x with discards := x.discards + 1 }
    if 8 ≤ x.discards + 1 then s.loseDomain d else s
  else
    let good := if |off| ≤ (x.lockThr : Int) * 2 ^ 48 then min 255 (x.good + 1) else 0
    let state : DomState := if 16 ≤ good then .locked else .acquiring
    let follows := s.datum.disciplined && s.datum.selected == d && !s.datum.holdover
    let rate := Config.domainRate x.rate off
    let s := (s.modDomain d fun x =>
      { x with
        discards := 0, good := good, state := state, known := true, rate := rate
        offset := if !x.known then v else if follows then x.offset else Config.domainOffset x.offset off }).count 0 188 1
    let s := if follows then { s with datum.rate := rate } else s
    if state = .locked && x.state != .locked then s.domainLocked d else if state = x.state then s else s.reselect

/-! ### PTP messages (R336, R340) -/

def State.port (s : State) (p : Nat) : EthPort := s.datum.ports.getD p EthPort.reset

def State.modPort (s : State) (p : Nat) (f : EthPort → EthPort) : State := { s with datum.ports := s.datum.ports.modify p f }

/-- A port with its link receives and sends while Datum runs. -/
def State.portUp (s : State) (p : Nat) : Bool := s.running && p < 2 && (s.port p).speed != 0 && (s.port p).link

/-- The domains a message on a port belongs to. -/
def State.domainsOf (s : State) (port : Nat) (m : PtpMsg) : List Nat :=
  (List.range 2).filter fun d =>
    let x := s.domain d
    s.portUp port && x.enabled && x.port == port && x.number == m.domain

def corrOf (m : PtpMsg) : Int := m.correction / 256

/-- A latency of a port in 2^-8 ns, from 250 ps units (R332). -/
def latency (n : Nat) : Int := 64 * n

/-- The receive time corrected for the port's latency (R332). -/
def State.rxTime (s : State) (port : Nat) (m : PtpMsg) : Int := m.rxTime - latency (s.port port).rxLat

/-- The device time a port sends at, in 2^-8 ns, at the ball (R332). -/
def State.txTime (s : State) (port : Nat) : Int := ((s.datum.time / 2 ^ 40 : Nat) : Int) + latency (s.port port).txLat

/-- A Sync with its origin time (2^-8 ns) is a sample; a delay exchange uses its two times. -/
def State.syncDone (s : State) (d : Nat) (origin received : Int) : State :=
  let path := (s.domain d).path
  (s.modDomain d fun x => { x with pendingSync := none, syncPair := some (origin, received) }).sample d (origin + path - received)

/-- From the selected master of a domain that accepts samples. -/
def State.fromMaster (s : State) (d : Nat) (m : PtpMsg) : Bool :=
  let x := s.domain d
  x.state != .lost && x.state != .disabled && (x.master.map (·.1)) == some m.source

/-- SYNC (R336, R337). -/
def execSync (port : Nat) (m : PtpMsg) (s : State) : Res :=
  .next ((s.domainsOf port m).foldl (fun s d =>
    if !s.fromMaster d m then s
    else if m.twoStep then s.modDomain d fun x => { x with pendingSync := some m }
    else s.syncDone d (m.time + corrOf m) (s.rxTime port m)) s)

/-- FOLLOW_UP (R336). -/
def execFollowUp (port : Nat) (m : PtpMsg) (s : State) : Res :=
  .next ((s.domainsOf port m).foldl (fun s d =>
    match (s.domain d).pendingSync with
    | some y => if s.fromMaster d m && y.seq == m.seq then s.syncDone d (m.time + corrOf m + corrOf y) (s.rxTime port y) else s
    | none => s) s)

/-- A timestamp entry leaves the queue once its exchange has used it (R340). -/
def State.takeTxts (s : State) (port seq type : Nat) : State :=
  s.modPort port fun p => { p with txts := p.txts.filter fun t => !(t.1 == seq && t.2.1 == type) }

/-- An event message is sent and timestamped: whether its entry found room (R340). -/
def State.sendEvent (s : State) (port type seq domain : Nat) : Bool × State :=
  let t := (s.txTime port).toNat
  let s := s.emit (.ptp port type seq domain)
  if (s.port port).txts.length < 16 then (true, s.modPort port fun p => { p with txts := p.txts ++ [(seq, type, domain, t)] })
  else (false, ((s.modPort port fun p => { p with ovf := satInc p.ovf }).datumCapture 0x05 port 0).datumIrq 2)

/-- DELAY_REQ_SEND (R336, R340): the domain (0 A, 1 B) sends Delay_Req or Pdelay_Req. -/
def execDelayReqSend (port : Nat) (domain : Nat) (s : State) : Res :=
  let x := s.domain domain
  .next (if !s.portUp port || 2 ≤ domain || !x.enabled || x.port ≠ port then s
  else
    let type := if x.p2p then 2 else 1
    let s := match x.delayReq with | some r => s.takeTxts port r.1 type | none => s
    let seq := (s.port port).seq
    let t := (s.txTime port).toNat
    let (kept, s) := s.sendEvent port type seq x.number
    let s := s.modPort port fun p => { p with seq := (p.seq + 1) % 65536 }
    s.modDomain domain fun x => { x with delayReq := if kept then some (seq, t) else none, pdelay := none })

/-- DELAY_RESP (R336): path = half of both ways. -/
def execDelayResp (port : Nat) (m : PtpMsg) (s : State) : Res :=
  .next ((s.domainsOf port m).foldl (fun s d =>
    let x := s.domain d
    match x.delayReq, x.syncPair with
    | some (seq, t3), some (t1, t2) =>
      if x.p2p || !s.fromMaster d m || seq ≠ m.seq then s
      else
        (s.takeTxts port seq 1).modDomain d fun x =>
          { x with delayReq := none, path := ((t2 - t1) + (m.time - corrOf m - t3)) / 2 }
    | _, _ => s) s)

/-- PDELAY_REQ (R336, R340): answered with Pdelay_Resp and Pdelay_Resp_Follow_Up, whose timestamp entry must find room. -/
def execPdelayReq (port : Nat) (m : PtpMsg) (s : State) : Res :=
  .next (match s.domainsOf port m with
  | [] => s
  | d :: _ =>
    if !(s.domain d).p2p then s
    else
      let (kept, s) := s.sendEvent port 3 m.seq m.domain
      if kept then (s.takeTxts port m.seq 3).emit (.ptp port 0xA m.seq m.domain) else s)

/-- PDELAY_RESP (R336). -/
def execPdelayResp (port : Nat) (m : PtpMsg) (s : State) : Res :=
  .next ((s.domainsOf port m).foldl (fun s d =>
    let x := s.domain d
    match x.delayReq with
    | some (seq, t1) =>
      if !x.p2p || seq ≠ m.seq then s
      else
        let s := s.takeTxts port seq 2
        if m.twoStep then s.modDomain d fun x => { x with pdelay := some (m, t1) }
        else s.modDomain d fun x => { x with delayReq := none, path := (s.rxTime port m - t1 - corrOf m) / 2 }
    | none => s) s)

/-- PDELAY_RESP_FOLLOW_UP (R336). -/
def execPdelayRespFollowUp (port : Nat) (m : PtpMsg) (s : State) : Res :=
  .next ((s.domainsOf port m).foldl (fun s d =>
    match (s.domain d).pdelay with
    | some (r, t1) =>
      if r.seq ≠ m.seq || r.source ≠ m.source then s
      else
        let round := s.rxTime port r - t1
        let turn := (m.time : Int) - r.time
        s.modDomain d fun x => { x with delayReq := none, pdelay := none, path := (round - turn - corrOf m - corrOf r) / 2 }
    | none => s) s)

/-- Dataset comparison: the fields in order, the lower value better (R336). -/
def betterMaster : List Nat → List Nat → Bool
  | a :: as, b :: bs => if a = b then betterMaster as bs else decide (a < b)
  | _, _ => false

/-- ANNOUNCE (R336, R337). -/
def execAnnounce (port : Nat) (m : PtpMsg) (dataset : List Nat) (s : State) : Res :=
  .next ((s.domainsOf port m).foldl (fun s d =>
    s.modDomain d fun x =>
      let x := if x.state = .lost then { x with state := .listening } else x
      match x.master with
      | none => { x with master := some (m.source, dataset) }
      | some cur =>
        if cur.1 == m.source || betterMaster dataset cur.2 then
          { x with master := some (m.source, dataset), pendingSync := if cur.1 == m.source then x.pendingSync else none }
        else x) s)

/-- SYNC_TIMEOUT (R337). -/
def execSyncTimeout (domain : Nat) (s : State) : Res :=
  let x := s.domain domain
  .next (if s.running && domain < 2 && (x.state == .acquiring || x.state == .locked) then s.loseDomain domain else s)

/-- ANNOUNCE_RECEIPT_TIMEOUT (R337). -/
def execAnnounceReceiptTimeout (domain : Nat) (s : State) : Res :=
  let x := s.domain domain
  .next (if s.running && domain < 2 && x.enabled && x.master.isSome then s.loseDomain domain else s)

/-! ### Ethernet ports (R331) -/

/-- ARP_REQUEST: a request for the port's address is answered. -/
def execArpRequest (port : Nat) (mac ip target : Nat) (s : State) : Res :=
  .next (if s.portUp port && (s.port port).ip != 0 && target == (s.port port).ip then s.emit (.arpReply port mac ip) else s)

/-- ICMP_ECHO_REQUEST. -/
def execIcmpEchoRequest (port : Nat) (words : List Word) (s : State) : Res :=
  .next (if s.portUp port && (s.port port).ip != 0 then s.emit (.echoReply port words) else s)

/-- ETHERNET_LINK_CHANGE: the link comes up only at the speed configured; peers with failover use ETH1 while ETH0 has no link
(R331, Table 13-8). -/
def execEthernetLinkChange (port : Nat) (up : Bool) (rate : Nat) (s : State) : Res :=
  .next (if !s.running || 2 ≤ port then s
  else
    let s := s.modPort port fun p => { p with link := up && p.speed != 0 && p.speed == rate }
    { s with chord.peers := s.chord.peers.map fun p => { p with failedOver := p.port == 2 && !(s.port 0).link } })

/-! ### TIME_CONFIG (R352) -/

/-- A domain starts again: LISTENING, or DISABLED (R352). -/
def Domain.restart (x : Domain) : Domain :=
  { x with
    state := if x.enabled then .listening else .disabled, good := 0, discards := 0, known := false, master := none
    pendingSync := none, delayReq := none, pdelay := none, syncPair := none, path := 0 }

/-- TIME_CONFIG section 0x01, a port. -/
def State.configPort (s : State) (p : Packet) (c : Ctx) (i : Nat) : State :=
  let w := p.param 1
  let speed := bits w 1 0
  let fec := bits w 3 2
  let pre := bits (p.param 3) 5 0
  if 1 < i || speed = 3 || fec = 3 || (speed = 1 && fec = 2) || 32 < pre then s.finish c badParam []
  else
    let s := s.modPort i fun x =>
      { x with
        speed := speed, fec := fec, vlan := bit w 4, vlanId := bits w 16 5, ip := p.param 2, prefixLen := pre
        rxLat := bits (p.param 4) 15 0, txLat := bits (p.param 4) 31 16, link := x.link && speed == x.speed }
    let s := { s with datum.domains := s.datum.domains.map fun (x : Domain) => if x.port = i then x.restart else x }
    s.reselect.finish c ok []

/-- TIME_CONFIG section 0x02, a domain. -/
def State.configDomain (s : State) (p : Packet) (c : Ctx) (i : Nat) : State :=
  let w := p.param 1
  let log := signed 4 (bits w 15 12)
  if 1 < i || log < -7 || 4 < log then s.finish c badParam []
  else
    let s := s.modDomain i fun x =>
      { x with
        number := bits w 6 0, enabled := bit w 7, port := bits w 8 8, l2 := bit w 9, p2p := bit w 10, logDelay := log
        lockThr := bits (p.param 2) 15 0, jumpThr := bits (p.param 2) 31 16, sdoId := bits (p.param 3) 11 0 }.restart
    s.reselect.finish c ok []

/-- TIME_CONFIG (R352, R334). -/
def timeConfigBody (p : Packet) (c : Ctx) (s : State) : State :=
  let w := p.param 0
  let sec := bits w 7 0
  let i := bits w 15 8
  if 65536 ≤ w then s.finish c badParam []
  else if sec = 1 then s.configPort p c i
  else if sec = 2 then s.configDomain p c i
  else if 0 < i then s.finish c badParam []
  else if sec = 3 then
    let v := p.param 1
    (({ s with datum.preferred := bits v 0 0, datum.revert := bit v 1, datum.stepFirst := bit v 2 }).reselect).finish c ok []
  else if sec = 4 then
    if 999999999 < p.param 3 then s.finish c badParam []
    else if !s.stepAllowed then s.finish c timeStepDenied []
    else (s.stepTime ((p.param64 1 * 1000000000 + p.param 3) * 2 ^ 48)).finish c ok []
  else
    let ch := bits (p.param 1) 2 0
    if !bit (p.param 1) 3 then (({ s with datum.captureCh := none }).unbindT .datum).finish c ok []
    else if !s.bindable ch .datum then s.finish c dmaChannelBusy []
    else (({ s with datum.captureCh := some ch }).bindT ch .datum).finish c ok []

def execTimeConfig (p : Packet) (s : State) : Res := s.direct 0x0500 p timeConfigBody

/-! ### Time latches (19 R461, R468) -/

/-- What a read of a time register's low word latches: seconds high, nanoseconds, fraction. -/
def State.timeLatch (s : State) : Nat × Nat × Nat := (s.timeSec / 2 ^ 32, s.timeNs, s.timeFrac)

/-- DATUM_TIME_LATCH (19 R461). -/
def execDatumTimeLatch (s : State) : Res := .next (if s.hifOn && s.domOn 0 1 then { s with datum.latch := s.timeLatch } else s)

/-- DEV_TIME_LATCH (19 R461, R468). -/
def execDevTimeLatch (s : State) : Res := .next (if s.hifOn && s.domOn 0 1 then { s with datum.alias_ := s.timeLatch } else s)

end Sys2Proof.Machine
end

