-- ==== Sys2Proof/Machine/Chord.lean ====
section
/-! DEFINITION. Chord: datagrams, streams, roles, synchronized starts, stitching and ledger aggregation
(13_time_chord.md R343-R352). -/

namespace Sys2Proof.Machine

/-! ### Datagrams (R343, Table 13-5) -/

/-- The fields of a Chord header. -/
structure ChordHdr where
  type : Nat
  role : Option Nat
  dst : Nat
  src : Nat
  epoch : Nat
  seq : Nat
  session : Word
  length : Nat
  ref : Nat
  deriving DecidableEq, Repr

def chordSeed (src dst seq : Nat) : Word :=
  0xFFFFFFFF ^^^ BitVec.ofNat 32 src ^^^ BitVec.ofNat 32 (dst * 2 ^ 16) ^^^ BitVec.ofNat 32 seq

/-- A datagram's words: header, payload, CRC. -/
def ChordHdr.words (h : ChordHdr) (payload : List Word) : List Word :=
  let role := match h.role with | some r => 2 ^ 28 + r * 2 ^ 26 | none => 0
  let ws := [BitVec.ofNat 32 (0xC40D0100 + h.type), BitVec.ofNat 32 (role + h.dst * 2 ^ 16 + h.src), BitVec.ofNat 32 h.epoch,
    BitVec.ofNat 32 h.seq, h.session, BitVec.ofNat 32 h.length, BitVec.ofNat 32 h.ref, 0] ++ payload
  ws ++ [crcWords (chordSeed h.src h.dst h.seq) ws]

/-- The header of a datagram that passes R344's first test: length, CRC, magic and version. -/
def chordHeader (ws : List Word) : Option ChordHdr :=
  let w1 := wordAt ws 1
  let h : ChordHdr :=
    { type := wordAt ws 0 % 256, role := if bit w1 28 then some (bits w1 27 26) else none, dst := bits w1 25 16, src := bits w1 9 0
      epoch := wordAt ws 2, seq := wordAt ws 3, session := ws.getD 4 0, length := wordAt ws 5 % 65536, ref := wordAt ws 6 }
  let body := ws.dropLast
  if wordAt ws 0 / 256 = 0xC40D01 && h.length ≤ 1408 && h.length % 4 == 0 && ws.length == 9 + h.length / 4
      && ws.getLast? == some (crcWords (chordSeed h.src h.dst h.seq) body) then some h else none

def chordPayload (ws : List Word) : List Word := (ws.drop 8).dropLast

/-! ### Peers and sending (R345) -/

def State.peer? (s : State) (id : Nat) : Option Peer := s.chord.peers.find? fun p => p.id == id

def State.modPeer (s : State) (id : Nat) (f : Peer → Peer) : State :=
  { s with chord.peers := s.chord.peers.map fun p => if p.id = id then f p else p }

/-- The port a peer is reached on (Table 13-8). -/
def Peer.via (p : Peer) : Nat := if p.port = 2 then b2n p.failedOver else p.port

/-- Put one message to a peer on the wire. -/
def State.chordEmit (s : State) (p : Peer) (type : Nat) (role : Option Nat) (epoch seq ref : Nat) (payload : List Word) : State :=
  let h : ChordHdr :=
    { type := type, role := role, dst := p.id, src := s.ctl.deviceId, epoch := epoch, seq := seq, session := s.chord.session
      length := 4 * payload.length, ref := ref }
  s.emit (.chord p.via p.id (h.words payload))

def State.sendMsg (s : State) (p : Peer) (m : ChordMsg) : State := s.chordEmit p m.type m.role m.epoch m.seq 0 m.payload

/-- Queued messages go out while fewer than 8 are unacknowledged (R345); the fuel is that bound. -/
def State.pumpFuel (id : Nat) : Nat → State → State
  | 0, s => s
  | fuel + 1, s =>
    match s.peer? id with
    | none => s
    | some p =>
      match p.queued with
      | [] => s
      | m :: rest =>
        if 8 ≤ p.unacked.length || !s.chord.enabled then s
        else
          let m := { m with seq := p.next }
          let s := s.modPeer id fun p => { p with queued := rest, unacked := p.unacked ++ [m], next := (p.next + 1) % 2 ^ 32 }
          ((s.sendMsg p m).count 0 189 1).pumpFuel id fuel

def State.pump (s : State) (id : Nat) : State := s.pumpFuel id 8

/-- The oldest stripe's synchronized start: its group (R349). -/
def Stripe.syncGroup (st : Stripe) : Nat := st.startRef % 2 ^ 22

/-- Entries of a LEDGER_BATCH payload, with their indices (R351). -/
def batchEntries (payload : List Word) : List (Nat × List Word) :=
  let first := wordAt payload 0
  (List.range (wordAt payload 1 % 64)).map fun k => (first + k, ((payload.drop (2 + 8 * k)).take 8))

/-- A message cannot be delivered: a CHORD_SEND ends with a status, a batch goes back to be sent again, and a SYNC_READY is sent
again later. -/
def State.undelivered (s : State) (m : ChordMsg) (status : Nat) : State :=
  let s := s.finalOpt m.ctx status []
  if m.type = 0x20 then { s with seq.batch := batchEntries m.payload ++ s.seq.batch }
  else if m.type = 0x10 then
    match s.seq.stripes with
    | st :: _ => if st.id = wordAt m.payload 1 then s.modStripe st.id fun x => { x with syncSent := false } else s
    | [] => s
  else s

/-- Queue a message to a device. -/
def State.post (s : State) (dst : Nat) (m : ChordMsg) : State :=
  if (s.peer? dst).isNone || !s.chord.enabled then s.undelivered m chordUnreachable
  else (s.modPeer dst fun p => { p with queued := p.queued ++ [m] }).pump dst

def ChordMsg.of (type : Nat) (payload : List Word) : ChordMsg :=
  { type := type, role := none, epoch := 0, seq := 0, payload := payload, ctx := none, retries := 0 }

/-! ### Delivery to the host (R346) -/

/-- A record of the receive stream, padded to a multiple of 32 bytes: vector 23. -/
def State.chordRecord (s : State) (type src seq epoch : Nat) (payload : List Word) : State :=
  let pad := (8 - payload.length % 8) % 8
  let total := 32 + 4 * (payload.length + pad)
  let ws := [BitVec.ofNat 32 (type + src * 256), BitVec.ofNat 32 seq, BitVec.ofNat 32 epoch, lo32 s.timeSec, hi32 s.timeSec,
    BitVec.ofNat 32 s.timeNs, BitVec.ofNat 32 (4 * payload.length), BitVec.ofNat 32 total] ++ payload ++ List.replicate pad 0
  match s.chord.receiveCh with
  | none => s
  | some ch => (s.record ch .chord ws).signal 23

/-! ### Synchronized starts (R349) -/

/-- A SYNC_GO reaches a member: its oldest stripe waits for that group. -/
def State.syncGoIn (s : State) (payload : List Word) : State :=
  match s.seq.stripes with
  | [] => s
  | st :: _ =>
    if st.startMode ≠ 2 || !st.syncSent || st.syncGroup ≠ wordAt payload 0 then s
    else if bit (wordAt payload 1) 0 then s.removeStripe st stitchMismatch
    else s.armTrigger 12 (word64 payload 2 * 1000000000 + wordAt payload 4) 0

/-- SYNC_GO to one member; the coordinator may be a member itself. -/
def State.sendGo (s : State) (member : Nat) (payload : List Word) : State :=
  if member = s.ctl.deviceId then s.syncGoIn payload else s.post member (ChordMsg.of 0x11 payload)

/-- The member count of a group, from the coordinator's own stripe of it (R349). -/
def State.groupSize (s : State) (group : Nat) : Option Nat :=
  (s.seq.stripes.find? fun st => st.startMode == 2 && st.syncGroup == group).map fun st => st.startRef / 2 ^ 22 + 1

def State.syncGroup (s : State) (group : Nat) : SyncGroup :=
  (s.chord.groups.find? fun g => g.group == group).getD { group := group, members := [], aborted := false, go := none }

def State.putGroup (s : State) (g : SyncGroup) : State :=
  { s with chord.groups := (s.chord.groups.filter fun x => x.group != g.group) ++ [g] }

def State.dropGroup (s : State) (group : Nat) : State :=
  { s with chord.groups := s.chord.groups.filter fun x => x.group != group }

def goWords (group : Nat) (abort : Bool) (t : Nat) : List Word :=
  [BitVec.ofNat 32 group, BitVec.ofNat 32 (b2n abort), lo32 (t / 1000000000), hi32 (t / 1000000000),
    BitVec.ofNat 32 (t % 1000000000)]

/-- T: the latest arrival plus sync_ms, rounded up to a multiple of 50 us. -/
def State.goTime (s : State) : Nat := ceilDiv (s.ns + s.chord.syncMs * 1000000) 50000 * 50000

/-- The coordinator has a member's SYNC_READY. -/
def State.syncReadyIn (s : State) (member group : Nat) (failed : Bool) : State :=
  let g := s.syncGroup group
  let members := if g.members.contains member then g.members else g.members ++ [member]
  let full := match s.groupSize group with | some n => decide (n ≤ members.length) | none => false
  let g' := { g with members := members, aborted := g.aborted || failed }
  if g.aborted then
    let s := if full then s.dropGroup group else s.putGroup g'
    s.sendGo member (goWords group true 0)
  else if failed then
    let s := if full then s.dropGroup group else s.putGroup g'
    members.foldl (fun s m => s.sendGo m (goWords group true 0)) s
  else if full then
    let t := s.goTime
    members.foldl (fun s m => s.sendGo m (goWords group false t)) (s.dropGroup group)
  else s.putGroup g'

/-! ### Roles (R347, R348) -/

def State.role (s : State) (r : Nat) : Role := s.chord.roles.getD r Role.reset

/-- Send a message to a role's holder. A coordinator or aggregator that is this device takes it itself. -/
def State.postRole (s : State) (r : Nat) (m : ChordMsg) : State :=
  let role := s.role r
  if r < 2 && role.holder = s.ctl.deviceId then
    if m.type = 0x10 then s.syncReadyIn s.ctl.deviceId (wordAt m.payload 0) (bit (wordAt m.payload 2) 0)
    else if m.type = 0x20 then
      ({ s with chord.ackedTo := wrapAdd (wordAt m.payload 0) (wordAt m.payload 1 % 64) }).chordRecord 0x20 s.ctl.deviceId 0 role.epoch m.payload
    else s.undelivered m chordUnreachable
  else s.post role.holder { m with role := some r, epoch := role.epoch }

/-- Messages of a role leave every peer's queues, oldest first. -/
def State.takeRole (s : State) (r : Nat) : List ChordMsg × State :=
  let mine := fun (m : ChordMsg) => m.role == some r
  (s.chord.peers.flatMap fun p => (p.unacked ++ p.queued).filter mine,
    { s with chord.peers := s.chord.peers.map fun p =>
        { p with unacked := p.unacked.filter fun m => !mine m, queued := p.queued.filter fun m => !mine m } })

/-- A re-resolution of a message; a CHORD_SEND has three (R346, R348). -/
def State.resolveAgain (s : State) (r : Nat) (m : ChordMsg) : State :=
  if m.ctx.isSome && 3 ≤ m.retries then s.finalOpt m.ctx staleRoleStatus []
  else s.postRole r { m with retries := m.retries + 1 }

def readyWords (st : Stripe) : List Word :=
  [BitVec.ofNat 32 st.syncGroup, BitVec.ofNat 32 st.id, BitVec.ofNat 32 (b2n st.stitchFailed)]

/-- A member that has sent SYNC_READY still waits for SYNC_GO. -/
def State.goWaits (s : State) : Option Stripe :=
  match s.seq.stripes with
  | st :: _ => if st.startMode = 2 && st.syncSent && !st.triggered && (s.trigger 12).state != 1 then some st else none
  | [] => none

/-- A newer holder and epoch are adopted: pending messages go to the holder now named, and a member that waits for SYNC_GO reports
to a new coordinator (R348, R349). -/
def State.adoptRole (s : State) (r epoch holder : Nat) : State :=
  if epoch ≤ (s.role r).epoch then s
  else
    let s := { s with chord.roles := s.chord.roles.set r { holder := holder, epoch := epoch } }
    let (ms, s) := s.takeRole r
    let s := ms.foldl (fun s m => s.resolveAgain r m) s
    match s.goWaits with
    | some st => if r = 0 && !(ms.any fun m => m.type == 0x10) then s.postRole 0 (ChordMsg.of 0x10 (readyWords st)) else s
    | none => s

/-- A role-addressed message matches at the receiver (R347). -/
def State.roleMatches (s : State) (r epoch src : Nat) : Bool :=
  let mine := fun (k : Nat) (id : Nat) => (s.role k).holder == id && (s.role k).epoch == epoch
  match r with
  | 0 => mine 0 s.ctl.deviceId
  | 1 => mine 1 s.ctl.deviceId
  | 2 => mine 3 src
  | _ => mine 2 src

/-- The own entry a role-addressed message is checked against. -/
def ownRole (r : Nat) : Nat := if r = 2 then 3 else if r = 3 then 2 else r

/-! ### Receiving (R344) -/

/-- Answers are outside the streams: ACK and STALE_ROLE name the seq they answer. -/
def State.answer (s : State) (src type ref : Nat) (payload : List Word) : State :=
  match s.peer? src with
  | none => s
  | some p => (s.chordEmit p type none 0 0 ref payload).count 0 189 1

/-- R344: the tests in order; `act` delivers the message. -/
def State.receive (s : State) (port type : Nat) (ws : List Word) (act : ChordHdr → List Word → State → State) : State :=
  let drop := { s with chord.rxDrop := satInc s.chord.rxDrop }
  if !s.portUp port then s
  else if !s.chord.enabled then s.modPort port fun p => { p with drop := satInc p.drop }
  else
    match chordHeader ws with
    | none => drop
    | some h =>
      match s.peer? h.src with
      | none => drop
      | some p =>
        if h.dst ≠ s.ctl.deviceId then drop
        else if h.type ≠ type then s
        else
          let last := if p.session = h.session then p.last else 0
          let s := (s.modPeer h.src fun p => { p with session := h.session, last := last }).count 0 190 1
          let pl := chordPayload ws
          if type = 2 || type = 3 then act h pl s
          else
            let stale := match h.role with | some r => !s.roleMatches r h.epoch h.src | none => false
            if stale then
              let r := h.role.getD 0
              let own := s.role (ownRole r)
              let s := if h.seq = last + 1 then s.modPeer h.src fun p => { p with last := h.seq } else s
              ({ s with chord.stale := satInc s.chord.stale }).answer h.src 3 h.seq
                [BitVec.ofNat 32 r, BitVec.ofNat 32 own.epoch, BitVec.ofNat 32 own.holder]
            else if h.seq ≤ last then s.answer h.src 2 h.seq []
            else if last + 1 < h.seq then s
            else
              let s := (s.modPeer h.src fun p => { p with last := h.seq }).answer h.src 2 h.seq []
              act h pl s

/-- DATA (R344, R346). -/
def execData (port : Nat) (words : List Word) (s : State) : Res :=
  .next (s.receive port 0x01 words fun h pl s => s.chordRecord 0x01 h.src h.seq h.epoch pl)

/-- What an acknowledged message brings about (R346, R351). -/
def State.acked (s : State) (src : Nat) (m : ChordMsg) : State :=
  let s := s.finalOpt m.ctx ok [src, m.epoch]
  if m.type = 0x20 then { s with chord.ackedTo := wrapAdd (wordAt m.payload 0) (wordAt m.payload 1 % 64) } else s

/-- ACK (R345). -/
def execAck (port : Nat) (words : List Word) (s : State) : Res :=
  .next (s.receive port 0x02 words fun h _ s =>
    match (s.peer? h.src).bind fun p => p.unacked.find? fun m => m.seq == h.ref with
    | none => s
    | some m =>
      let s := s.modPeer h.src fun p => { p with unacked := p.unacked.filter (fun x => x.seq != h.ref), tries := 0 }
      (s.acked h.src m).pump h.src)

/-- STALE_ROLE (R348): a newer epoch is adopted; otherwise the message goes again, with a new seq, after rto_us. -/
def execStaleRole (port : Nat) (words : List Word) (s : State) : Res :=
  .next (s.receive port 0x03 words fun h pl s =>
    let s := { s with chord.stale := satInc s.chord.stale }
    let r := wordAt pl 0 % 4
    let epoch := wordAt pl 1
    if (s.role r).epoch < epoch then s.adoptRole r epoch (wordAt pl 2 % 1024)
    else
      match (s.peer? h.src).bind fun p => p.unacked.find? fun m => m.seq == h.ref && m.role == some r with
      | none => s
      | some m =>
        let s := s.modPeer h.src fun p => { p with unacked := p.unacked.filter (fun x => x.seq != h.ref), tries := 0 }
        if m.ctx.isSome && 3 ≤ m.retries then s.finalOpt m.ctx staleRoleStatus []
        else s.modPeer h.src fun p => { p with queued := p.queued ++ [{ m with retries := m.retries + 1 }] })

/-- ROLE_ANNOUNCE (R348). -/
def execRoleAnnounce (port : Nat) (words : List Word) (s : State) : Res :=
  .next (s.receive port 0x04 words fun _ pl s => s.adoptRole (wordAt pl 0 % 4) (wordAt pl 1) (wordAt pl 2 % 1024))

/-- SYNC_READY (R349). -/
def execSyncReady (port : Nat) (words : List Word) (s : State) : Res :=
  .next (s.receive port 0x10 words fun h pl s => s.syncReadyIn h.src (wordAt pl 0) (bit (wordAt pl 2) 0))

/-- SYNC_GO (R349). -/
def execSyncGo (port : Nat) (words : List Word) (s : State) : Res :=
  .next (s.receive port 0x11 words fun _ pl s => s.syncGoIn pl)

/-- LEDGER_BATCH (R351). -/
def execLedgerBatch (port : Nat) (words : List Word) (s : State) : Res :=
  .next (s.receive port 0x20 words fun h pl s => s.chordRecord 0x20 h.src h.seq h.epoch pl)

/-! ### Stitching (R350) -/

/-- The offer of a STITCH_OFFER payload. -/
def offerOf (pl : List Word) : Offer :=
  { group := wordAt pl 0, west := bit (wordAt pl 1) 0, pitch := wordAt pl 2, x := signed 64 (word64 pl 3)
    w := wordAt pl 5 % 512, ramp := halves ((pl.drop 6).take 128) }

/-- STITCH_OFFER: held, up to 4 per edge (R350). -/
def execStitchOffer (port : Nat) (words : List Word) (s : State) : Res :=
  .next (s.receive port 0x12 words fun _ pl s =>
    let o := offerOf pl
    let others := s.chord.offers.filter fun x => !(x.group == o.group && x.west == o.west)
    if 4 ≤ (others.filter fun x => x.west == o.west).length then s else { s with chord.offers := others ++ [o] })

/-- The offer of one of the own stripe's edges. -/
def State.ownOffer (s : State) (st : Stripe) (west : Bool) : Offer :=
  let r := st.tables.ramps.getD (st.ramps.getD (if west then 0 else 1) 0) Ramp.reset
  let col : Int := if west then 512 * st.root.firstBlock else 512 * ((st.root.firstBlock : Int) + st.root.blocks) - 1
  { group := st.syncGroup, west := west, pitch := s.ctl.pixelPitch, x := st.root.sx + 256 * col, w := r.w, ramp := r.ramp }

def Offer.words (o : Offer) : List Word :=
  let x := unsigned 64 o.x
  [BitVec.ofNat 32 o.group, BitVec.ofNat 32 (b2n o.west), BitVec.ofNat 32 o.pitch, lo32 x, hi32 x, BitVec.ofNat 32 o.w]
    ++ halvesWords ((o.ramp ++ List.replicate 256 0).take 256)

def Offer.at (o : Offer) (d : Int) : Nat := rampAt { w := o.w, ramp := o.ramp } d

/-- R350: the west device's east edge against the east device's west edge. -/
def stitchPasses (w e : Offer) : Bool :=
  let d := w.x - e.x
  let o := d / 256 + 1
  w.pitch == e.pitch && d % 256 == 0 && decide (0 ≤ o) && decide (o ≤ 256)
    && (List.range o.toNat).all fun i => w.at (o - 1 - i) + e.at i ≤ 0x8000

/-- The neighbour's offer for an edge of the own stripe. -/
def State.offerFor (s : State) (group : Nat) (west : Bool) : Option Offer :=
  s.chord.offers.find? fun o => o.group == group && o.west == west

/-- The enabled stitch checks of a stripe: none while an offer is missing, else whether all pass. -/
def State.stitchCheck (s : State) (st : Stripe) : Option Bool :=
  let east := if !s.chord.stitchEast then some true
    else (s.offerFor st.syncGroup true).map fun o => stitchPasses (s.ownOffer st false) o
  let west := if !s.chord.stitchWest then some true
    else (s.offerFor st.syncGroup false).map fun o => stitchPasses o (s.ownOffer st true)
  match east, west with
  | some a, some b => some (a && b)
  | _, _ => none

/-- The own offers go to the neighbours (R350). -/
def State.sendOffers (s : State) (st : Stripe) : State :=
  let s := if s.chord.stitchEast then s.postRole 2 (ChordMsg.of 0x12 (s.ownOffer st false).words) else s
  let s := if s.chord.stitchWest then s.postRole 3 (ChordMsg.of 0x12 (s.ownOffer st true).words) else s
  s.modStripe st.id fun x => { x with offered := true }

/-- SYNC_READY_SEND (R349): offers first; SYNC_READY once the neighbours' offers are there. -/
def execSyncReadySend (s : State) : Res :=
  .next (match s.seq.stripes with
  | [] => s
  | st :: _ =>
    if !s.running || st.startMode ≠ 2 || st.phase ≠ .ready || st.pass ≠ 0 || !st.paused || st.syncSent || !s.chord.enabled
        || !s.datum.disciplined || !s.domLocked s.datum.selected then s
    else
      let s := if st.offered then s else s.sendOffers st
      match s.stitchCheck st with
      | none => s
      | some good =>
        let s := { s with chord.offers := s.chord.offers.filter fun o => o.group != st.syncGroup }
        let s := s.modStripe st.id fun x => { x with syncSent := true, stitchFailed := !good }
        s.postRole 0 (ChordMsg.of 0x10 (readyWords { st with stitchFailed := !good })))

/-! ### Ledger aggregation, retransmission (R345, R351) -/

/-- The entries of consecutive indices at the front, at most n. -/
def consecutive : Nat → List (Nat × List Word) → List (Nat × List Word)
  | 0, _ => []
  | _, [] => []
  | n + 1, e :: rest =>
    match rest with
    | f :: _ => if f.1 = e.1 + 1 then e :: consecutive n rest else [e]
    | [] => [e]

/-- LEDGER_BATCH_SEND (R351). -/
def execLedgerBatchSend (s : State) : Res :=
  let holder := (s.role 1).holder
  let room := holder = s.ctl.deviceId || (match s.peer? holder with | some p => decide (p.unacked.length < 8) | none => false)
  let es := consecutive 40 s.seq.batch
  .next (if !s.running || !s.chord.enabled || !s.chord.aggregate || !room then s
  else
    match es with
    | [] => s
    | e :: _ =>
      let pl := [BitVec.ofNat 32 e.1, BitVec.ofNat 32 es.length] ++ es.flatMap (·.2)
      ({ s with seq.batch := s.seq.batch.drop es.length }).postRole 1 (ChordMsg.of 0x20 pl))

/-- CHORD_RETRANSMIT (R345): unacknowledged messages go again, from the oldest; without progress the destination is
unreachable. -/
def execChordRetransmit (dest : Nat) (s : State) : Res :=
  .next (if !s.running || !s.chord.enabled then s
  else
    match s.peer? dest with
    | none => s
    | some p =>
      if p.unacked.isEmpty then s.pump dest
      else if p.tries < s.chord.retriesMax then
        let s := s.modPeer dest fun p => { p with tries := p.tries + 1 }
        let s := p.unacked.foldl (fun s m => s.sendMsg p m) s
        { s.count 0 191 p.unacked.length with chord.retry := satAdd s.chord.retry p.unacked.length }
      else
        let s := (({ s with chord.unreach := true, chord.unreachId := dest }).modPeer dest fun p =>
          { p with unacked := [], queued := [], tries := 0 }).signal 23
        (p.unacked ++ p.queued).foldl (fun s m => s.undelivered m chordUnreachable) s)

/-! ### Commands (R346, R348, R352) -/

/-- CHORD_SEND (R346). -/
def chordSendBody (p : Packet) (c : Ctx) (s : State) : State :=
  let w := p.param 0
  let byRole := bit w 31
  let r := bits w 29 28
  let dst := if byRole then (s.role r).holder else w % 1024
  let clean := if byRole then bits w 30 30 = 0 && w % 2 ^ 28 = 0 else w < 1024
  if !clean || (s.peer? dst).isNone then s.finish c badParam []
  else
    let pl := (List.range 13).map fun i => BitVec.ofNat 32 (p.param (i + 1))
    let m := { ChordMsg.of 0x01 pl with
      role := if byRole then some r else none, epoch := if byRole then (s.role r).epoch else 0, ctx := some c }
    (s.interim c ok []).post dst m

/-- ROLE_SET (R348). -/
def roleSetBody (p : Packet) (c : Ctx) (s : State) : State :=
  let r := p.param 0 % 4
  let epoch := p.param 1
  let holder := p.param 2 % 1024
  let cur := s.role r
  if cur.epoch < epoch then
    let s := { s with chord.roles := s.chord.roles.set r { holder := holder, epoch := epoch } }
    let s := if r < 2 && holder = s.ctl.deviceId && s.chord.enabled then
        s.chord.peers.foldl (fun s q =>
          s.post q.id (ChordMsg.of 0x04 [BitVec.ofNat 32 r, BitVec.ofNat 32 epoch, BitVec.ofNat 32 holder])) s
      else s
    s.finish c ok [epoch]
  else if epoch = cur.epoch && holder = cur.holder then s.finish c ok [cur.epoch]
  else s.finish c staleRoleStatus [cur.epoch]

/-- The entries of a peer table; none where a port is out of range. -/
def peerEntries (old : List Peer) : Nat → List Word → Option (List Peer)
  | 0, _ => some []
  | n + 1, ws =>
    let w := wordAt ws 0
    let id := w % 1024
    let port := bits w 11 10
    if port = 3 then none
    else
      let base := (old.find? fun p => p.id == id).getD
        { id := id, port := 0, ip := 0, session := 0, last := 0, next := 1, unacked := [], queued := [], tries := 0
          failedOver := false }
      (peerEntries old n (ws.drop 2)).map fun ps =>
        { base with port := port, ip := wordAt ws 1 } :: ps.filter fun p => p.id != id

/-- CHORD_CONFIG (R352); the outside words are the peer entries of section 0x02. -/
def chordConfigBody (env : List Word) (p : Packet) (c : Ctx) (s : State) : State :=
  let w := p.param 0
  let sec := w % 256
  if 256 ≤ w then s.finish c badParam []
  else if sec = 1 then
    let ms := p.param 3
    if ms < 1 || 10000 < ms then s.finish c badParam []
    else
      { s.finish c ok [] with
        chord := { s.chord with
          udpPort := bits (p.param 1) 15 0, enabled := bit (p.param 1) 16, rtoUs := bits (p.param 2) 15 0
          retriesMax := bits (p.param 2) 19 16, syncMs := ms, aggregate := bit (p.param 4) 0, stitchEast := bit (p.param 4) 1
          stitchWest := bit (p.param 4) 2 } }
  else if sec = 2 then
    let n := p.param 3
    if n < 1 || 1024 < n then s.finish c badParam []
    else
      let s := s.hostRead (8 * n)
      match peerEntries s.chord.peers n env with
      | none => s.finish c badParam []
      | some ps =>
        let gone := s.chord.peers.filter fun q => !(ps.any fun x => x.id == q.id)
        let ps := ps.map fun q => { q with failedOver := q.port == 2 && !(s.port 0).link }
        let s := { s with chord.peers := ps }
        let s := (gone.flatMap fun q => q.unacked ++ q.queued).foldl (fun s m => s.undelivered m chordUnreachable) s
        s.finish c ok []
  else
    let ch := bits (p.param 1) 2 0
    if !bit (p.param 1) 3 then (({ s with chord.receiveCh := none }).unbindT .chord).finish c ok []
    else if !s.bindable ch .chord then s.finish c dmaChannelBusy []
    else (({ s with chord.receiveCh := some ch }).bindT ch .chord).finish c ok []

def execChordSend (p : Packet) (s : State) : Res := s.direct 0x0505 p chordSendBody
def execRoleSet (p : Packet) (s : State) : Res := s.direct 0x0504 p roleSetBody
def execChordConfig (p : Packet) (env : List Word) (s : State) : Res := s.direct 0x0503 p (chordConfigBody env)

end Sys2Proof.Machine
end

