-- ==== Sys2Proof/Machine/Deflate.lean ====
section
/-! DEFINITION. DEFLATE streams (RFC 1951) as the compression engine takes and makes them (14_compression_crc.md R353,
R358-R360). -/

namespace Sys2Proof.Machine

/-! ### Bits and Huffman codes -/

def octetBits (b : Byte) : List Bool := (List.range 8).map fun i => b.getLsbD i

/-- Bits packed into bytes, low bit first; the bits that do not fill a byte are left over. -/
def packBits : List Bool → List Byte × List Bool
  | a :: b :: c :: d :: e :: f :: g :: h :: rest =>
    let r := packBits rest
    (BitVec.ofNat 8 (b2n a + 2 * b2n b + 4 * b2n c + 8 * b2n d + 16 * b2n e + 32 * b2n f + 64 * b2n g + 128 * b2n h) :: r.1, r.2)
  | bs => ([], bs)

/-- A field of n bits, low bit first; none when the input ends. -/
def takeBits : Nat → List Bool → Option (Nat × List Bool)
  | 0, bs => some (0, bs)
  | _ + 1, [] => none
  | n + 1, b :: bs => (takeBits n bs).map fun r => (b2n b + 2 * r.1, r.2)

/-- What reading a symbol gives. -/
inductive Sym where
  | more
  | bad
  | sym (n : Nat) (rest : List Bool)
  deriving DecidableEq, Repr

/-- Walk a canonical code, given the length of every symbol's code. -/
def huffWalk (lens : List Nat) : Nat → Nat → Nat → Nat → List Bool → Sym
  | 0, _, _, _, _ => .bad
  | _ + 1, _, _, _, [] => .more
  | fuel + 1, len, code, first, b :: bs =>
    let code := 2 * code + b2n b
    let first := 2 * first
    let here := (lens.zipIdx.filter fun l => l.1 == len).map (·.2)
    if code < first + here.length then .sym (here.getD (code - first) 0) bs
    else huffWalk lens fuel (len + 1) code (first + here.length) bs

def huffSym (lens : List Nat) (bs : List Bool) : Sym := huffWalk lens 15 1 0 0 bs

/-- Code space a set of lengths takes, in units of 2^-15. -/
def codeSpace (lens : List Nat) : Nat := ((lens.filter fun l => l != 0).map fun l => 2 ^ (15 - l)).sum

/-- Over-subscribed, or incomplete where RFC 1951 does not permit it: a distance code may have one code of one bit or none. -/
def codeBad (lens : List Nat) (distance : Bool) : Bool :=
  let used := lens.filter fun l => l != 0
  codeSpace lens != 2 ^ 15 && !(distance && (used == [1] || used == []))

def fixedLit : List Nat := List.replicate 144 8 ++ List.replicate 112 9 ++ List.replicate 24 7 ++ List.replicate 8 8
def fixedDist : List Nat := List.replicate 32 5

def lengthBase : List Nat :=
  [3, 4, 5, 6, 7, 8, 9, 10, 11, 13, 15, 17, 19, 23, 27, 31, 35, 43, 51, 59, 67, 83, 99, 115, 131, 163, 195, 227, 258]
def lengthExtra : List Nat := [0, 0, 0, 0, 0, 0, 0, 0, 1, 1, 1, 1, 2, 2, 2, 2, 3, 3, 3, 3, 4, 4, 4, 4, 5, 5, 5, 5, 0]
def distBase : List Nat :=
  [1, 2, 3, 4, 5, 7, 9, 13, 17, 25, 33, 49, 65, 97, 129, 193, 257, 385, 513, 769, 1025, 1537, 2049, 3073, 4097, 6145, 8193,
    12289, 16385, 24577]
def distExtra : List Nat :=
  [0, 0, 0, 0, 1, 1, 2, 2, 3, 3, 4, 4, 5, 5, 6, 6, 7, 7, 8, 8, 9, 9, 10, 10, 11, 11, 12, 12, 13, 13]

/-! ### The decompressor (R353, R360) -/

/-- How a decoding ends: the input is used up, a block or stream is complete, or an error of R360. -/
inductive Inf where
  | more
  | done (rest : List Bool)
  | err (n : Nat)
  deriving DecidableEq, Repr

/-- Decoded bytes: newest first over the history, and how many are new. -/
structure InfOut where
  rev : List Byte
  n : Nat
  deriving DecidableEq, Repr

def InfOut.push (o : InfOut) (b : Byte) : InfOut := { rev := b :: o.rev, n := o.n + 1 }

/-- Copy a match up to the limit. -/
def copyMatch (limit dist : Nat) : Nat → InfOut → Bool × InfOut
  | 0, o => (true, o)
  | k + 1, o => if limit ≤ o.n then (false, o) else copyMatch limit dist k (o.push (o.rev.getD (dist - 1) 0))

/-- A length and distance after a length symbol. -/
inductive Match where
  | more
  | err (n : Nat)
  | pair (len dist : Nat) (rest : List Bool)
  deriving DecidableEq, Repr

def readMatch (dist : List Nat) (sym held : Nat) (bs : List Bool) : Match :=
  if 286 ≤ sym then .err 4
  else
    match takeBits (lengthExtra.getD (sym - 257) 0) bs with
    | none => .more
    | some (x, bs) =>
      match huffSym dist bs with
      | .more => .more
      | .bad => .err 4
      | .sym d bs =>
        if 30 ≤ d then .err 4
        else
          match takeBits (distExtra.getD d 0) bs with
          | none => .more
          | some (y, bs) =>
            let dd := distBase.getD d 1 + y
            if min held 32768 < dd then .err 5 else .pair (lengthBase.getD (sym - 257) 3 + x) dd bs

/-- The symbols of a coded block; the fuel is the number of bits, of which each symbol takes one or more. -/
def inflateSyms (lit dist : List Nat) (limit : Nat) : Nat → List Bool → InfOut → Inf × InfOut
  | 0, _, o => (.more, o)
  | fuel + 1, bs, o =>
    match huffSym lit bs with
    | .more => (.more, o)
    | .bad => (.err 4, o)
    | .sym s rest =>
      if s < 256 then
        if limit ≤ o.n then (.err 6, o) else inflateSyms lit dist limit fuel rest (o.push (BitVec.ofNat 8 s))
      else if s = 256 then (.done rest, o)
      else
        match readMatch dist s o.rev.length rest with
        | .more => (.more, o)
        | .err e => (.err e, o)
        | .pair len d rest =>
          match copyMatch limit d len o with
          | (false, o) => (.err 6, o)
          | (true, o) => inflateSyms lit dist limit fuel rest o

/-- The bytes of a stored block. -/
def inflateStored (limit : Nat) : Nat → List Bool → InfOut → Inf × InfOut
  | 0, bs, o => (.done bs, o)
  | k + 1, bs, o =>
    match takeBits 8 bs with
    | none => (.more, o)
    | some (b, bs) => if limit ≤ o.n then (.err 6, o) else inflateStored limit k bs (o.push (BitVec.ofNat 8 b))

/-- The code lengths of a dynamic header: literal/length codes, then distance codes. -/
inductive Lens where
  | more
  | err
  | ok (lens : List Nat) (rest : List Bool)
  deriving DecidableEq, Repr

/-- Read `want` code lengths (in reverse). -/
def readLens (cl : List Nat) (want : Nat) : Nat → List Nat → List Bool → Lens
  | 0, _, _ => .err
  | fuel + 1, acc, bs =>
    if acc.length = want then .ok acc.reverse bs
    else
      match huffSym cl bs with
      | .more => .more
      | .bad => .err
      | .sym s bs =>
        if s < 16 then readLens cl want fuel (s :: acc) bs
        else
          let (n, base) := if s = 16 then (2, 3) else if s = 17 then (3, 3) else (7, 11)
          match takeBits n bs with
          | none => .more
          | some (x, bs) =>
            if want < acc.length + base + x || (s == 16 && acc.isEmpty) then .err
            else readLens cl want fuel (List.replicate (base + x) (if s = 16 then acc.headD 0 else 0) ++ acc) bs

def clOrder : List Nat := [16, 17, 18, 0, 8, 7, 9, 6, 10, 5, 11, 4, 12, 3, 13, 2, 14, 1, 15]

/-- Code-length code lengths, in the header's order. -/
def readCl : Nat → List Nat → List Bool → Option (List Nat × List Bool)
  | 0, acc, bs => some (acc.reverse, bs)
  | k + 1, acc, bs => (takeBits 3 bs).bind fun r => readCl k (r.1 :: acc) r.2

/-- A dynamic block's header: the two codes. -/
def readDynamic (bs : List Bool) : Lens × Nat :=
  match (takeBits 5 bs).bind fun a => (takeBits 5 a.2).bind fun b => (takeBits 4 b.2).bind fun c =>
      (readCl (c.1 + 4) [] c.2).map fun d => (a.1 + 257, b.1 + 1, d.1, d.2) with
  | none => (.more, 0)
  | some (nlit, ndist, cls, bs) =>
    let cl := (List.range 19).map fun s => match clOrder.idxOf? s with | some i => cls.getD i 0 | none => 0
    if 286 < nlit || codeBad cl false then (.err, nlit) else (readLens cl (nlit + ndist) 320 [] bs, nlit)

/-- One block: whether it is the last, and how it ends. -/
def inflateBlock (limit : Nat) (bs : List Bool) (o : InfOut) : Bool × Inf × InfOut :=
  match takeBits 1 bs with
  | none => (false, .more, o)
  | some (f, bs) =>
    let final := f == 1
    match takeBits 2 bs with
    | none => (final, .more, o)
    | some (0, bs) =>
      match (takeBits 16 (bs.drop (bs.length % 8))).bind fun a => (takeBits 16 a.2).map fun b => (a.1, b.1, b.2) with
      | none => (final, .more, o)
      | some (len, nlen, bs) => if len + nlen = 65535 then (final, inflateStored limit len bs o) else (final, .err 2, o)
    | some (1, bs) => (final, inflateSyms fixedLit fixedDist limit (bs.length + 1) bs o)
    | some (2, bs) =>
      match readDynamic bs with
      | (.more, _) => (final, .more, o)
      | (.err, _) => (final, .err 3, o)
      | (.ok lens bs, nlit) =>
        let lit := lens.take nlit
        let dist := lens.drop nlit
        if codeBad lit false || codeBad dist true then (final, .err 3, o)
        else (final, inflateSyms lit dist limit (bs.length + 1) bs o)
    | some (_, _) => (final, .err 1, o)

/-- Blocks up to the final one; the fuel is the number of bits. -/
def inflateBlocks (limit : Nat) : Nat → List Bool → InfOut → Inf × InfOut
  | 0, _, o => (.more, o)
  | fuel + 1, bs, o =>
    match inflateBlock limit bs o with
    | (final, .done rest, o) => if final then (.done rest, o) else inflateBlocks limit fuel rest o
    | (_, r, o) => (r, o)

/-- The decoding of a stream's bytes so far: how it stands, and the bytes produced. -/
def inflate (limit : Nat) (input : List Byte) : Inf × List Byte :=
  let bits := input.flatMap octetBits
  let r := inflateBlocks limit (bits.length + 1) bits { rev := [], n := 0 }
  (r.1, r.2.rev.reverse)

/-! ### The compressor (R353, R358, R359) -/

def numBits (w v : Nat) : List Bool := (List.range w).map fun i => bit v i

/-- A Huffman code: high bit first. -/
def codeBits (w v : Nat) : List Bool := (numBits w v).reverse

/-- The fixed code of a literal/length symbol. -/
def fixedCode (s : Nat) : List Bool :=
  if s < 144 then codeBits 8 (0x30 + s)
  else if s < 256 then codeBits 9 (0x190 + (s - 144))
  else if s < 280 then codeBits 7 (s - 256)
  else codeBits 8 (0xC0 + (s - 280))

/-- A match at distance 1 in the fixed codes. -/
def fixedMatch (len : Nat) : List Bool :=
  let k := if len = 258 then 28 else (((lengthBase.take 28).filter fun b => decide (b ≤ len)).length - 1)
  fixedCode (257 + k) ++ numBits (lengthExtra.getD k 0) (len - lengthBase.getD k 3) ++ codeBits 5 0

/-- A run of n bytes at distance 1; the fuel is n. -/
def fixedRun : Nat → Nat → List Bool
  | 0, _ => []
  | fuel + 1, n => if n = 0 then [] else fixedMatch (min n 258) ++ fixedRun fuel (n - 258)

/-- R359 fixes the block of a segment of one repeated byte, coded with the fixed tables, unless the run leaves 1 or 2 bytes. -/
def runBlock (final : Bool) (hist segment : List Byte) : Option (List Bool) :=
  match segment with
  | [] => none
  | b :: _ =>
    let lit := hist.isEmpty
    let n := segment.length - b2n lit
    if segment.length < 3 || segment.any (fun x => x != b) || !(lit || hist.getLast? == some b) || n % 258 = 1 || n % 258 = 2 then
      none
    else some ([final, true, false] ++ (if lit then fixedCode b.toNat else []) ++ fixedRun n n ++ fixedCode 256)

/-- The verify decompressor: a coded block decodes to exactly its segment (R358). -/
def verifyBlock (dynamic final : Bool) (hist segment : List Byte) (bits : List Bool) : Bool :=
  let o : InfOut := { rev := hist.reverse, n := 0 }
  let kind := takeBits 2 (bits.drop 1)
  (kind.map (·.1)) == some (if dynamic then 2 else 1) &&
    match inflateBlock segment.length bits o with
    | (f, .done rest, o) => f == final && rest.isEmpty && (o.rev.take segment.length).reverse == segment && o.n == segment.length
    | _ => false

/-- The stored block of a segment, after `pre` bits in the current byte. -/
def storedBlock (pre : Nat) (final : Bool) (segment : List Byte) : List Bool :=
  [final, false, false] ++ List.replicate ((8 - (pre + 3) % 8) % 8) false
    ++ numBits 16 segment.length ++ numBits 16 (65535 - segment.length) ++ segment.flatMap octetBits

/-- A segment's block after the bits already pending: its bits, and whether verification failed (R358, R359). -/
def codeSegment (n : Nat) (dynamic final : Bool) (pending : List Bool) (hist segment : List Byte) : List Bool × Bool :=
  let coded := (if dynamic then none else runBlock final hist segment).getD (Config.codedBlock n dynamic final hist segment)
  let stored := storedBlock pending.length final segment
  if stored.length < coded.length then (stored, false)
  else if verifyBlock dynamic final hist segment coded then (coded, false)
  else (stored, true)

end Sys2Proof.Machine
end

