-- ==== Sys2Proof/Machine/Compress.lean ====
section
/-! DEFINITION. The compression engine's job path and contexts (14_compression_crc.md R354-R363). A render block passes the
compressor within its own command (Machine/Render.lean), so a job is never seen PAUSED. -/

namespace Sys2Proof.Machine

def State.modComp (s : State) (die : Nat) (f : Comp → Comp) : State := s.modDie die fun d => { d with comp := f d.comp }

def State.comp (s : State) (die : Nat) : Comp := (s.die die).comp

/-- The engine runs (R363). -/
def State.compOn (s : State) (die : Nat) : Bool := s.running && die < s.nDies

/-! ### Contexts (R361, R362) -/

def ctxAddr (slot : Nat) : Nat := 0x11A0000 + slot * 0x8400

/-- The check word of a context's bytes. -/
def ctxCheck (slot : Nat) (bs : List Byte) : Word := crc32c (0xFFFFFFFF ^^^ BitVec.ofNat 32 (ctxAddr slot)) bs

/-- The history and state of a job, up to the check word: the state's words are the engine's own. -/
def JobData.bytes (j : JobData) (free : Nat) : List Byte :=
  (j.hist ++ List.replicate (32768 - j.hist.length) 0).take 32768
    ++ wordsBytes ((List.range 255).map fun i => Config.freeWord (free + i))

/-- A job ends in ERROR with error 8 (R361). -/
def Comp.ctxError (c : Comp) : Comp := { c with job := 4, error := 8, save := false }

/-- Write the job's context to its slot. -/
def State.saveContext (s : State) (die : Nat) : State :=
  let c := s.comp die
  if 10 < c.ctx then s.modComp die Comp.ctxError
  else
    let bs := c.data.bytes s.free
    let data := if c.dir then c.data else { c.data with input := [] }
    let check := ctxCheck c.ctx bs
    let all := bs ++ wordBytes check
    let s := (s.devWrite { die := die, bcast := false, sram := true, off := ctxAddr c.ctx } all).modComp die fun x =>
      { x with save := false, saved := (x.saved.filter fun y => !(y.1 == c.ctx && y.2.1 == check)) ++ [(c.ctx, check, data)] }
    { s with free := s.free + 255 }

/-- A save that waits for its boundary is done once it is reached. -/
def State.saveIf (s : State) (die : Nat) (boundary : Bool) : State :=
  if (s.comp die).save && boundary then s.saveContext die else s

/-- Load a slot in place of a new job's history. -/
def State.loadContext (s : State) (die : Nat) : State :=
  let slot := (s.comp die).ctx
  if 10 < slot then s.modComp die Comp.ctxError
  else
    match s.devRead { die := die, bcast := false, sram := true, off := ctxAddr slot } 0 33792 with
    | (none, s) => s.modComp die Comp.ctxError
    | (some bs, s) =>
      let word := (bytesWords (bs.drop 33788)).getD 0 0
      if word ≠ ctxCheck slot (bs.take 33788) then s.modComp die Comp.ctxError
      else
        s.modComp die fun c =>
          match c.saved.find? fun x => x.1 == slot && x.2.1 == word with
          | some x => { c with data := x.2.2, restored := true }
          | none => { c with data := { JobData.empty with hist := bs.take 32768 }, restored := true }

/-- The job path is at work. -/
def Comp.busy (c : Comp) : Bool := c.job == 1 || c.job == 2

/-- COMP_CONTEXT_SAVE (R361, R362): at once at a boundary, else at the next one. -/
def execCompContextSave (die : Nat) (s : State) : Res :=
  .next (if !s.compOn die then s
  else
    let c := s.comp die
    if c.save then s.modComp die fun c => { c with ctxBusy := true }
    else
      let s := s.modComp die fun c => { c with save := true }
      s.saveIf die (if c.dir then c.job != 1 || c.inDone || c.inBytes == 0 else c.data.input.isEmpty))

/-- COMP_CONTEXT_RESTORE (R361, R362). -/
def execCompContextRestore (die : Nat) (s : State) : Res :=
  .next (if !s.compOn die then s
  else
    let c := s.comp die
    if c.save || c.busy then s.modComp die fun c => { c with ctxBusy := true } else s.loadContext die)

/-! ### Jobs (R354, R357, R362) -/

/-- The fields of a COMP_JOB_CTRL write. -/
def Comp.control (c : Comp) (v : Nat) : Comp := { c with final := bit v 3, dynamic := bit v 2, dir := bit v 1 }

/-- COMP_JOB_START: a write of COMP_JOB_CTRL with start set, whose other fields it stores; the job begins with the history
restored for it, or an empty one. -/
def execCompJobStart (die : Nat) (control : Word) (s : State) : Res :=
  .next (if !s.compOn die then s
  else
    s.modComp die fun c =>
      let c := c.control control.toNat
      if c.busy then { c with ctxBusy := true }
      else
        { c with
          job := 1, error := 0, fault := 0, inDone := false, out := [], inBytes := 0, outBytes := 0
          data := if c.restored then c.data else JobData.empty, restored := false })

/-- One segment coded: its block, verified, joins the output (R358, R359). -/
def State.codeJob (s : State) (die : Nat) (segment : List Byte) (last : Bool) : State :=
  let c := s.comp die
  let final := last && c.final
  let (block, failed) := codeSegment s.free c.dynamic final c.data.bits c.data.hist segment
  let all := c.data.bits ++ block
  let all := if final then all ++ List.replicate ((8 - all.length % 8) % 8) false else all
  let packed := packBits all
  let hist := c.data.hist ++ segment
  let s := { (s.modComp die fun c =>
    { c with
      out := c.out ++ packed.1, blocks := wrapAdd c.blocks 1
      data := { c.data with bits := packed.2, hist := hist.drop (hist.length - 32768) }
      verifyFail := if failed then satInc c.verifyFail else c.verifyFail
      verifySeen := c.verifySeen || failed, fallback := c.fallback || failed }) with free := s.free + 1 }
  if failed then s.detectOpen 0x0007 die 0 0 else s

/-- Whole segments of the input, and the rest at its end. -/
def State.codeAll (s : State) (die : Nat) : Nat → State
  | 0 => s
  | fuel + 1 =>
    let c := s.comp die
    let seg := c.data.input.take 16384
    let whole := c.data.input.length ≤ 16384
    if seg.isEmpty || (seg.length < 16384 && !c.inDone) || (whole && seg.length = 16384 && !c.inDone) then s
    else
      let s := s.modComp die fun c => { c with data := { c.data with input := c.data.input.drop 16384 } }
      let s := s.codeJob die seg (whole && c.inDone)
      (s.saveIf die true).codeAll die fuel

/-- Decode what the input allows (R360): output joins the queue, an error is found at its place. -/
def State.decodeJob (s : State) (die : Nat) : State :=
  let c := s.comp die
  let (r, all) := inflate (c.data.given + (c.limit - c.outBytes - c.out.length)) c.data.input
  let new := all.drop c.data.given
  let fault := match r with
    | .err e => e
    | .more => if c.inDone && c.final then 7 else 0
    | .done _ => 0
  let hist := c.data.hist ++ new
  let s := (s.modComp die fun c =>
    { c with
      out := c.out ++ new, fault := fault, decompErr := if fault != 0 then satInc c.decompErr else c.decompErr
      data := { c.data with given := all.length, hist := hist.drop (hist.length - 32768) } }).count die 59 new.length
  s.saveIf die c.inDone

/-- The compression unit requests input: a job runs that takes it, or discards it after an error (R357). -/
def Comp.wantsInput (c : Comp) : Bool := (c.job == 1 && !c.inDone) || c.job == 4

def Comp.wantsOutput (c : Comp) : Bool := c.job == 1 && !c.out.isEmpty

/-- A burst of input; `last` is the burst that completes its descriptor. -/
def State.jobInput (s : State) (die : Nat) (bs : List Byte) (last : Bool) : State :=
  let c := s.comp die
  if c.job != 1 || c.fault != 0 then s.modComp die fun c => { c with inDone := c.inDone || (last && c.job == 1) }
  else
    let s := s.modComp die fun c =>
      { c with inBytes := wrapAdd c.inBytes bs.length, inDone := last, data := { c.data with input := c.data.input ++ bs } }
    if c.dir then s.decodeJob die
    else (s.count die 56 bs.length).codeAll die (bs.length + 1)

/-- A burst of at most n bytes of output. -/
def State.jobOutput (s : State) (die n : Nat) : List Byte × State :=
  let c := s.comp die
  let bs := c.out.take n
  let s := s.modComp die fun c => { c with out := c.out.drop n, outBytes := wrapAdd c.outBytes bs.length }
  (bs, if c.dir then s else s.count die 57 bs.length)

/-- COMP_JOB_DONE (R357): DONE once the input is complete and the output written; ERROR at an error of R360. -/
def execCompJobDone (die : Nat) (s : State) : Res :=
  .next (if !s.compOn die then s
  else
    s.modComp die fun c =>
      if c.job != 1 then c
      else if c.fault != 0 then { c with job := 4, error := c.fault, out := [] }
      else if c.inDone && c.out.isEmpty then { c with job := 3 }
      else c)

end Sys2Proof.Machine
end

