-- ==== Sys2Proof/Machine/Dma.lean ====
section
/-! DEFINITION. The DMA engine: class D channels, move channels and class T streams (03_dma.md R72-R94). -/

namespace Sys2Proof.Machine

/-! ### Class D channels -/

def State.dmaChan (s : State) (i : Nat) : DmaD := s.dmaD.getD i (DmaD.reset true)

def State.modDma (s : State) (i : Nat) (f : DmaD → DmaD) : State := { s with dmaD := s.dmaD.modify i f }

/-- Where a running channel goes between descriptors: a host-owned one waits for its binding (R78, R82). -/
def DmaD.ready (c : DmaD) : DmaState := if !c.firmware && c.bound.isNone then .waitBind else .active

/-- Bits of DMA_D_STAT: 0 done, 1 bad, 2 fetch_err, 3 cfg_locked, 4 owner_denied. -/
def DmaD.flag (c : DmaD) (i : Nat) : DmaD := { c with err := c.err ||| BitVec.ofNat 5 (2 ^ i) }

/-- A host write to a channel's register: none for a firmware-owned channel, which sets DEV_ERR.owned (19 R462). -/
def State.hostDma (s : State) (ch : Nat) (f : State → State) : Res :=
  .next (if !s.hifOn || 8 ≤ ch then s else if (s.dmaChan ch).firmware then s.devErr 2 else f s)

/-- DMA_DOORBELL (R78). -/
def execDmaDoorbell (ch : Nat) (s : State) : Res :=
  s.hostDma ch fun s => s.modDma ch fun c => if c.state == .idle then { c with state := .active } else c

/-- Setting run (R79). -/
def DmaD.setRun (c : DmaD) : DmaD :=
  if c.run then c
  else
    { c with
      run := true
      state := match c.state with
        | .error => .error
        | .stopping => .active
        | .stopped | .idle | .waitBind | .active => c.ready }

/-- Clearing run (R79). -/
def DmaD.clearRun (c : DmaD) : DmaD :=
  { c with
    run := false
    state := match c.state with
      | .error => .error
      | .stopped | .idle | .waitBind | .active | .stopping => if c.desc.isSome then .stopping else .stopped }

/-- DMA_RUN_SET, DMA_RUN_CLEAR. -/
def execDmaRunSet (ch : Nat) (s : State) : Res := s.hostDma ch fun s => s.modDma ch DmaD.setRun
def execDmaRunClear (ch : Nat) (s : State) : Res := s.hostDma ch fun s => s.modDma ch DmaD.clearRun

/-- A part-block that a descriptor of a bound channel leaves is discarded (05 R145). -/
def Area.dropPart (a : Area) : Area :=
  if a.bytes.isEmpty || 65536 ≤ a.bytes.length then a else { a with bytes := [], part := satInc a.part }

def State.partBlock (s : State) (c : DmaD) : State :=
  { s with areas := s.areas.map fun a => if a.bound.isSome && a.bound == c.bound then a.dropPart else a }

/-- The descriptor in progress completes: write-back of words 6 and 7, then of word 0 with own cleared (R76, R77). A
firmware-owned channel's descriptors too are written in host memory at its ring base: the spec does not say where firmware's
ring lies (DESIGN CHOICE, notes/assumptions/46.md). -/
def State.completeD (s : State) (i result index : Nat) : State :=
  let c := s.dmaChan i
  match c.desc with
  | none => s
  | some ws =>
    let irq := bit (wordAt ws 0) 30
    let bad := 0x80 ≤ result
    let base := c.ring.toNat + 32 * c.index
    let s := (s.hostWrite (base + 24) [BitVec.ofNat 32 c.done, BitVec.ofNat 32 (result * 2 ^ 24 + index)]).hostWrite base
      [BitVec.ofNat 32 (wordAt ws 0 % 2 ^ 31)]
    let s := if c.firmware then s else s.partBlock c
    let s := (s.count 0 181 1).modDma i fun c =>
      let c := { c with
        index := (c.index + 1) % 2 ^ c.log2, desc := none, sgl := [], entry := 0, offset := 0, done := 0, ended := false
        abort := false, state := if c.run then c.ready else .stopped
        badCount := if bad then wrapAdd c.badCount 1 else c.badCount }
      let c := if bad then c.flag 1 else c
      if irq then c.flag 0 else c
    if irq || (bad && c.irqBad) then s.signal (4 + i) else s

/-- DMA_ABORT (R80): a burst boundary lies between any two commands of the model. Without a descriptor in progress the channel
stops as under R79, a case that R80 does not name (DESIGN CHOICE, notes/assumptions/46.md). -/
def execDmaAbort (ch : Nat) (s : State) : Res :=
  s.hostDma ch fun s =>
    let s := s.modDma ch fun c => { c with run := false }
    if (s.dmaChan ch).desc.isSome then s.completeD ch 0x03 0 else s.modDma ch DmaD.clearRun

/-- DMA_OWNER_WRITE (R73). -/
def execDmaOwnerWrite (ch : Nat) (firmware : Bool) (s : State) : Res :=
  let c := s.dmaChan ch
  .next (if !s.hifOn || 8 ≤ ch || c.firmware == firmware then s
  else if s.ctl.dev ≠ .configured || c.state != .stopped then s.devErr 3
  else if !firmware && (s.dmaD.filter (·.firmware)).length ≤ 1 then s.modDma ch fun c => c.flag 4
  else s.modDma ch fun c => { c with firmware := firmware })

/-- DMA_FETCH_ERROR_CLEAR (R84): with run cleared the channel leaves ERROR for STOPPED. Written while run is set, it clears the
flag alone, and a second write after run is cleared leaves ERROR: the spec does not say what that order does (DESIGN CHOICE,
notes/assumptions/46.md). -/
def execDmaFetchErrorClear (ch : Nat) (s : State) : Res :=
  s.hostDma ch fun s => s.modDma ch fun c =>
    let c := { c with err := c.err &&& ~~~4#5 }
    if c.state == .error && !c.run then { c with state := .stopped } else c

/-- DMA_RING_BASE_WRITE (R81). -/
def execDmaRingBaseWrite (ch : Nat) (high : Bool) (value : Word) (s : State) : Res :=
  s.hostDma ch fun s => s.modDma ch fun c =>
    if c.state != .stopped then c.flag 3
    else
      let v := value.toNat
      let r := c.ring.toNat
      { c with
        index := 0
        ring := BitVec.ofNat 64 (if high then r % 2 ^ 32 + v * 2 ^ 32 else r / 2 ^ 32 * 2 ^ 32 + v / 4096 * 4096) }

/-- The entries of a scatter-gather list; none when one breaks Table 3-3. -/
def sglEntries : Nat → List Word → Option (List (Nat × Nat))
  | 0, _ => some []
  | n + 1, ws =>
    let len := wordAt ws 2
    if len = 0 ∨ 16777216 < len ∨ wordAt ws 3 ≠ 0 then none
    else (sglEntries n (ws.drop 4)).map fun es => (word64 ws 0, len) :: es

/-- The format of a class D descriptor (Table 3-2, Table 3-4); broadcast is a write's alone (Table 3-6). A list address that is
not 16-byte aligned is taken as it is: R75 names no result for it (DESIGN CHOICE, notes/assumptions/46.md). -/
def State.descOk (s : State) (c : DmaD) (ws sgl : List Word) : Option (List (Nat × Nat)) :=
  let w0 := wordAt ws 0
  let n := w0 % 4096
  if bits w0 28 12 ≠ 0 ∨ n = 0 then none
  else
    match sglEntries n sgl with
    | none => none
    | some es =>
      let total := (es.map (·.2)).sum
      let devOk := if c.firmware then (s.devAddr (word64 ws 3) total (!bit w0 29)).isSome else !bit w0 29 && word64 ws 3 == 0
      if devOk then some es else none

/-- DMA_DESCRIPTOR_FETCH of a class D channel (R78, R84): its owner has set run. -/
def State.fetchD (s : State) (i : Nat) (answer : DescRead) : State :=
  let c := s.dmaChan i
  if c.desc.isSome || c.state != .active then s
  else
    match answer with
    | .error => (s.modDma i fun c => { c.flag 2 with state := .error }).signal (4 + i)
    | .words ws sgl =>
      let s := s.hostRead 32
      if !bit (wordAt ws 0) 31 then s.modDma i fun c => { c with state := .idle }
      else
        let start := s.modDma i fun c => { c with desc := some ws, sgl := [], entry := 0, offset := 0, done := 0 }
        match s.descOk c ws sgl with
        | none => start.completeD i 0x82 0
        | some es => (start.hostRead (4 * sgl.length)).modDma i fun c => { c with sgl := es }

/-- Bytes a burst may move at a host address (R88): no burst crosses a 4 KiB boundary. -/
def burstRoom (addr left : Nat) : Nat := min left (4096 - addr % 4096)

/-- After a burst of n bytes: the next place in the list, or the descriptor's end. bytes_done of an UNBOUND descriptor counts
the bytes read and discarded with the others (DESIGN CHOICE, notes/assumptions/46.md). -/
def State.advanceD (s : State) (i n : Nat) : State :=
  let s := s.modDma i fun c =>
    let left := ((c.sgl.getD c.entry (0, 0)).2) - c.offset
    if left ≤ n then { c with done := c.done + n, entry := c.entry + 1, offset := 0 }
    else { c with done := c.done + n, offset := c.offset + n }
  let c := s.dmaChan i
  if c.sgl.length ≤ c.entry then s.completeD i (if c.ended then 0x02 else 0x01) 0 else s

/-- Bytes that a host-owned channel delivers go to the block being assembled for its bound stripe (R74, 05 R145). -/
def State.stageBytes (s : State) (c : DmaD) (bs : List Byte) : State :=
  { s with areas := s.areas.map fun a => if a.bound.isSome && a.bound == c.bound then { a with bytes := a.bytes ++ bs } else a }

/-- Room for a channel's next bytes: a complete block leaves none until it is handled (05 R145). -/
def State.stageRoom (s : State) (c : DmaD) : Nat :=
  if c.firmware || c.ended then 65536
  else match s.areas.find? fun a => a.bound.isSome && a.bound == c.bound with
    | some a => 65536 - a.bytes.length
    | none => 0

/-- A burst's bytes reach the channel's destination: device memory, staging, or nothing once the stripe has ended. -/
def State.deliver (s : State) (i at_ : Nat) (bs : List Byte) : State :=
  let c := s.dmaChan i
  if c.ended then s.modDma i fun c => { c with discard := satAdd c.discard bs.length }
  else if c.firmware then (match s.devAddr at_ 0 true with | none => s | some a => s.devWrite a bs)
  else s.stageBytes c bs

/-- Correctable link errors that a burst's answer reports. -/
def burstCe : BurstRead → Nat
  | .error _ | .bytes _ => 0
  | .corrected _ => 1

/-- What the link of a DRAM source reports of a burst's read (04 R108). -/
def State.linkAnswer (s : State) (a : DevAddr) (answer : BurstRead) : State :=
  if a.sram then s
  else match answer with
    | .error _ => s.linkUe a.die
    | .bytes _ | .corrected _ => s.linkCe a.die (burstCe answer)

/-- The bytes of a class D burst move in the direction of its descriptor (R88): a host read is up to the maximum read request
size, a host write up to 512 bytes. -/
def State.burstData (s : State) (i : Nat) (ws : List Word) (bs : List Byte) : State :=
  let c := s.dmaChan i
  let at_ := c.sgl.getD c.entry (0, 0)
  let addr := at_.1 + c.offset
  let room := burstRoom addr (at_.2 - c.offset)
  if bit (wordAt ws 0) 29 then
    match s.devAddr (word64 ws 3 + c.done) 0 false with
    | none => s
    | some a =>
      match s.devRead a 0 (min room 512) with
      | (none, s) => s
      | (some out, s) => ((s.emit (.writeBytes addr out)).count 0 180 out.length).advanceD i out.length
  else
    let n := min (min bs.length room) (min s.pcie.maxReadRequest (s.stageRoom c))
    ((s.hostRead n).deliver i (word64 ws 3 + c.done) (bs.take n)).advanceD i n

/-- DMA_BURST of a class D channel (R79, R82, R83). -/
def State.burstD (s : State) (i : Nat) (answer : BurstRead) : State :=
  let c := s.dmaChan i
  match c.desc with
  | none => s
  | some ws =>
    if c.paused || s.stageRoom c = 0 then s
    else
      let s := match if bit (wordAt ws 0) 29 then s.devAddr (word64 ws 3 + c.done) 0 false else none with
        | none => s
        | some a => s.linkAnswer a answer
      match answer with
      | .error e => (s.completeD i 0x81 (e % 4096)).detectOpen 0x000D 0 i 0
      | .bytes bs | .corrected bs => s.burstData i ws bs

/-! ### Move channels (Table 3-5) -/

def State.modMove (s : State) (die k : Nat) (f : DmaD → DmaD) : State :=
  s.modDie die fun d => { d with moves := d.moves.modify k f }

def State.moveChan (s : State) (die k : Nat) : DmaD := (s.die die).moves.getD k (DmaD.reset true)

/-- The check-value unit a paced descriptor names, the compression input 4 or output 5 (Table 3-5); none when it is not paced. -/
def moveReq (ws : List Word) : Option Nat := if bit (wordAt ws 0) 29 then some (bits (wordAt ws 0) 28 24) else none

/-- A descriptor that has begun releases its check-value unit (14 R367). -/
def State.releaseCrc (s : State) (die : Nat) (c : DmaD) : State :=
  match c.desc.bind moveReq with
  | some u => if u < 4 && c.done != 0 then s.modCrc die u fun x => { x with busy := false } else s
  | none => s

/-- The descriptor of a move channel completes and is written back: words 6 and 7, then word 0 with own cleared (R76, R86). -/
def State.completeMove (s : State) (die k result : Nat) : State :=
  (s.releaseCrc die (s.moveChan die k)).modMove die k fun c =>
    let w0 := wordAt (c.desc.getD []) 0
    let bad := 0x80 ≤ result
    let c := { c with
      back := some (c.index, [BitVec.ofNat 32 (w0 % 2 ^ 31), BitVec.ofNat 32 c.done, BitVec.ofNat 32 (result * 2 ^ 24)])
      index := (c.index + 1) % 2 ^ c.log2, desc := none, done := 0, buffer := [], abort := false
      state := if c.run then .active else .stopped
      badCount := if bad then wrapAdd c.badCount 1 else c.badCount }
    let c := if bad then c.flag 1 else c
    if bit w0 30 then c.flag 0 else c

/-- The addresses and length of a move descriptor (Table 3-5); an address that the compression engine makes the channel
ignore is not checked (14 R354). -/
def State.moveDesc (s : State) (ws : List Word) : Option (DevAddr × DevAddr × Nat) :=
  let w0 := wordAt ws 0
  let len := wordAt ws 5
  let none? : DevAddr := { die := 0, bcast := false, sram := true, off := 0 }
  if bits w0 23 12 ≠ 0 ∨ bits w0 11 0 ≠ 0 ∨ len = 0 ∨ 5 < bits w0 28 24 then none
  else
    let src := if moveReq ws = some 5 then some none? else s.devAddr (word64 ws 1) len false
    let dst := if moveReq ws = some 4 then some none? else s.devAddr (word64 ws 3) len true
    match src, dst with
    | some a, some b => some (a, b, len)
    | _, _ => none

/-- DMA_DESCRIPTOR_FETCH of a move channel (R78, R84): its firmware has set run. -/
def State.fetchMove (s : State) (die k : Nat) (answer : DescRead) : State :=
  let c := s.moveChan die k
  if c.desc.isSome || c.state != .active then s
  else
    match answer with
    | .error => s.modMove die k fun c => { c.flag 2 with state := .error }
    | .words ws _ =>
      if !bit (wordAt ws 0) 31 then s.modMove die k fun c => { c with state := .idle }
      else
        let s := s.modMove die k fun c => { c with desc := some ws, done := 0, buffer := [] }
        if (s.moveDesc ws).isSome then s else s.completeMove die k 0x82

/-- n bytes of a descriptor have been moved. -/
def State.movedBytes (s : State) (die k len n : Nat) : State :=
  let done := (s.moveChan die k).done + n
  let s := (s.modMove die k fun c => { c with done := done }).count die 43 (ceilDiv n 64)
  if len ≤ done then s.completeMove die k 0x01 else s

/-- The end of a descriptor that passed a check-value unit, whose last t bytes are given: append, or check-and-strip
(14 Table 14-3). -/
def State.crcEnd (s : State) (die u : Nat) (b : DevAddr) (len : Nat) (tail : Option (List Byte)) : State :=
  let c := s.crcUnit die u
  let sum := (wordBytes c.result).take c.trailer
  if c.mode = 1 then s.devWrite { b with off := b.off + len } sum
  else if c.mode = 2 then
    if tail == some sum then s
    else s.modCrc die u fun c => { c with mismatch := true, mismatches := satInc c.mismatches }
  else s

/-- The bytes i to i + n of a move descriptor's source: from its buffer where it was read whole before (R87). -/
def State.moveBytes (s : State) (c : DmaD) (a : DevAddr) (i n : Nat) : Option (List Byte) × State :=
  if c.buffer.isEmpty then s.devRead { a with off := a.off + i } 0 n else (some ((c.buffer.drop i).take n), s)

/-- The trailer of a check-and-strip descriptor; none where the data is no longer than the trailer. -/
def State.moveTail (s : State) (c : DmaD) (u : Nat) (die : Nat) (a : DevAddr) (len : Nat) : Option (List Byte) × State :=
  let x := s.crcUnit die u
  if x.mode ≠ 2 || len ≤ x.trailer then (none, s) else s.moveBytes c a (len - x.trailer) x.trailer

/-- A burst through a check-value unit: the payload's bytes pass the unit on their way, in ascending order (14 R366). -/
def State.burstCrc (s : State) (die k u : Nat) (a b : DevAddr) (len n : Nat) : State :=
  let c := s.moveChan die k
  let x := s.crcUnit die u
  if c.done = 0 && x.busy then s
  else
    let payload := if x.mode = 2 then len - x.trailer else len
    match s.moveBytes c a c.done n with
    | (none, s) => s.completeMove die k 0x81
    | (some data, s) =>
      let data := data.take (payload - c.done)
      let s := ((s.devWrite { b with off := b.off + c.done } data).feedCrc die u data).modCrc die u fun x => { x with busy := true }
      if len ≤ c.done + n then
        let (tail, s) := s.moveTail c u die a len
        (((s.crcEnd die u b len tail).modCrc die u fun x => { x with busy := false })).movedBytes die k len n
      else s.movedBytes die k len n

/-- An overlapping descriptor through a check-value unit reads its whole source before its first burst (R87). -/
def State.fillBuffer (s : State) (die k u : Nat) (a : DevAddr) (len : Nat) : Bool × State :=
  let c := s.moveChan die k
  if c.done ≠ 0 || (s.crcUnit die u).busy then (true, s)
  else
    match s.devRead a 0 len with
    | (none, s) => (false, s)
    | (some data, s) => (true, s.modMove die k fun c => { c with buffer := data })

/-- DMA_BURST of a move channel: up to 256 bytes, in descending order where the destination overlaps the source from above
(R87, R88); a paced burst waits for its peripheral's request. -/
def State.burstMove (s : State) (die k : Nat) (answer : BurstRead) : State :=
  let c := s.moveChan die k
  match c.desc with
  | none => s
  | some ws =>
    match answer, s.moveDesc ws with
    | .error _, none => s.completeMove die k 0x81
    | .error _, some (a, _, _) => (s.linkAnswer a answer).completeMove die k 0x81
    | .bytes _, none | .corrected _, none => s.completeMove die k 0x82
    | .bytes bs, some (a, b, len) | .corrected bs, some (a, b, len) =>
      let s := s.linkAnswer a answer
      let n := min (min (max 1 bs.length) 256) (len - c.done)
      let down := a.sram == b.sram && (b.bcast || a.die == b.die) && a.off < b.off && b.off < a.off + len
      match moveReq ws with
      | some 4 =>
        if !(s.comp die).wantsInput then s
        else
          match s.devRead { a with off := a.off + c.done } 0 n with
          | (none, s) => s.completeMove die k 0x81
          | (some data, s) => (s.jobInput die data (len ≤ c.done + n)).movedBytes die k len n
      | some 5 =>
        if !(s.comp die).wantsOutput then s
        else
          let (data, s) := s.jobOutput die n
          (s.devWrite { b with off := b.off + c.done } data).movedBytes die k len data.length
      | some u =>
        let (read, s) := if down then s.fillBuffer die k u a len else (true, s)
        if read then s.burstCrc die k u a b len n else s.completeMove die k 0x81
      | none =>
        let i := if down then len - c.done - n else c.done
        match s.devRead { a with off := a.off + i } 0 n with
        | (none, s) => s.completeMove die k 0x81
        | (some data, s) => (s.devWrite { b with off := b.off + i } data).movedBytes die k len n

/-- DMA_DESCRIPTOR_FETCH (R78). -/
def execDmaDescriptorFetch (ch : DmaChan) (answer : DescRead) (s : State) : Res :=
  .next (if !s.running then s
  else
    match ch with
    | .classD i => if i < 8 then s.fetchD i answer else s
    | .move d k => if d < s.nDies && k < 4 then s.fetchMove d k answer else s)

/-- DMA_BURST (R88). -/
def execDmaBurst (ch : DmaChan) (answer : BurstRead) (s : State) : Res :=
  .next (if !s.running then s
  else
    match ch with
    | .classD i => if i < 8 then s.burstD i answer else s
    | .move d k => if d < s.nDies && k < 4 then s.burstMove d k answer else s)

/-! ### Class T streams (R89-R93) -/

/-- Setting enable resets both pointers (R93). -/
def DmaT.enable (c : DmaT) : DmaT := if c.enabled then c else { c with enabled := true, wr := 0, rd := 0 }

/-- DMA_T_ENABLE. -/
def execDmaTEnable (ch : Nat) (s : State) : Res :=
  .next (if s.hifOn then { s with dmaT := s.dmaT.modify ch DmaT.enable } else s)

/-- A write of RDPTR (R90). -/
def DmaT.setRd (c : DmaT) (v : Nat) : DmaT :=
  if (v + 2 ^ 32 - c.rd) % 2 ^ 32 ≤ (c.wr + 2 ^ 32 - c.rd) % 2 ^ 32 then { c with rd := v } else { c with rdRange := true }

/-- DMA_T_RDPTR_WRITE. -/
def execDmaTRdptrWrite (ch : Nat) (value : Word) (s : State) : Res :=
  .next (if s.hifOn then { s with dmaT := s.dmaT.modify ch fun c => c.setRd value.toNat } else s)

/-- CLASS_T_RECORD_WRITE: the oldest waiting record is written whole once it fits (R90, R91). -/
def execClassTRecordWrite (ch : Nat) (s : State) : Res :=
  .next (match s.dmaT[ch]? with
  | none => s
  | some c =>
    match c.waiting with
    | [] => s
    | r :: rest =>
      let n := 4 * r.length
      if !c.enabled || c.room < n || !s.running then s
      else
        let size := 2 ^ c.log2
        let off := c.wr % size
        let head := min r.length ((size - off) / 4)
        let s := s.hostWrite (c.buf.toNat + off) (r.take head)
        let s := if head < r.length then s.hostWrite c.buf.toNat (r.drop head) else s
        let half := size / 2
        let passed := ((c.wr + n) / half) - c.wr / half
        let odd := (c.wr / half + 1) % 2 == 1
        let hitHalf := passed != 0 && (odd || 2 ≤ passed)
        let hitFull := passed != 0 && (!odd || 2 ≤ passed)
        let s := { (s.count 0 182 1) with
          dmaT := s.dmaT.set ch { c with
            waiting := rest, wr := (c.wr + n) % 2 ^ 32, half := c.half || hitHalf, full := c.full || hitFull } }
        let s := if hitHalf && c.halfIrq then s.signal (12 + ch) else s
        if hitFull && c.fullIrq then s.signal (12 + ch) else s)

end Sys2Proof.Machine
end

