-- ==== Sys2Proof/Machine/Interp.lean ====
section
/-! DEFINITION. Commands that read or change the device as a whole (02_host_commands.md Table 2-6, 01_architecture.md
R39-R42). -/

namespace Sys2Proof.Machine

/-- State codes (Table 2-5); a state without a code reads as STANDBY's (HIF_STATUS.state's reset value). -/
def DevState.code : DevState → Nat
  | .configured => 2
  | .armed => 3
  | .writing => 4
  | .safeDark => 5
  | .off | .standby | .halted => 1

/-- INFO res0's variant number. -/
def Variant.number (v : Variant) : Nat := v.dies

/-- The usable beam columns as INFO res3. -/
def State.columnsWord (s : State) : Nat := s.usableColumns.1 + s.usableColumns.2 * 2 ^ 16

def nopBody (_ : Packet) (c : Ctx) (s : State) : State := s.finish c ok []

/-- INFO (Table 2-6). -/
def infoBody (_ : Packet) (c : Ctx) (s : State) : State :=
  s.finish c ok [s.fuses.variant.number * 256 + s.nDies, s.ctl.fw.toNat, s.dieMask, s.columnsWord, s.ctl.deviceId]

/-- Executing stripe id, 0xFFFF_FFFF if none (09 SEQ_STRIPE). -/
def State.executingId (s : State) : Nat := match s.executing? with | some st => st.id | none => 0xFFFFFFFF

/-- STATE (Table 2-6). -/
def stateBody (_ : Packet) (c : Ctx) (s : State) : State :=
  s.finish c ok
    [s.ctl.dev.code + b2n s.perim.replace * 256 + b2n (s.causes != 0) * 512, s.maxRate, s.ctl.epoch, s.executingId,
      s.seq.ledger.length]

/-- CLEAR (15 R389): CONFIGURED once no cause is active. -/
def clearBody (_ : Packet) (c : Ctx) (s : State) : State :=
  if s.causes != 0 then s.finish c safeDarkActive [] else (s.setDev .configured).finish c ok []

/-- Lanes that count as in L0 for ARM (01 R41). -/
def Lane.armed (l : Lane) : Bool := l.power == .l0 && (l.state == .up || l.state == .retraining)

/-- The conditions of ARM (01 R41); no die may be in demand mode (16 R413). -/
def State.armable (s : State) : Bool :=
  (s.dies.all fun d => d.retired || d.lanes.all fun l => l.retired || (l.armed && l.codes.isSome))
    && s.locus.locked && (s.locusAxis 0).referenced && s.causes == 0 && s.dies.all fun d => !d.pow.demand

/-- ARM (01 R41): no effect in ARMED. -/
def armBody (_ : Packet) (c : Ctx) (s : State) : State :=
  if s.ctl.dev = .armed then s.finish c ok [s.maxRate]
  else if s.armable then (s.setDev .armed).finish c ok [s.maxRate]
  else s.finish c wrongState []

/-- DISARM (Table 1-7): queued stripes are removed with WRONG_STATE. -/
def disarmBody (_ : Packet) (c : Ctx) (s : State) : State :=
  (((s.closeGates.setDev .configured).removeQueued wrongState).releaseAxes).finish c ok []

/-- CFG_PIXEL_PITCH: 5,000 to 50,000,000 pm. -/
def cfgPixelPitchBody (p : Packet) (c : Ctx) (s : State) : State :=
  let v := p.param 0
  if v < 5000 || 50000000 < v then s.finish c badParam [] else { s.finish c ok [] with ctl.pixelPitch := v }

/-- CFG_DEVICE_ID. -/
def cfgDeviceIdBody (p : Packet) (c : Ctx) (s : State) : State :=
  { s.finish c ok [] with ctl.deviceId := p.param 0 % 1024 }

/-- TIME_READ (Table 2-6, 13 R333). -/
def timeReadBody (_ : Packet) (c : Ctx) (s : State) : State :=
  s.finish c ok [s.timeSec % 2 ^ 32, s.timeSec / 2 ^ 32, s.timeNs, s.timeFrac]

def execNop (p : Packet) (s : State) : Res := s.direct 0x0000 p nopBody
def execInfo (p : Packet) (s : State) : Res := s.direct 0x0001 p infoBody
def execState (p : Packet) (s : State) : Res := s.direct 0x0002 p stateBody
def execClear (p : Packet) (s : State) : Res := s.direct 0x0003 p clearBody
def execArm (p : Packet) (s : State) : Res := s.direct 0x0005 p armBody
def execDisarm (p : Packet) (s : State) : Res := s.direct 0x0006 p disarmBody
def execCfgPixelPitch (p : Packet) (s : State) : Res := s.direct 0x0100 p cfgPixelPitchBody
def execCfgDeviceId (p : Packet) (s : State) : Res := s.direct 0x0101 p cfgDeviceIdBody
def execTimeRead (p : Packet) (s : State) : Res := s.direct 0x0501 p timeReadBody

end Sys2Proof.Machine
end

