-- ==== Sys2Proof/Machine/Perimeter.lean ====
section
/-! DEFINITION. Perimeter: the safety pins, reported faults, the policy steps and the fault commands
(15_safety_faults.md R373-R399, R493-R496). -/

namespace Sys2Proof.Machine

/-! ### Pins -/

/-- HEAD_TRIP_N asserted (09 R234): dark at once; the device enters SAFE_DARK with cause HEAD_TRIP. Perimeter acts once boot
has completed; before that the level is seen at boot's end. -/
def execHeadTripNAsserted (s : State) : Res :=
  .next (if s.ctl.headTripN then s
  else
    let s := { s with ctl.headTripN := true }
    if s.running then s.closeGates.detectOpen 0x0013 0 0 0 else s)

def execHeadTripNDeasserted (s : State) : Res := .next { s with ctl.headTripN := false }

/-- DARK_N asserted (R375). -/
def execDarkNAsserted (s : State) : Res :=
  .next (if s.ctl.darkN then s
  else
    let s := { s with ctl.darkN := true }
    if s.running then s.closeGates.detectOpen 0x0022 0 0 0 else s)

def execDarkNDeasserted (s : State) : Res := .next { s with ctl.darkN := false }

/-! ### Reported faults -/

/-- A fault reaches Perimeter of a die: once boot has completed it is detected; before that only a class C4 fault acts, and
takes the device to HALTED (Table 1-7). -/
def State.report (s : State) (cause die unit : Nat) (d0 d1 : Word) : State :=
  if s.nDies ≤ die || !s.domOn die 1 || cause = 0 || 0x0026 < cause then s
  else if s.running then s.detect cause die unit d0 d1
  else if causeClass cause die = 4 && s.ctl.dev != .halted then s.react cause die unit 4 false
  else s

/-- A report whose detail0 the spec leaves open. -/
def State.reportOpen (s : State) (cause die unit : Nat) (d1 : Word) : State :=
  let (n, s) := s.draw
  s.report cause die unit (Config.freeWord n) d1

/-- FAULT_REPORT (R379-R384). A failed status write, unit 2 of HOST_INTERFACE, disables the status ring and signals vector 2
(02 R57). -/
def execFaultReport (cause die unit : Nat) (detail0 detail1 : Word) (s : State) : Res :=
  let s := if cause = 0x000E && unit = 2 && die = 0 && s.running then (s.disableStatus.hifErr 3).signal 2 else s
  .next (s.report cause die unit detail0 detail1)

/-- WATCHDOG_TIMEOUT (Table 15-3, Id 13). -/
def execWatchdogTimeout (die : Nat) (s : State) : Res := .next (s.reportOpen 0x001D die 0 0)

/-- LOCKSTEP_MISMATCH (Table 15-3, Id 10). -/
def execLockstepMismatch (die : Nat) (s : State) : Res := .next (s.reportOpen 0x001C die 0 0)

/-- CLOCK_MONITOR_FAULT (01 R31). -/
def execClockMonitorFault (die clock : Nat) (s : State) : Res := .next (s.reportOpen 0x001A die clock 0)

/-- VOLTAGE_MONITOR_FAULT (16 R410): the first nonzero status of the die's regulators is detail1. -/
def execVoltageMonitorFault (die rail : Nat) (status : List Nat) (s : State) : Res :=
  let entries := (List.range s.therm.rails.length).filter fun i =>
    match s.therm.rails[i]? with | some r => r.shared || r.die == die | none => false
  let s := if die < s.nDies then s.emits (entries.map fun i => .pmbus i 0x79 0) else s
  .next (s.reportOpen 0x001B die rail (BitVec.ofNat 32 ((status.find? (· != 0)).getD 0)))

/-- FABRIC_HOP_FAULT (01 R33). -/
def execFabricHopFault (die port : Nat) (s : State) : Res := .next (s.reportOpen 0x000F die port 0)

/-! ### Policy -/

/-- A record's action is moot (R495). -/
def State.moot (s : State) (r : FaultRecord) : Bool :=
  (s.unitGone r.cause r.die r.unit && !r.wasGone)
    || ((r.action == 1 || r.action == 6) && r.cause ≤ 5 &&
        (match r.about with
        | none => false
        | some w => !(s.seq.stripes.any fun st => st.id == w.1 && st.pass ≤ w.2)))
    || ((r.action == 1 || r.action == 13 || r.action == 10) && r.darks != s.perim.darks)
    || (r.action == 7 && s.ctl.dev == .safeDark && (r.wasDark || r.preempted))

/-- A record closes, as handled or as moot (R380, R495). -/
def State.closeRecord (s : State) (r : FaultRecord) (superseded : Bool) : State :=
  s.logRecord { r with closed := true, superseded := r.superseded || superseded }

/-- Pick the record to handle: moot records at the front close (R381). -/
def State.pickRecord : List FaultRecord → State → State
  | [], s => { s with perim.waiting := [] }
  | r :: rs, s =>
    if s.moot r then (s.closeRecord r true).pickRecord rs
    else { s with perim.waiting := rs, perim.active := some (r, 0) }

/-- The active record goes back to its place when a queued one has a higher class (R381). -/
def State.preempt (s : State) : State :=
  match s.perim.active, s.perim.waiting with
  | some (r, _), x :: _ =>
    if r.cls < x.cls || x.storm then
      let r := { r with preempted := true }
      ({ s with perim.active := none, perim.waiting := insertRecord r s.perim.waiting }).logRecord r
    else s
  | _, _ => s

/-- What a record's action does at its last step: what Perimeter's policy itself does; a block's own recovery and the hardware
reactions come at detection (R390, R392, R393). -/
def State.act (s : State) (r : FaultRecord) : State :=
  if r.injected then s
  else if r.action = 3 then
    let l := 12 * r.die + r.unit % 12
    if (s.lane l).retired then s else (s.retireLane l).checkDie r.die
  else if r.action = 4 then
    ((s.modDie r.die fun d =>
      { d with pow.sensors := d.pow.sensors.modify r.unit fun x => { x with excluded := true } }).updateReplace).checkDie r.die
  else if r.action = 11 then s.retireDie r.die
  else s

/-- One policy step of the active record. -/
def State.policyStep (s : State) : State :=
  match s.perim.active with
  | none => s
  | some (r, k) =>
    if k + 1 < actionSteps r.action then { s with perim.active := some (r, k + 1) }
    else ((({ s with perim.active := none } : State).count 0 163 1).closeRecord r false).act r

/-- The cause STORM ends with an empty queue (R384, R388). -/
def State.stormEnd (s : State) : State :=
  if s.queueDepth = 0 then { s with perim.stormActive := false } else s

/-- FAULT_POLICY_STEP (R381, R494, R495). -/
def execFaultPolicyStep (s : State) : Res :=
  .next (if !s.running then s
  else
    let s := s.preempt
    let s := if s.perim.active.isSome then s else s.pickRecord s.perim.waiting
    s.policyStep.stormEnd.updateReplace)

/-! ### Fault commands -/

/-- FAULT_READ (R397). -/
def faultReadBody (p : Packet) (c : Ctx) (s : State) : State :=
  let n := p.param 0
  if n = 0 || 64 < n then s.finish c badParam []
  else
    let rs := s.perim.log.take n
    let s := { s with perim.log := s.perim.log.drop n }
    let s := if rs.isEmpty then s else s.hostWrite (p.param64 1) (rs.flatMap FaultRecord.words)
    s.finish c ok [rs.length, s.perim.log.length]

/-- SAFE_DARK_REQ (R398). -/
def safeDarkReqBody (_ : Packet) (c : Ctx) (s : State) : State := (s.detectOpen 0x0023 0 0 0).finish c ok []

/-- DIE_RETIRE (R393, R394). -/
def dieRetireBody (p : Packet) (c : Ctx) (s : State) : State :=
  if p.target = 0 then s.finish c badParam []
  else
    let s := s.retireDie p.target
    s.finish c ok [s.columnsWord]

/-- The instances of a diagnostic on a die (R496). -/
def injectInstance (dies : Nat) (id inst die : Nat) : Bool :=
  match id with
  | 4 => inst < 2
  | 5 => inst < 12
  | 6 => die == 0 && inst < 2
  | 7 => die == 0 && inst < 12
  | 11 => inst < 10 || (inst == 10 && die == 0)
  | 12 => inst < 8 && (inst != 4 || die == 0)
  | 15 => inst < (if dies = 8 then 3 else if dies = 4 then 2 else 1)
  | 16 => inst < 12
  | _ => id ≤ 16 && inst == 0

/-- The cause a diagnostic detects (Table 15-3, Table 15-6); none for the gate test and the load check. -/
def injectCause (id inst : Nat) : Option Nat :=
  match id with
  | 1 => some 0x0001
  | 2 => some 0x0007
  | 3 => some 0x000A
  | 4 => some (if inst = 0 then 0x000C else 0x0005)
  | 5 => some 0x0010
  | 6 => some 0x0015
  | 7 => some 0x0016
  | 8 => some 0x0006
  | 10 => some 0x001C
  | 11 => some 0x001A
  | 12 => some 0x001B
  | 13 => some 0x001D
  | 14 => some 0x0004
  | 15 => some 0x000F
  | 16 => some 0x0020
  | _ => none

/-- The unit field of an injected record: the instance where it names a lane, source, clock, rail, port or sensor. -/
def injectUnit (id inst : Nat) : Nat := if id = 4 then 0 else inst

/-- The gate test (R399): the outside word is the longest closing time in ns, 0xFFFF_FFFF for a gate that does not close. -/
def State.gateTest (s : State) (c : Ctx) (die time : Nat) : State :=
  let s := { s with perim.gateNs := min time 0xFFFF }
  if time ≤ 200 then s.finish c ok [time]
  else (s.detectOpen 0x0025 die 0 0).finish c injectMissed [time]

/-- FAULT_INJECT (R399, R496, 06 R173); the first outside word is the gate closing time (Id 0), or not 0 where the diagnostic
does not detect what is injected. -/
def faultInjectBody (env : List Word) (p : Packet) (c : Ctx) (s : State) : State :=
  let id := p.param 0 % 256
  let inst := p.param 1 % 256
  let die := p.target
  if !injectInstance s.nDies id inst die then s.finish c badParam []
  else if id = 0 then s.gateTest c die (wordAt env 0)
  else if wordAt env 0 = 0 then
    let s := if id = 1 then s.modDie die fun d => { d with tess.injected := min 0xFFFF (d.tess.injected + 1) } else s
    let s := match injectCause id inst with
      | some cause => s.detectInjected cause die (injectUnit id inst)
      | none => s
    s.finish c ok []
  else
    let s := if id = 1 then s.modDie die fun d => { d with facetFailed := true } else s
    (s.detectOpen 0x0026 die inst 0).finish c injectMissed []

def execFaultRead (p : Packet) (s : State) : Res := s.direct 0x0800 p faultReadBody
def execSafeDarkReq (p : Packet) (s : State) : Res := s.direct 0x0801 p safeDarkReqBody
def execDieRetire (p : Packet) (s : State) : Res := s.direct 0x0802 p dieRetireBody
def execFaultInject (p : Packet) (env : List Word) (s : State) : Res := s.direct 0x0803 p (faultInjectBody env)

end Sys2Proof.Machine
end

