-- ==== Sys2Proof/Machine/Heads.lean ====
section
/-! DEFINITION. Lanes and heads: error bursts, retrains and retirement, bring-up, and the commands that wait for head answers
(10_rolgo_lanes.md R257, R267-R277, 18_boot_update.md R449-R452). -/

namespace Sys2Proof.Machine

/-! ### Error bursts, retrains, retirement (R271-R275, R390) -/

/-- A fault of a lane or its head reaches Perimeter. -/
def State.laneFault (s : State) (cause n : Nat) : State :=
  if s.running then s.detectOpen cause (n / 12) (n % 12) 0 else s

/-- The lane is in L0 with its frames (Table 10-11). -/
def Lane.inL0 (l : Lane) : Bool := !l.retired && l.state == .up && l.power == .l0

def Lane.setErr (l : Lane) (i : Nat) : Lane := { l with err := l.err ||| BitVec.ofNat 6 (2 ^ i) }

/-- A lane retires (R274): accounted, reported, and its die checked. -/
def State.retireNow (s : State) (n : Nat) : State :=
  if (s.lane n).retired then s else ((s.retireLane n).laneFault 0x0011 n).checkDie (n / 12)

/-- A retrain begins, or the lane retires in place of a fourth one within 10 s (R273, R274, R275). -/
def State.retrain (s : State) (n : Nat) : State :=
  let l := s.lane n
  if !l.inL0 then s
  else if 3 ≤ s.recentRetrains l then s.retireNow n
  else
    let t := s.now
    let s := s.modLane n fun l =>
      let l := { l with
        state := .retraining, retrains := min (l.retrains + 1) 0xFFFFFF
        retrainAt := (l.retrainAt.filter fun x => t < x + 4000000000) ++ [t]
        recs := l.recs.map Rec.lose, echoes := [], silent := false }
      { l with headWarn := l.warns }
    let s := (s.modDie (n / 12) fun d => d.dropLaneEq (n % 12)).count (n / 12) (69 + 8 * (n % 12)) 1
    if l.irqErr then s.signal 25 else s

/-- An error burst (R272): class C1, and a retrain. -/
def State.burst (s : State) (n : Nat) : State :=
  if !(s.lane n).inL0 then s else (((s.modLane n fun l => l.setErr 3).laneFault 0x0010 n).retrain n)

/-- An error event (R271); two within 64 consecutive forward frames are a burst (R272). -/
def State.errorEvent (s : State) (n : Nat) : State :=
  let l := s.lane n
  if !l.inL0 then s
  else
    let s := (s.modLane n fun l => { l with lastError := some l.fseq }).count (n / 12) (68 + 8 * (n % 12)) 1
    match l.lastError with
    | some f => if l.fseq < f + 64 then s.burst n else s
    | none => s

/-! ### Head temperature, HEAD_WARN and trip (R234, R276) -/

/-- The lane's HEAD_WARN and trip report follow what the head last said; of a retired lane, the trip while its return is read
(R274, R275). -/
def State.headEval (s : State) (n : Nat) : State :=
  let l := s.lane n
  if l.retired then
    let s := s.modLane n fun l => { l with headTrip := l.trips }
    if l.state == .draining && l.trips && !l.headTrip && s.running then s.closeGates.laneFault 0x0013 n else s
  else
    let warn := l.warns
    let trip := l.trips
    let s := s.modLane n fun l => { l with headWarn := warn, headTrip := trip }
    let s := if warn && !l.headWarn then
        let s := s.laneFault 0x0012 n
        if l.irqWarn then s.signal 25 else s
      else s
    if trip && !l.headTrip && s.running then s.closeGates.laneFault 0x0013 n else s

/-! ### Bring-up (R267, R268, R449) -/

/-- A lane is down until the next LANE_TRAIN (R268); `answers` keeps a head that R449 left down within reach. -/
def State.laneDown (s : State) (n : Nat) (answers : Bool) : State :=
  s.modLane n fun l =>
    { l.hushed with state := .down, power := .off, retLocked := false, step := 0, elems := [], hello := answers && l.hello }

/-- SPEED names the frame after the one that carries it; both ends switch there (Table 10-9 step 5). -/
def State.switchRate (s : State) (n rate step : Nat) : State :=
  (s.modLane n fun l =>
    { l.addElem 0x03 (BitVec.ofNat 32 rate) (natBytes (l.fseq + 1) 4) false with
      rate := rate, trying := rate, step := step }).signal 25

/-- The next rate's check, or START once the highest rate has passed (R267). -/
def State.nextRate (s : State) (n : Nat) : State :=
  let l := s.lane n
  let top := min l.target l.headRate
  match l.lastPass with
  | none => if top = 0 then s.modLane n fun l => { l with step := 5, trying := 0 } else s.switchRate n 1 5
  | some r => if top ≤ r then s.modLane n fun l => { l with step := 6 } else s.switchRate n (r + 1) 5

/-- Version of the head firmware entry of the running bank's manifest (18 R449). -/
def State.headVersion (s : State) : Option Word := (s.flash.banks.getD s.ctl.bank none).bind headVersionOf

/-- Step 4 has the head's HELLO: another version is asked for first (18 R449). -/
def State.helloDone (s : State) (n : Nat) : State :=
  let l := s.lane n
  match s.headVersion with
  | some v =>
    if l.headFw = v then s.nextRate n
    else if l.elems.any fun e => e.type == 0x0C then s
    else s.modLane n fun l => l.addElem 0x0C 5 (wordBytes v) true
  | none => s.nextRate n

/-- A lane's bring-up begins at step 1 (Table 10-9). -/
def Lane.beginTrain (l : Lane) (target : Nat) : Lane :=
  { l.hushed with
    state := .training, step := 1, rate := 0, trying := 0, target := target, lastPass := none, fallBack := false
    hello := false, elems := [], echoes := [], headLocked := false, retLocked := false }

/-- HELLO's argument (Table 10-4). -/
def State.helloArg (s : State) (n : Nat) : Word :=
  BitVec.ofNat 32 (n + s.ctl.deviceId * 2 ^ 10 + s.fuses.variant.number * 2 ^ 20)

/-- A lane enters L0; one on its way between L1 and L2 goes on by POWER (R270). -/
def State.enterLane (s : State) (n : Nat) : State :=
  let s := s.startLane n
  match s.hif.busy with
  | some (.lanePower _ lanes power) =>
    if lanes.contains n && power != 0 then s.modLane n fun l => l.addElem 0x06 (BitVec.ofNat 32 power) [] true else s
  | _ => s

/-- One step of bring-up is complete (Table 10-9); step 7 is the exit from L2, step 8 that from L1. -/
def State.trainStep (s : State) (n : Nat) : State :=
  let l := s.lane n
  match l.step with
  | 1 => s.modLane n fun l => { l with step := 2 }
  | 2 => s.modLane n fun l => { l with step := 3 }
  | 3 => s.modLane n fun l => { l.addElem 0x02 (s.helloArg n) [] false with step := 4, retLocked := true }
  | 4 => if l.hello then s.helloDone n else s
  | 6 | 8 => s.enterLane n
  | _ => s

/-- Table 10-10: eye width 0.30 UI and 0.40 UI of 256, height 30 mV and 40 mV. -/
def forwardEyeOk (e : Nat × Nat) : Bool := 77 ≤ e.1 && 30 ≤ e.2
def returnEyeOk (e : Nat × Nat) : Bool := 103 ≤ e.1 && 40 ≤ e.2

/-- A rate's check ends (R268), or the check of an exit from L2 (R270). -/
def State.rateChecked (s : State) (n failed : Nat) (eyeRet : Nat × Nat) : State :=
  let s := s.modLane n fun l => { l with eyeRet := eyeRet }
  let l := s.lane n
  let pass := failed == 0 && forwardEyeOk l.eye && returnEyeOk eyeRet
  if l.step = 7 then
    if pass then s.enterLane n else s.modLane n fun l => { l with step := 5, trying := l.rate, fallBack := true }
  else if l.step ≠ 5 then s
  else if pass then
    if l.fallBack then s.modLane n fun l => { l with step := 6 }
    else (s.modLane n fun l => { l with lastPass := some l.trying }).nextRate n
  else
    match l.lastPass with
    | some r => s.switchRate n r 6
    | none =>
      if l.fallBack || l.trying = 0 then s.laneDown n false
      else (s.switchRate n 0 5).modLane n fun l => { l with fallBack := true }

/-! ### Commands that wait for heads (R270, R277, 18 R451) -/

def State.liveOf (s : State) (ns : List Nat) : List Nat := ns.filter fun n => !(s.lane n).retired

/-- Queue an element with ack_req on lanes. -/
def State.sendElems (s : State) (ns : List Nat) (type : Nat) (arg : Word) (data : List Byte) : State :=
  ns.foldl (fun s n => s.modLane n fun l => l.addElem type arg data true) s

/-- Elements of the types given leave the lanes. -/
def State.dropElems (s : State) (ns types : List Nat) : State :=
  ns.foldl (fun s n => s.modLane n fun l => { l with elems := l.elems.filter fun e => !types.contains e.type }) s

/-- Lanes that have an element of a type out, unanswered. -/
def State.hasSent (s : State) (n type : Nat) (arg : Option Word) : Bool :=
  (s.lane n).elems.any fun e => e.type == type && 0 < e.tries && (match arg with | some a => e.arg == a | none => true)

def imageCrc (image : List Byte) : Word := crc32c 0xFFFFFFFF image

/-- The code doses cd[1..63] of a pulse image (08 Table 8-4). -/
def imageCodes (image : List Byte) : List Nat :=
  (List.range 63).map fun i => (image.getD (16 * (i + 1)) 0).toNat + 256 * (image.getD (16 * (i + 1) + 1) 0).toNat

/-- A waiting command fails (R277, 18 R451): heads that switched revert, heads that are armed are disarmed. -/
def State.busyFail (s : State) (status : Nat) : State :=
  match s.hif.busy with
  | some (.pulseTable c lanes _ switching done) =>
    let ls := s.liveOf lanes
    let back := if switching then ls.filter fun n => done.contains n || s.hasSent n 0x09 none else []
    let s := s.dropElems ls [0x08, 0x09]
    let s := back.foldl (fun s n => s.modLane n fun l => { l with switchUnheard := !done.contains n }) s
    ({ s.sendElems back 0x0A 0 [] with hif.busy := none }).finish c status []
  | some (.activate c lanes _ arming done) =>
    let ls := s.liveOf lanes
    let back := if arming then ls.filter fun n => done.contains n || s.hasSent n 0x0C (some 3) else []
    let s := s.dropElems ls [0x0B, 0x0C]
    (({ s.sendElems back 0x0C 4 [] with hif.busy := none }).finish c status []).signal 27
  | some (.lanePower c _ _) => ({ s with hif.busy := none }).finish c status []
  | some (.laneTrain _ _ _) => s
  | none => s

/-- The last steps of UPDATE_ACTIVATE (18 R451): the other bank is active, on trial, and a warm reset follows. -/
def State.activateDone (s : State) (c : Ctx) : State :=
  let other := 1 - s.selectorOr.active
  let s := s.writeSelector fun x => { x with active := other, trial := true, trials := 0 }
  (({ s with ctl.resetRequest := some .activation }).finish c ok []).signal 27

/-- Whether a lane still has to reach a power state or go down (R270). -/
def State.powerPends (s : State) (power n : Nat) : Bool :=
  let l := s.lane n
  !l.retired && (l.state == .training || (l.state != .down && l.power.code != power))

/-- The one-entry command in progress goes on, or ends, when its lanes are ready; retired lanes drop out (R275). -/
def State.busyCheck (s : State) : State :=
  match s.hif.busy with
  | none => s
  | some (.laneTrain c lanes target) =>
    if lanes.any fun n => (s.lane n).state == .training then s
    else
      let good := lanes.filter fun n => (s.lane n).inL0 && (s.lane n).rate == target
      ({ s with hif.busy := none }).finish c ok [good.length, lanes.length - good.length, s.maxRate]
  | some (.lanePower c lanes power) =>
    if lanes.any (s.powerPends power) then s else ({ s with hif.busy := none }).finish c ok []
  | some (.pulseTable c lanes image switching done) =>
    let ls := s.liveOf lanes
    if !ls.all done.contains then s
    else if switching || ls.isEmpty then
      let cd := imageCodes image
      let s := ls.foldl (fun s n => s.modLane n fun l => { l with codes := some cd }) s
      ({ s with hif.busy := none }).finish c ok [(imageCrc image).toNat]
    else { s.sendElems ls 0x09 (imageCrc image) [] with hif.busy := some (.pulseTable c ls image true []) }
  | some (.activate c lanes crc arming done) =>
    let ls := s.liveOf lanes
    if !ls.all done.contains then s
    else if arming || ls.isEmpty then ({ s with hif.busy := none }).activateDone c
    else { s.sendElems ls 0x0C 3 [] with hif.busy := some (.activate c ls crc true []) }

/-- A lane has done its part of the phase. -/
def State.busyDone (s : State) (n : Nat) : State :=
  match s.hif.busy with
  | some (.pulseTable c lanes image sw done) => { s with hif.busy := some (.pulseTable c lanes image sw (n :: done)) }
  | some (.activate c lanes v a done) => { s with hif.busy := some (.activate c lanes v a (n :: done)) }
  | some (.laneTrain _ _ _) => s
  | some (.lanePower _ _ _) => s
  | none => s

/-- An answer to TABLE_DATA, TABLE_SWITCH or firmware elements (R277, 18 R452): whether the head accepts, and whether this ends
the lane's part of the phase. -/
def State.headAnswer (s : State) (n : Nat) (accepts last : Bool) : State :=
  if !accepts then s.busyFail headRejected else if last then s.busyDone n else s

/-- CTRL_ACK answers an element (R257): what waited on it goes on. -/
def State.elemAnswered (s : State) (n : Nat) (e : Elem) (result : Nat) (value : Word) : State :=
  let done := result == 0
  if e.type = 0x07 then s.passAnswered n
  else if e.type = 0x06 then
    (s.modLane n fun l =>
      { l.hushed with state := .up, power := if e.arg = 1 then .l1 else .l2, retLocked := false, echoes := [] }).modDie (n / 12)
      fun d => d.dropLaneEq (n % 12)
  else if e.type = 0x0A then s.modLane n fun l => { l with switchUnheard := false }
  else if e.type = 0x0C && e.arg = 5 then
    if done then s.modLane n fun l => l.beginTrain l.target else s.laneDown n true
  else
    match s.hif.busy with
    | some (.pulseTable _ _ image sw _) =>
      if e.type = 0x08 then s.headAnswer n (done && (e.arg ≠ 992 || value == imageCrc image)) (e.arg == 992)
      else if e.type = 0x09 && sw then s.headAnswer n done true
      else s
    | some (.activate _ _ crc arming _) =>
      if e.type = 0x0B || e.arg = 1 then s.headAnswer n done false
      else if e.arg = 2 then s.headAnswer n (done && value == crc) true
      else if e.arg = 3 && arming then s.headAnswer n done true
      else s
    | some (.laneTrain _ _ _) => s
    | some (.lanePower _ _ _) => s
    | none => s

/-- An element's tries are exhausted (R257): the lane has an error burst, a command that waited on it HEAD_TIMEOUT, and a head
that answers neither switch nor revert no code dose table (R277). -/
def State.elemFailed (s : State) (n : Nat) (e : Elem) : State :=
  let s := if e.type = 0x0A && (s.lane n).switchUnheard then
      s.modLane n fun l => { l with codes := none, switchUnheard := false }
    else s
  let waits := match s.hif.busy with
    | some (.pulseTable _ lanes _ _ _) => lanes.contains n && (e.type == 0x08 || e.type == 0x09)
    | some (.activate _ lanes _ _ _) => lanes.contains n && (e.type == 0x0B || (e.type == 0x0C && e.arg.toNat < 4))
    | some (.lanePower _ lanes _) => lanes.contains n && e.type == 0x06
    | some (.laneTrain _ _ _) => false
    | none => false
  let s := if waits then s.busyFail headTimeout else s
  s.burst n

end Sys2Proof.Machine
end

