-- ==== Sys2Proof/Machine/Lanes.lean ====
section
/-! DEFINITION. The rows of the Rolgo lanes: lane commands, the lane window's actions, forward and return frames, bring-up and
retrain events (10_rolgo_lanes.md). -/

namespace Sys2Proof.Machine

/-! ### Commands (Table 2-6) -/

/-- Lanes a lane command names. -/
def State.laneTargets (s : State) (p : Packet) : List Nat :=
  if p.isDev then (s.lanes.filter fun l => !l.retired && s.dieLive (l.id / 12)).map (·.id) else [p.target]

/-- LANE_TRAIN (R267): the targeted lanes train in parallel; the entry comes when the last of them is up or down. -/
def laneTrainBody (p : Packet) (c : Ctx) (s : State) : State :=
  let target := p.param 0 % 16
  if 3 < target then s.finish c badParam []
  else
    let ls := s.laneTargets p
    let s := ls.foldl (fun s n => s.modLane n fun l => l.beginTrain target) s
    ({ s with hif.busy := some (.laneTrain c ls target) }).busyCheck

/-- One lane's part of LANE_POWER (R270, Table 10-11): from L1 or L2 it goes by way of L0. -/
def State.lanePowerTo (s : State) (want n : Nat) : State :=
  let s := s.modLane n fun l => { l with thermalL1 := false }
  let l := s.lane n
  if l.power.code = want then s
  else
    let s := if l.power = .l2 then
        s.modLane n fun l => { l with state := .training, step := 7, trying := l.rate, target := l.rate, lastPass := none }
      else if l.power = .l1 then s.modLane n Lane.leaveL1
      else s.modLane n fun l => l.addElem 0x06 (BitVec.ofNat 32 want) [] true
    s

/-- LANE_POWER (R270). -/
def lanePowerBody (p : Packet) (c : Ctx) (s : State) : State :=
  let want := p.param 0 % 4
  let ready := fun n => (s.lane n).state != .down && (s.lane n).state != .training
  let ls := s.laneTargets p
  if want = 3 then s.finish c badParam []
  else if !p.isDev && !ls.all ready then s.finish c laneNotReady []
  else
    let ls := ls.filter ready
    let s := ls.foldl (fun s n => s.lanePowerTo want n) s
    ({ s with hif.busy := some (.lanePower c ls want) }).busyCheck

/-- LANE_RETIRE (R274). -/
def laneRetireBody (p : Packet) (c : Ctx) (s : State) : State :=
  let s := (s.retireNow p.target).checkReserve
  s.finish c ok [s.ctl.epoch, s.maxRate]

/-- LANE_STATUS (Table 2-6). -/
def laneStatusBody (p : Packet) (c : Ctx) (s : State) : State :=
  let l := s.lane p.target
  s.finish c ok [l.statWord, s.recentRetrains l, l.eye.1, l.eye.2, l.groups]

/-- HEAD_QUERY (Table 2-6). -/
def headQueryBody (p : Packet) (c : Ctx) (s : State) : State :=
  let l := s.lane p.target
  s.finish c ok [s.headTempWord l, l.header.toNat, l.headFw.toNat]

/-- Lowest failing byte of the sub-pulses of an entry at byte b, from sub-pulse k on, the pulses before ending at `stop`
(08 R208 step 1). -/
def subPulseFail (image : List Byte) (b count : Nat) : Nat → Nat → Nat → Option Nat
  | 0, _, _ => none
  | fuel + 1, k, stop =>
    let start := (image.getD (b + 4 + 2 * k) 0).toNat
    let width := (image.getD (b + 5 + 2 * k) 0).toNat
    if count ≤ k then
      if start ≠ 0 then some (b + 4 + 2 * k)
      else if width ≠ 0 then some (b + 5 + 2 * k)
      else subPulseFail image b count fuel (k + 1) stop
    else if 63 < start || start < stop then some (b + 4 + 2 * k)
    else if width = 0 || 64 < start + width then some (b + 5 + 2 * k)
    else subPulseFail image b count fuel (k + 1) (start + width)

/-- First nonzero byte of a range. -/
def nonzeroByte (image : List Byte) (lo hi : Nat) : Option Nat :=
  ((List.range (hi - lo)).map (lo + ·)).find? fun i => image.getD i 0 != 0

/-- Lowest failing byte of entry q (08 Table 8-4). -/
def pulseEntryFail (image : List Byte) (q : Nat) : Option Nat :=
  let b := 16 * q
  let count := (image.getD (b + 2) 0).toNat
  if count = 0 || 4 < count then some (b + 2)
  else
    match nonzeroByte image (b + 3) (b + 4) with
    | some i => some i
    | none =>
      match subPulseFail image b count 4 0 0 with
      | some i => some i
      | none => nonzeroByte image (b + 12) (b + 16)

/-- Step 1 of 08 R208: the failing byte offset, 0xFFFF_FFFF for the length (07 R177). -/
def pulseLayoutFail (len : Nat) (image : List Byte) : Option Nat :=
  if len ≠ 1024 then some 0xFFFFFFFF
  else if (bytesWords (image.take 4)) ≠ [0x0110#32] then some 0
  else
    match nonzeroByte image 4 16 with
    | some i => some i
    | none => ((List.range 63).filterMap fun q => pulseEntryFail image (q + 1)).head?

/-- Step 2 of 08 R208. -/
def codesRise : List Nat → Bool
  | a :: b :: rest => decide (a < b) && codesRise (b :: rest)
  | _ => true

/-- PULSE_TABLE_LOAD (08 R208, R277); the outside words are the image. -/
def pulseTableLoadBody (env : List Word) (p : Packet) (c : Ctx) (s : State) : State :=
  let len := p.param 2
  let image := (wordsBytes env ++ List.replicate 1024 0).take 1024
  let s := if len = 1024 then s.hostRead 1024 else s
  match pulseLayoutFail len image with
  | some off => s.finish c tableFormat [off]
  | none =>
    let cd := imageCodes image
    if cd.headD 0 = 0 || !codesRise cd then s.finish c codeTableOrder []
    else
      let ls := s.laneTargets p
      if !ls.all fun n => (s.lane n).inL0 then s.finish c laneNotReady []
      else
        let s := (List.range 32).foldl (fun s k =>
          s.sendElems ls 0x08 (BitVec.ofNat 32 (32 * k)) ((image.drop (32 * k)).take 32)) s
        ({ s with hif.busy := some (.pulseTable c ls image false []) }).busyCheck

def execLaneTrain (p : Packet) (s : State) : Res := s.direct 0x0600 p laneTrainBody
def execLanePower (p : Packet) (s : State) : Res := s.direct 0x0601 p lanePowerBody
def execLaneRetire (p : Packet) (s : State) : Res := s.direct 0x0602 p laneRetireBody
def execLaneStatus (p : Packet) (s : State) : Res := s.direct 0x0603 p laneStatusBody
def execHeadQuery (p : Packet) (s : State) : Res := s.direct 0x0604 p headQueryBody
def execPulseTableLoad (p : Packet) (env : List Word) (s : State) : Res := s.direct 0x0605 p (pulseTableLoadBody env)

/-! ### The lane window's actions (02 R69, R70, LANE_CTRL) -/

/-- LANE_SEL_WRITE (02 R69): wr_ignored clears where 1 is written. -/
def State.selectLane (s : State) (v : Word) : State :=
  { s with ctl.laneSel := v.toNat % 128, ctl.laneWrIgnored := s.ctl.laneWrIgnored && !v.getLsbD 18 }

def execLaneSelWrite (value : Word) (s : State) : Res := .next (if s.hifOn then s.selectLane value else s)

/-- A write to the window of the selected lane: ignored where the lane is absent, and, set in wr_ignored, where it is retired
(02 R70). -/
def State.windowWrite (s : State) (f : Nat → State → State) : State :=
  let n := s.ctl.laneSel
  if !s.hifOn || s.nLanes ≤ n then s
  else if (s.lane n).retired then { s with ctl.laneWrIgnored := true }
  else f n s

/-- LANE_RETRAIN_REQUEST (R273). -/
def execLaneRetrainRequest (s : State) : Res := .next ((s.windowWrite fun n s => s.retrain n).busyCheck)

/-- LANE_ERROR_INJECT. -/
def execLaneErrorInject (s : State) : Res :=
  .next (s.windowWrite fun n s => s.modLane n fun l => { l with errInject := true })

/-! ### Frames -/

/-- The lane sends and receives frames: L0, training, a retrain, a drain, or a head kept within reach (18 R449). -/
def State.framesOn (s : State) (n : Nat) : Bool :=
  let l := s.lane n
  n < s.nLanes && s.domOn (n / 12) 6 && (l.inL0 || l.trains || l.state == .draining)

/-- FORWARD_FRAME_TX (R253): `control` is the device's choice at a position where it has one. -/
def execForwardFrameTx (lane : Nat) (control : Bool) (s : State) : Res :=
  .next (if s.framesOn lane then s.sendFrame lane control else s)

/-- The echo of the oldest frame awaited (R259). -/
def State.echoIn (s : State) (n : Nat) (good : Bool) : State :=
  match (s.lane n).echoes with
  | [] => s
  | (f, _) :: rest =>
    let before := ((s.lane n).recs.filter Rec.confirmed).length
    let s := s.modLane n fun l =>
      { l with
        echoes := rest
        recs := l.recs.map fun r => if r.frames.contains f then
          { r with frames := r.frames.filter (· != f), bad := r.bad || !good } else r }
    let s := s.count (n / 12) (67 + 8 * (n % 12)) (((s.lane n).recs.filter Rec.confirmed).length - before)
    if good then s
    else (s.modLane n fun l => { l with echoErr := satInc l.echoErr }).errorEvent n

/-- An acknowledgement element (R260, Table 10-6): the oldest record it names is placed, or rejected. -/
def ackRecs (v : Nat) : List Rec → List Rec
  | [] => []
  | r :: rs =>
    if r.sent == 194 && !r.placed && !r.rejected && r.group % 1024 == bits v 9 0 && r.shot % 8 == bits v 23 21
        && r.epoch % 2 == bits v 20 20 then
      (if bits v 19 18 = 0 then { r with placed := true } else { r with rejected := true, bad := true }) :: rs
    else r :: ackRecs v rs

def State.ackIn (s : State) (n v : Nat) : State :=
  let before := ((s.lane n).recs.filter Rec.confirmed).length
  let s := s.modLane n fun l => { l with recs := ackRecs v l.recs }
  s.count (n / 12) (67 + 8 * (n % 12)) (((s.lane n).recs.filter Rec.confirmed).length - before)

/-- Group-shots of a lane's shot are ledgered as the head or the device reports them (R243); an entry of a stripe that has
ended closes at once. -/
def State.reportDark (s : State) (n cause : Nat) (rs : List Rec) : State :=
  match rs with
  | [] => s
  | r :: _ =>
    match s.stripe? r.stripe with
    | none => s
    | some st =>
      let s := s.darkRecs st cause rs (some n)
      if s.seq.stripes.any fun x => x.id == st.id then s else s.flushStripe st.id

/-- One mask of a FIRED element: the committed records of a shot that the head did not fire (R264). -/
def State.firedMask (s : State) (n shot par mask : Nat) : State :=
  let hit := fun (r : Rec) => r.committed && r.shot % 65536 == shot && r.epoch % 2 == par && bit mask (r.group % 16)
  let new := (s.lane n).recs.filter fun r => hit r && !r.dark
  let s := s.modLane n fun l =>
    { l with recs := l.recs.map fun r => if hit r then { r with dark := true } else r, headDark := satAdd l.headDark new.length }
  (s.count (n / 12) (70 + 8 * (n % 12)) new.length).reportDark n 0x05 new

/-- FIRED (R264, R265): four masks, and the strobe count compared with Locus's. -/
def State.firedIn (s : State) (n v : Nat) : State :=
  let shot := bits v 91 76
  let at_ := fun k => (shot + 65536 - 2 * k) % 65536
  let s := (List.range 4).foldl (fun s k =>
    s.firedMask n (at_ k) (bits v (75 - k) (75 - k)) (bits v (71 - 16 * k) (56 - 16 * k))) s
  let s := s.modLane n fun l => { l with fired := (((List.range 4).map at_) ++ l.fired).dedup.take 16 }
  match s.seq.latch with
  | some (_, _, k) => if 0 < k && (k - 1) % 65536 ≠ shot then s.laneFault 0x0015 n else s
  | none => s

/-- TEMP (R276). -/
def State.tempIn (s : State) (n v : Nat) : State :=
  let new := (List.range 4).filterMap fun i =>
    let e := bits v (22 * i + 21) (22 * i)
    if e / 65536 = 0x3F then none else some (e / 65536, signed 16 e)
  let t := s.now
  let s := s.modLane n fun l =>
    let temps := new.foldl (fun ts e => ts.filter (fun x => x.1 != e.1) ++ [e]) l.temps
    { l with temps := temps, temp := (temps.map (·.2)).foldl max ((temps.map (·.2)).headD 0), tempAt := some t, silent := false }
  s.headEval n

/-- A beam's overlay entry after a report (08 R206, 15 R391): 0 release, 1 weak, 2 dead, 3 quarantined. -/
def overlayNext (cur status : Nat) : Nat :=
  if cur = 2 then 2
  else if status = 0 then (if cur = 3 then 0 else cur)
  else if status = 1 then (if cur = 3 then 3 else 1)
  else status

/-- A beam that a report makes unusable is lost to every admitted stripe whose snapshot has it usable (08 R214). -/
def State.loseBeam (s : State) (b : Nat) : State :=
  let next := s.latticeNext
  { s with seq.stripes := s.seq.stripes.map fun st =>
      if usableStatus (beamAt st.snapshot b).1 && !(st.lostBeams.any fun x => x.1 == b) then
        let begun := match s.seq.stripes with | x :: _ => x.id == st.id && s.locus.gen.isSome | [] => false
        { st with lostBeams := st.lostBeams ++ [(b, if begun then next else 0, st.pass)] }
      else st }

/-- Whether the loss of a beam concerns a pass of an admitted stripe (08 R214). -/
def Stripe.usesBeam (st : Stripe) (b : Nat) : Bool :=
  st.root.hasColumn (8 * (b / 512)) && usableStatus (beamAt st.snapshot b).1
    && (List.range st.passes.length).any fun p => st.pass ≤ p && (st.select p).getLsbD (b % 512 / 8)

/-- BEAM (08 R206, R214, 15 R391). -/
def State.beamIn (s : State) (n v : Nat) : State :=
  let new := (List.range 4).filterMap fun i =>
    let e := bits v (22 * i + 21) (22 * i)
    if bit e 21 && e % 2 ^ 18 < 32768 * s.nDies then some (e % 2 ^ 18, bits e 20 19) else none
  if new.isEmpty then s
  else
    let s := new.foldl (fun s e =>
      let b := e.1
      let cur := sparseGet 0 s.seq.overlay b
      let nxt := overlayNext cur e.2
      let s := { s with seq.overlay := sparseSet 0 s.seq.overlay b nxt }
      if 2 ≤ e.2 then
        let hits := usableStatus cur && s.seq.stripes.any fun st => st.executing && st.usesBeam b
        let s := if hits then s.modDie (b / 32768) fun d => { d with lat.beamLost := satInc d.lat.beamLost } else s
        (s.loseBeam b).laneFault 0x0014 n
      else s) s
    s.updateUncomp

/-- HELLO (Table 10-7). -/
def Lane.helloIn (l : Lane) (v : Nat) : Lane :=
  { l with
    hello := l.hello || l.state == .training, headRate := min 3 (bits v 91 88), headBuf := bits v 87 80
    headFw := BitVec.ofNat 32 (bits v 79 48), headSerial := BitVec.ofNat 32 (bits v 47 16) }

/-- A figure below Table 10-10 in L0 sets eye_low (R269). -/
def State.eyeLow (s : State) (n : Nat) (low : Bool) : State :=
  let l := s.lane n
  if l.inL0 && low && !l.err.getLsbD 5 then
    let s := s.modLane n fun l => l.setErr 5
    if l.irqWarn then s.signal 25 else s
  else s

/-- EYE: the forward figures, from the head (R269). -/
def State.eyeIn (s : State) (n v : Nat) : State :=
  let eye := (bits v 91 84, bits v 83 74)
  (s.modLane n fun l => { l with eye := eye }).eyeLow n (!forwardEyeOk eye)

/-- The return figures, as the device's receiver measures them (R269). -/
def State.returnEye (s : State) (n : Nat) (eye : Option (Nat × Nat)) : State :=
  match eye with
  | none => s
  | some e => (s.modLane n fun l => { l with eyeRet := e }).eyeLow n (!returnEyeOk e)

/-- FFE_REQ (R269): in force at once, with FFE_SET, during training; the item's measurement afterwards (17 Table 17-1). -/
def State.ffeIn (s : State) (n v : Nat) : State :=
  let k := n % 12
  let req := [signed 8 (bits v 91 84), signed 8 (bits v 83 76), signed 8 (bits v 75 68)]
  let put := fun (vs : List (List Int)) => vs.modify 0 fun l => (List.range 3).foldl (fun l i => l.set (3 * k + i) (req.getD i 0)) l
  let s := s.modDie (n / 12) fun d => { d with cal.measured := put d.cal.measured }
  if (s.lane n).inL0 then s
  else
    let s := s.modDie (n / 12) fun d => { d with cal.values := put d.cal.values }
    s.modLane n fun l => l.addElem 0x0D ((s.die (n / 12)).cal.ffeWord k) [] false

/-- CTRL_ACK (R257). -/
def State.ctrlAckIn (s : State) (n v : Nat) : State :=
  match (s.lane n).elems.find? fun e => e.ackReq && 0 < e.tries && e.seq == bits v 91 76 with
  | none => s
  | some e =>
    (s.modLane n fun l => { l with elems := l.elems.erase e }).elemAnswered n e (bits v 75 72)
      (BitVec.ofNat 32 (bits v 71 40))

/-- The report element (Table 10-7); a type not listed is ignored. -/
def State.reportIn (s : State) (n v : Nat) : State :=
  match bits v 95 92 with
  | 0x1 => s.firedIn n v
  | 0x2 => s.tempIn n v
  | 0x3 => s.beamIn n v
  | 0x4 => s.ctrlAckIn n v
  | 0x5 => s.modLane n fun l => l.helloIn v
  | 0x6 => s.eyeIn n v
  | 0x7 => s.ffeIn n v
  | _ => s

/-- The header of a good return frame (Table 10-5): trip, warn, locked, strobe_fault, table_ok. -/
def State.headerIn (s : State) (n h : Nat) : State :=
  let was := (s.lane n).strobeFault
  let s := s.modLane n fun l =>
    { l with header := BitVec.ofNat 24 h, headLocked := bit h 17, strobeFault := bit h 16, tableOk := bit h 15 }
  let s := s.headEval n
  if bit h 16 && !was then s.laneFault 0x0015 n else s

/-- A good return frame acts (R258-R260, R272). -/
def State.returnGood (s : State) (n v : Nat) : State :=
  let h := bits v 23 0
  let s := s.headerIn n h
  let s := (List.range (min 2 (bits h 23 22))).foldl (fun s i =>
    match (s.lane n).echoes with
    | [] => s
    | (_, crc) :: _ =>
      let good := crc.toNat == bits v (127 + 32 * i) (96 + 32 * i)
      let s := if good then s else s.modLane n fun l => l.setErr 0
      s.echoIn n good) s
  let s := (List.range (bits h 21 20)).foldl (fun s i => s.ackIn n (bits v (47 + 24 * i) (24 + 24 * i))) s
  let s := s.reportIn n (bits v 255 160)
  if bit h 17 then s else s.burst n

/-- The CRC of a return frame's 256 bits (R258). -/
def Lane.returnCrc (l : Lane) (v : Nat) : Word := crc32c (l.seed 0x7FFFFFFF l.rseq) (natBytes v 32)

/-- Return lock is lost (R272): line bits that break off. -/
def State.lockLost (s : State) (n : Nat) : State := (s.modLane n fun l => { l with retLocked := false }).burst n

/-- RETURN_FRAME_RX (R252, R258): line bits as they arrive, and the return figures where the receiver has new ones. A frame whose
320 bits break off is lost lock (no rule says how the loss shows: DESIGN CHOICE, notes/assumptions/50.md). -/
def execReturnFrameRx (lane : Nat) (bits_ : List Bool) (eye : Option (Nat × Nat)) (s : State) : Res :=
  .next (if !s.framesOn lane then s
  else
    let s := s.returnEye lane eye
    let l := s.lane lane
    let rx := receiveBits l.rx 288 (bits_.take 320)
    let v := bitsNat rx.got.reverse
    let good := !rx.bad && rx.got.length == 288 && bits v 287 256 == (l.returnCrc (v % 2 ^ 256)).toNat
    let s := s.modLane lane fun l => { l with rx := rx.line, rseq := (l.rseq + 1) % 2 ^ 32 }
    let s := if good then s.returnGood lane v
      else (s.modLane lane fun l => { l.setErr 2 with retCrcErr := satInc l.retCrcErr }).errorEvent lane
    (if bits_.length < 320 then s.lockLost lane else s).busyCheck.checkReserve)

/-- RETURN_FRAME_MISSING (R271). -/
def execReturnFrameMissing (lane : Nat) (s : State) : Res :=
  .next (if !s.framesOn lane then s
  else ((s.modLane lane fun l => { l with rseq := (l.rseq + 1) % 2 ^ 32 }).errorEvent lane).busyCheck)

/-- ECHO_TIMEOUT (R259). -/
def execEchoTimeout (lane : Nat) (s : State) : Res :=
  .next (if !s.framesOn lane || (s.lane lane).echoes.isEmpty then s
  else ((s.modLane lane fun l => l.setErr 1).echoIn lane false).busyCheck)

/-- The time for a report of a shot is over: crossing n + 8 has come, or the pass has ended, after which no crossing comes and the
wait for the last 8 shots is over (DESIGN CHOICE, notes/assumptions/49.md). -/
def State.reportDue (s : State) (shot crossed : Nat) : Bool :=
  decide (shot < crossed) && (decide (shot + 8 < crossed) || s.locus.gen.isNone)

/-- FIRED_REPORT_MISSING (R243): no report of a shot by crossing n + 8: a lane in L0 retrains, and the echoed group-shots of the shot
are REPORT_LOST whatever the lane does by then. -/
def execFiredReportMissing (lane : Nat) (shot : Nat) (s : State) : Res :=
  .next (match s.seq.latch with
  | none => s
  | some (id, pass, k) =>
    let l := s.lane lane
    if s.nLanes ≤ lane || !s.reportDue shot k || l.fired.contains (shot % 65536) then s
    else
      let rs := l.recs.filter fun r => r.stripe == id && r.pass == pass && r.shot == shot && r.echoed
      let s := s.modLane lane fun l =>
        { (if l.inL0 then l.setErr 4 else l) with fired := (shot % 65536 :: l.fired).take 16 }
      (((s.burst lane).reportDark lane 0x06 rs).busyCheck).checkReserve)

/-! ### Control elements, temperature, bring-up and retrains -/

/-- The element whose 50 us are over: of those out and unanswered, the one sent least often, the oldest of these. -/
def Lane.dueElem (l : Lane) : Option Elem :=
  (l.elems.filter fun e => e.ackReq && !e.due && 0 < e.tries).foldl (fun best e => match best with
    | none => some e
    | some b => if e.tries < b.tries then some e else some b) none

/-- CONTROL_ELEMENT_RESEND (R257): up to 8 times again, then the tries are exhausted. -/
def execControlElementResend (lane : Nat) (s : State) : Res :=
  .next (if !s.framesOn lane then s
  else
    match (s.lane lane).dueElem with
    | none => s
    | some e =>
      if e.tries < 9 then
        s.modLane lane fun l => { l with elems := l.elems.map fun x => if x = e then { x with due := true } else x }
      else ((s.elemFailed lane e).modLane lane fun l => { l with elems := l.elems.erase e }).busyCheck)

/-- TEMP_REPORT_TIMEOUT (R276). -/
def execTempReportTimeout (lane : Nat) (s : State) : Res :=
  .next (if !s.framesOn lane || !(s.lane lane).inL0 then s
  else (s.modLane lane fun l => { l with silent := true }).headEval lane)

/-- LANE_TRAIN_STEP_DONE (R267, R270, 18 R449). -/
def execLaneTrainStepDone (lane : Nat) (s : State) : Res :=
  .next (if !s.framesOn lane || (s.lane lane).state != .training then s else ((s.trainStep lane).headEval lane).busyCheck)

/-- RATE_CHECK_DONE (R268): frames that failed their CRC in the check, and the return figures measured. -/
def execRateCheckDone (lane : Nat) (failed : Nat) (eyeRet : Nat × Nat) (s : State) : Res :=
  .next (if !s.framesOn lane || (s.lane lane).state != .training then s
  else ((s.rateChecked lane failed eyeRet).headEval lane).busyCheck)

/-- LANE_TRAIN_TIMEOUT (R268): steps 1 to 4 have not completed; a lane that fails its exit from L1 retrains (16 R417). -/
def execLaneTrainTimeout (lane : Nat) (s : State) : Res :=
  .next (if !s.framesOn lane || (s.lane lane).state != .training then s
  else if (s.lane lane).step = 8 then
    ((s.modLane lane fun l => { l with state := .up, power := .l0, step := 0 }).retrain lane).busyCheck
  else if 4 < (s.lane lane).step then s
  else (s.laneDown lane false).busyCheck)

/-- PASS_START goes out again after a retrain where its answer is still awaited (R266). -/
def State.passStartAgain (s : State) (n : Nat) : State :=
  match s.seq.stripes with
  | [] => s
  | st :: _ =>
    let waits := match st.passStart with | some ls => ls.contains n | none => false
    if waits && !((s.lane n).elems.any fun e => e.type == 0x07) then
      s.modLane n fun l => l.addElem 0x07 (BitVec.ofNat 32 st.id) [BitVec.ofNat 8 st.pass] true
    else s

/-- RETRAIN_COMPLETE (R273). -/
def execRetrainComplete (lane : Nat) (s : State) : Res :=
  .next (if !s.framesOn lane || (s.lane lane).state != .retraining then s
  else (((s.startLane lane).headEval lane).passStartAgain lane).busyCheck)

/-- RETRAIN_BOUND_EXPIRY (R274): twice the bound has passed. -/
def execRetrainBoundExpiry (lane : Nat) (s : State) : Res :=
  .next (if !s.framesOn lane || (s.lane lane).state != .retraining then s
  else (s.retireNow lane).busyCheck.checkReserve)

/-- LANE_DRAIN_END (R274): at crossing n_s + 7 the retired lane is powered off. -/
def execLaneDrainEnd (lane : Nat) (s : State) : Res :=
  let l := s.lane lane
  let past := match s.locus.gen with | none => true | some g => decide (l.drainShot + 7 < g.next)
  .next (if s.nLanes ≤ lane || l.state != .draining || !past then s
  else s.modLane lane fun l => { l with state := .retired, power := .off, retLocked := false, recs := [], echoes := [] })

end Sys2Proof.Machine
end

