-- ==== Sys2Proof/Machine/Update.lean ====
section
/-! DEFINITION. Firmware update: staging, activation, confirmation and fall-back (18_boot_update.md R449-R457). -/

namespace Sys2Proof.Machine

def State.inactiveBank (s : State) : Nat := 1 - s.selectorOr.active

/-- A staging or an activation is in progress (R450). -/
def State.updating (s : State) : Bool :=
  s.flash.staging.isSome || (match s.hif.busy with | some (.activate _ _ _ _ _) => true | _ => false)

/-- UPDATE_STAGE (R450): the inactive bank and its calibration slots are no longer valid. -/
def updateStageBody (p : Packet) (c : Ctx) (s : State) : State :=
  let len := p.param 2
  if len = 0 || len % 4096 ≠ 0 || bankSize < len then s.finish c badParam []
  else if s.updating then s.finish c updateState [1]
  else if s.onTrial then s.finish c updateState [2]
  else
    let b := s.inactiveBank
    let s := s.writeSelector fun x => x.setValid b false
    let s := { s with
      flash.banks := s.flash.banks.set b none
      flash.cal := (s.flash.cal.set (2 * b) none).set (2 * b + 1) none
      flash.busy := 1, flash.blocks := 0, flash.staging := some (c, len / 4) }
    (s.hostRead len).interim c ok []

/-- The first block of a staged content that does not pass its CRC, of all its blocks (R450 step 3). -/
def stagedBad (base : Nat) (ws : List Word) : Option Nat := (List.range (ws.length / 1024)).find? fun k => !blockPasses base ws k

/-- UPDATE_STAGE_COMPLETE (R450): the flash block whose erasure, programming or reading back failed, if any, and what was
programmed; UPD_BLOCKS counts the blocks staged. -/
def execUpdateStageComplete (flashFail : Option Nat) (image : BankImage) (s : State) : Res :=
  .next (match s.flash.staging with
  | none => s
  | some (c, n) =>
    let b := s.inactiveBank
    let x := { image with content := image.content.take n ++ List.replicate (n - image.content.length) 0 }
    let s := { s with flash.busy := 0, flash.staging := none, flash.blocks := n / 1024 }
    let s := match flashFail with
      | some k => { s with flash.blocks := min k (n / 1024) }.final c updateFlash []
      | none =>
        match stagedBad (bankBase b) x.content with
        | some k => { s with flash.blocks := k }.final c updateCheck [bankBase b + 4096 * k]
        | none =>
          match s.imageStatus b x with
          | some (st, res) => s.final c st res
          | none =>
            let s := s.writeSelector fun y => (y.setValid b true).setVersion b (bankVersion x)
            ({ s with flash.banks := s.flash.banks.set b (some x) }).final c ok [n / 1024]
    s.signal 27)

/-- Queue the firmware elements of an image on lanes (R452). -/
def State.sendFirmware (s : State) (ns : List Nat) (image : List Byte) (version : Word) : State :=
  let s := s.sendElems ns 0x0C 1 (wordBytes (BitVec.ofNat 32 image.length) ++ wordBytes version)
  let s := (List.range (ceilDiv image.length 32)).foldl (fun s k =>
    s.sendElems ns 0x0B (BitVec.ofNat 32 (32 * k)) ((image.drop (32 * k)).take 32)) s
  s.sendElems ns 0x0C 2 []

/-- UPDATE_ACTIVATE (R451). -/
def updateActivateBody (_ : Packet) (c : Ctx) (s : State) : State :=
  let b := s.inactiveBank
  if !s.selectorOr.valid b then s.finish c updateState [3]
  else
    match s.flash.banks.getD b none with
    | none => s.finish c updateCheck [0]
    | some x =>
      let s := { s with flash.blocks := (checkedBlocks x).length }
      match s.imageStatus b x with
      | some (st, res) => s.finish c st res
      | none =>
        let image := headImage x
        let ls := match headVersionOf x with
          | none => []
          | some v => (s.lanes.filter fun l => !l.retired && s.dieLive (l.id / 12) && l.headFw != v).map (·.id)
        if !ls.all fun n => (s.lane n).inL0 || ((s.lane n).state == .down && (s.lane n).hello) then
          s.finish c laneNotReady []
        else
          let s := s.sendFirmware ls image ((headVersionOf x).getD 0)
          ({ s with hif.busy := some (.activate c ls (imageCrc image) false []) }).busyCheck

/-- UPDATE_CONFIRM (R455). -/
def updateConfirmBody (_ : Packet) (c : Ctx) (s : State) : State :=
  if !s.onTrial then s.finish c ok []
  else
    let sec := (((s.flash.banks.getD s.selectorOr.active none).map bankSecurity).getD 0)
    let s := s.writeSelector fun x => { x with trial := false, trials := 0 }
    let s := { s with fuses.minSecurity := max s.fuses.minSecurity sec }
    let ls := (s.lanes.filter fun l => l.inL0 || l.state == .retraining).map (·.id)
    (s.sendElems ls 0x0C 6 []).finish c ok []

/-- UPDATE_FALLBACK (R456). -/
def updateFallbackBody (_ : Packet) (c : Ctx) (s : State) : State :=
  if !s.onTrial then s.finish c updateState [4]
  else
    let act := s.selectorOr.active
    let s := s.writeSelector fun x => ({ x with active := 1 - act, trial := false, trials := 0 }).setValid act false
    { s.finish c ok [] with ctl.resetRequest := some .fallBack }

def execUpdateStage (p : Packet) (s : State) : Res := s.direct 0x0900 p updateStageBody
def execUpdateActivate (p : Packet) (s : State) : Res := s.direct 0x0901 p updateActivateBody
def execUpdateConfirm (p : Packet) (s : State) : Res := s.direct 0x0902 p updateConfirmBody
def execUpdateFallback (p : Packet) (s : State) : Res := s.direct 0x0903 p updateFallbackBody

end Sys2Proof.Machine
end

