-- ==== Sys2Proof/Machine/RegRead.lean ====
section
/-! DEFINITION. The BAR0 register map as reads see it (19_register_map.md R458-R470): every register of every block, by address;
and BAR2 (17 R437). Reading changes nothing, but for the latches of R461, which are commands of their own. -/

namespace Sys2Proof.Machine

/-! ### Device-global registers (19 Table 19-2) -/

def hi64 (v : Nat) : Nat := v / 2 ^ 32 % 2 ^ 32
def lo64 (v : Nat) : Nat := v % 2 ^ 32

def DevState.bits4 (d : DevState) : Nat := d.code % 16

/-- Registers of 0x000_0000-0x000_02FF. -/
def State.ctlReg (s : State) (a : Nat) : Option Nat :=
  let c := s.ctl
  let n := s.nDies
  if a = 0x000 then some ((0xD600 + n) * 65536 + s.fuses.stepping % 256 * 256 + n % 16 * 16 + n % 16)
  else if a = 0x004 then some c.fw.toNat
  else if a = 0x008 then some (lo64 s.fuses.serial.toNat)
  else if a = 0x00C then some (hi64 s.fuses.serial.toNat)
  else if a = 0x010 then some (c.deviceId % 1024)
  else if a = 0x014 then some (b2n s.fuses.keySet * 65536 + s.fuses.minSecurity % 65536)
  else if a = 0x018 then some (lo64 s.fuses.mac.toNat)
  else if a = 0x01C then some (hi64 s.fuses.mac.toNat)
  else if a = 0x020 then
    some (c.epoch % 256 * 2 ^ 24 + s.dieMask % 256 * 2 ^ 16 + b2n s.perim.replace * 512 + b2n (s.causes != 0) * 256 + c.dev.bits4)
  else if a = 0x024 then some c.epoch
  else if a = 0x030 then some c.err.toNat
  else if a = 0x040 then some c.scratch.toNat
  else if a = 0x100 then
    some (b2n c.laneWrIgnored * 2 ^ 18 + b2n (s.nLanes ≤ c.laneSel) * 2 ^ 17
      + b2n (c.laneSel < s.nLanes && (s.lane c.laneSel).retired) * 2 ^ 16 + c.laneSel % 128)
  else if a = 0x200 then some c.irqStat.toNat
  else none

/-- Host interface registers (02 Table 2-9). -/
def State.hifReg (s : State) (a : Nat) : Option Nat :=
  let h := s.hif
  if a = 0x00 then some (h.ncmd.tail % 2 ^ 13)
  else if a = 0x04 then some (h.ucmd.tail % 2 ^ 13)
  else if a = 0x08 then some (h.stat.head % 2 ^ 13)
  else if a = 0x40 then some (lo64 h.ncmd.base.toNat)
  else if a = 0x44 then some (hi64 h.ncmd.base.toNat)
  else if a = 0x48 then some (h.ncmd.log2 % 16)
  else if a = 0x4C then some (h.ncmd.head % 2 ^ 13)
  else if a = 0x50 then some (lo64 h.ucmd.base.toNat)
  else if a = 0x54 then some (hi64 h.ucmd.base.toNat)
  else if a = 0x58 then some (h.ucmd.head % 2 ^ 13)
  else if a = 0x60 then some (lo64 h.stat.base.toNat)
  else if a = 0x64 then some (hi64 h.stat.base.toNat)
  else if a = 0x68 then some (h.stat.log2 % 16)
  else if a = 0x6C then some (b2n h.stat.phase * 2 ^ 13 + h.stat.tail % 2 ^ 13)
  else if a = 0x80 then some (b2n h.stat.enabled * 4 + b2n h.ucmd.enabled * 2 + b2n h.ncmd.enabled)
  else if a = 0x84 then
    some (s.maxRate / 10 % 65536 * 65536 + b2n s.perim.replace * 512 + b2n (!h.holding.isEmpty) * 256 + s.ctl.dev.bits4 * 16
      + b2n s.ctl.ready)
  else if a = 0x88 then some h.err.toNat
  else if a = 0x8C then some (h.coalUs % 65536 * 65536 + h.coalCount % 256)
  else none

def Phase.code : Phase → Nat
  | .queued => 1
  | .prefill => 2
  | .ready => 3
  | .running => 4
  | .ret => 5

def State.seqStat (s : State) : Nat :=
  let q := s.seq
  (match s.executing? with | some st => st.pass % 8 * 2 ^ 21 | none => 0) + min q.stripes.length 16 * 2 ^ 16
    + b2n (s.lanes.any fun l => l.headWarn && !l.retired) * 128 + b2n q.pause * 64 + b2n q.overspeed * 32 + b2n q.dataLate * 16
    + b2n q.late * 8 + (match q.stripes with | st :: _ => st.phase.code | [] => 0)

/-- Sequencer and ledger registers (09 Table 9-7). -/
def State.seqReg (s : State) (a : Nat) : Option Nat :=
  let q := s.seq
  if a = 0x00 then some s.seqStat
  else if a = 0x04 then some (q.pauseMs % 256 * 65536 + q.lateLimit % 16)
  else if a = 0x08 then some s.executingId
  else if a = 0x0C then some (match q.latch with | some l => l.2.2 | none => 0)
  else if a = 0x10 then some (match s.executing? with | some st => st.rate % 65536 | none => 0)
  else if a = 0x14 then some q.lateCount
  else if a = 0x18 then some q.skipCount
  else if a = 0x1C then some q.darkCount
  else if a = 0x40 then some (s.ledgerNext % 2 ^ 32)
  else if a = 0x44 then some (q.first % 2 ^ 32)
  else if a = 0x48 then some (b2n q.reserve * 4 + b2n q.stream.isSome * 2 + b2n (!q.opened.isEmpty))
  else none

/-- Perimeter registers (15 Table 15-8). -/
def State.perimReg (s : State) (a : Nat) : Option Nat :=
  let p := s.perim
  if a = 0x00 then
    some (b2n p.stormSeen * 128 + b2n p.replace * 64 + b2n s.faultN * 32 + b2n (!s.ctl.darkN) * 16 + b2n s.darkLine * 8
      + b2n p.gateClosed * 4 + b2n p.active.isSome * 2)
  else if a = 0x04 then some s.causes
  else if a = 0x08 then
    some ((match p.active with | some r => r.1.cls % 8 * 2 ^ 24 + r.1.cause % 256 * 2 ^ 16 | none => 0) + min p.log.length 1024)
  else if a = 0x0C then some (s.dieMask * 2 ^ 24 + s.usableColumns.2 % 512 * 512 + s.usableColumns.1 % 512)
  else if a = 0x10 then some s.replaceBits
  else if a = 0x14 then
    some (match p.lastC4 with | some c => 2 ^ 31 + c.2 % 8 * 65536 + c.1 % 65536 | none => 0)
  else if a = 0x18 then some p.dropped
  else if a = 0x1C then some p.logLost
  else if a = 0x20 then some (p.gateNs % 65536)
  else if a = 0x24 then some p.nextSeq
  else none

/-- Power and thermal summary (16 Table 16-8). -/
def State.powerReg (s : State) (a : Nat) : Option Nat :=
  let t := s.therm
  if a = 0x00 then
    some (s16 (s.tHot.getD 0) * 65536 + b2n s.ctl.hold * 256 + b2n t.recordBad * 128 + b2n t.pgoodFail * 64 + b2n t.latched * 32
      + b2n t.stopped * 16 + b2n t.throttle * 8 + b2n t.warn * 4)
  else if a = 0x04 then some (t.maxPause % 65536 * 65536 + t.minPause % 65536)
  else if a = 0x08 then some (t.railFail % 32)
  else if a = 0x0C then some (t.power % 65536)
  else if a = 0x10 then some t.pauseCount
  else if a = 0x14 then some t.pauseMs
  else if a = 0x18 then some t.alerts
  else none

/-- UPD_STAT.busy: staging 1, activating 2, head transfer 3. -/
def State.updBusy (s : State) : Nat :=
  match s.hif.busy with
  | some (.activate _ _ _ arming _) => if arming then 2 else 3
  | _ => s.flash.busy

/-- Boot and update registers (18 Table 18-8). -/
def State.bootReg (s : State) (a : Nat) : Option Nat :=
  let c := s.ctl
  let sel := s.selectorOr
  if a = 0x00 then
    some ((s.lanes.filter fun l => l.state == .down && l.hello).length % 128 * 32 + b2n c.fellBack * 16 + b2n c.altBank * 8
      + c.trials % 4 * 2 + c.bank % 2)
  else if a = 0x04 then some (c.bootCause % 8)
  else if a = 0x08 then some (if sel.validA then sel.versionA.toNat else 0)
  else if a = 0x0C then some (if sel.validB then sel.versionB.toNat else 0)
  else if a = 0x10 then
    some (b2n sel.trial * 8 + b2n (if sel.active = 0 then sel.validB else sel.validA) * 4 + s.updBusy % 4)
  else if a = 0x14 then some s.flash.blocks
  else none

/-! ### Datum and Chord (13 Table 13-9) -/

def DomState.code : DomState → Nat
  | .disabled => 0
  | .listening => 1
  | .acquiring => 2
  | .locked => 3
  | .lost => 4

/-- A signed value limited to s32, as its register. -/
def sat32 (i : Int) : Nat := unsigned 32 (satS32 i)

def State.datumStat (s : State) : Nat :=
  let d := s.datum
  b2n (s.port 1).link * 128 + b2n (s.port 0).link * 64 + b2n d.far * 32 + b2n d.stepPending * 16 + b2n d.holdover * 8
    + d.selected % 2 * 4 + b2n (d.rho != 0) * 2 + b2n d.disciplined

/-- A time register set with the latch given: SEC_LO live, the others latched. -/
def State.timeReg (s : State) (latch : Nat × Nat × Nat) (i : Nat) : Nat :=
  match i with
  | 0 => s.timeSec % 2 ^ 32
  | 1 => latch.1 % 2 ^ 32
  | 2 => latch.2.1
  | _ => latch.2.2 % 65536

/-- The alias of Datum (19 R468). -/
def State.aliasReg (s : State) (a : Nat) : Option Nat :=
  if a = 0x00 then some s.datumStat
  else if 0x08 ≤ a ∧ a ≤ 0x14 ∧ a % 4 = 0 then some (s.timeReg s.datum.alias_ ((a - 0x08) / 4))
  else none

def State.datumReg (s : State) (a : Nat) : Option Nat :=
  let d := s.datum
  let c := s.chord
  if a = 0x00 then some s.datumStat
  else if a = 0x04 then some d.irq.toNat
  else if 0x08 ≤ a ∧ a ≤ 0x14 ∧ a % 4 = 0 then some (s.timeReg d.latch ((a - 0x08) / 4))
  else if a = 0x18 then some (sat32 (d.rho / 2 ^ 40))
  else if 0x20 ≤ a ∧ a < 0x40 ∧ a % 16 < 12 ∧ a % 4 = 0 then
    let x := s.domain ((a - 0x20) / 16)
    some (if a % 16 = 0 then min x.good 255 * 65536 + x.number % 256 * 256 + x.state.code
      else if a % 16 = 4 then sat32 x.lastOff else s32 x.rate)
  else if a = 0x40 ∨ a = 0x44 then some (s.port ((a - 0x40) / 4)).ovf
  else if a = 0x48 ∨ a = 0x4C then some (s.port ((a - 0x48) / 4)).drop
  else if 0x80 ≤ a ∧ a < 0xC0 ∧ a % 4 = 0 then
    let t := s.trigger ((a - 0x80) / 4)
    some (b2n t.late * 4 + t.state % 4)
  else if a = 0x100 then
    some (c.unreachId % 1024 * 1024 + b2n s.goWaits.isSome * 8 + b2n c.unreach * 4 + b2n c.aggregate * 2 + b2n c.enabled)
  else if a = 0x104 then some c.rxDrop
  else if a = 0x108 then some c.retry
  else if a = 0x10C then some c.stale
  else if a = 0x110 then
    some (s.seq.batch.length + ((s.chord.peers.flatMap fun p => p.unacked ++ p.queued).map fun m =>
      if m.type = 0x20 then wordAt m.payload 1 % 64 else 0).sum)
  else none

/-! ### Locus and Arc (11 Table 11-9, 12 Table 12-7) -/

def CmpState.code : CmpState → Nat
  | .idle => 0
  | .waitTrigger => 1
  | .armed => 2
  | .fired => 3
  | .late => 4
  | .cancelled => 5

/-- A source's part in its axis. -/
def State.sourceRole (s : State) (n : Nat) : Nat :=
  if s.locus.axes.any fun x => x.primary == some n then 1
  else if s.locus.axes.any fun x => x.secondary == some n then 2 else 0

def State.sourceReg (s : State) (n o : Nat) : Option Nat :=
  let x := s.source n
  if o = 0x00 then
    some (x.crcSingle % 65536 * 65536 + b2n x.bissWarn * 128 + b2n x.zLevel * 64 + b2n x.dir * 32 + b2n x.valid * 16
      + s.sourceRole n * 4 + x.cfg.mode % 4)
  else if o = 0x04 then some x.faults.toNat
  else if o = 0x08 then some (lo64 (unsigned 64 x.pos))
  else if o = 0x0C then some (hi64 (unsigned 64 x.pos))
  else if o = 0x10 then some (s32 x.speed)
  else if o = 0x14 then some (unsigned 16 x.lastD * 65536 + min x.corrections 65535)
  else none

def State.compareReg (s : State) (u o : Nat) : Option Nat :=
  let c := s.compare u
  if o = 0x0 then some (b2n c.event * 2048 + b2n c.late * 1024 + c.dir % 4 * 256 + c.axis % 16 * 16 + c.state.code)
  else if o = 0x4 then some (lo64 (unsigned 64 c.pos))
  else if o = 0x8 then some (hi64 (unsigned 64 c.pos))
  else if o = 0xC then some c.ns
  else none

def bitSum (n : Nat) (p : Nat → Bool) : Nat := ((List.range n).map fun i => if p i then 2 ^ i else 0).sum

def State.locusReg (s : State) (a : Nat) : Option Nat :=
  let l := s.locus
  if a = 0x00 then
    some (b2n l.readback * 512 + b2n l.overrun * 256 + b2n l.deviation * 128 + b2n l.reversed * 64
      + b2n (!s.perim.gateClosed) * 32 + b2n l.gen.isSome * 16 + b2n (l.deferred.isSome || l.deferred2.isSome) * 8 + b2n (s.locusAxis 1).referenced * 4
      + b2n (s.locusAxis 0).referenced * 2 + b2n l.locked)
  else if a = 0x04 then some l.irqEn.toNat
  else if a = 0x10 then some (match l.gen with | some g => g.next | none => 0)
  else if a = 0x14 then some l.advances
  else if a = 0x18 then some (s32 l.resid)
  else if a = 0x1C then some (sat32 (s.scanDev / 256))
  else if a = 0x20 then some (s32 l.vel)
  else if a = 0x24 then some l.rbErr
  else if 0x40 ≤ a ∧ a < 0x68 ∧ a % 4 = 0 then
    let i := (a - 0x40) / 4
    let x := s.locusAxis i
    let dir := match x.primary with | some p => (s.source p).dir | none => false
    some (b2n dir * 8 + b2n x.referenced * 4 + b2n (s.axisValid i) * 2 + b2n x.primary.isSome)
  else if 0x100 ≤ a ∧ a < 0x280 then s.sourceReg ((a - 0x100) / 0x20) (a % 0x20)
  else if a = 0x300 then some (bitSum 16 fun i => (s.din i).value)
  else if a = 0x304 then some (bitSum 16 (fun i => (s.din i).chatter) * 65536 + bitSum 16 fun i => (s.din i).stuck)
  else if 0x400 ≤ a ∧ a < 0x500 then s.compareReg ((a - 0x400) / 0x10) (a % 0x10)
  else none

def AxisState.code : AxisState → Nat
  | .absent => 0
  | .disabled => 1
  | .idle => 2
  | .moving => 3
  | .homing => 4
  | .stopping => 5
  | .sequencer => 6

def State.axisReg (s : State) (a o : Nat) : Option Nat :=
  let x := s.axis a
  if o = 0x00 then
    some (b2n x.chatter * 2048 + b2n x.driveFault * 1024 + b2n x.stall * 512 + b2n (s.limitActive a true) * 256
      + b2n (s.limitActive a false) * 128 + b2n x.inPosition * 64 + b2n (x.homed && (s.locusAxis a).referenced) * 32 + x.state.code)
  else if o = 0x04 then some (lo64 (unsigned 64 x.cmd))
  else if o = 0x08 then some (hi64 (unsigned 64 x.cmd))
  else if o = 0x0C then some (s32 x.vel)
  else if o = 0x10 then some (sat32 ((s.axisPos a - x.cmd) / 256))
  else if o = 0x14 then some (x.steps % 2 ^ 32)
  else none

def State.arcReg (s : State) (a : Nat) : Option Nat :=
  let r := s.arc
  if a = 0x00 then
    some (b2n r.overspeedDecel * 32 + b2n r.spLinkFault * 16 + b2n (s.axis 1).enabled * 8 + b2n (s.axis 0).enabled * 4
      + b2n r.spRunning * 2)
  else if a = 0x04 then some (r.settleUs % 65536)
  else if a = 0x08 then some r.spCycle
  else if a = 0x0C then some r.spErr
  else if 0x100 ≤ a ∧ a < 0x380 then s.axisReg ((a - 0x100) / 0x40) (a % 0x40)
  else none

/-! ### DMA, compression, counters, power, calibration of a die -/

def DmaState.code : DmaState → Nat
  | .stopped => 0
  | .idle => 1
  | .waitBind => 2
  | .active => 3
  | .stopping => 4
  | .error => 5

/-- A class D or move channel's registers (03 Table 3-7). -/
def DmaD.reg (c : DmaD) (o : Nat) : Option Nat :=
  if o = 0x00 then some (b2n c.firmware * 8 + b2n c.irqBad * 4 + b2n c.abort * 2 + b2n c.run)
  else if o = 0x04 then some (c.err.toNat * 256 + c.state.code)
  else if o = 0x08 then some (lo64 c.ring.toNat)
  else if o = 0x0C then some (hi64 c.ring.toNat)
  else if o = 0x10 then some (c.log2 % 16)
  else if o = 0x14 then some 0
  else if o = 0x18 then some (c.index % 4096)
  else if o = 0x1C then some c.badCount
  else if o = 0x20 then some c.discard
  else if o = 0x24 then some (c.bound.getD 0xFFFFFFFF)
  else none

def TSource.code : TSource → Nat
  | .none => 0
  | .ledger => 1
  | .counters => 2
  | .locus => 3
  | .datum => 4
  | .chord => 5

/-- A class T channel's registers. DMA_T_STAT.waiting reads 1 while a record is queued, also where there is room for it until
CLASS_T_RECORD_WRITE (DESIGN CHOICE, notes/assumptions/46.md). -/
def DmaT.reg (c : DmaT) (o : Nat) : Option Nat :=
  if o = 0x00 then some (c.source.code * 256 + b2n c.fullIrq * 4 + b2n c.halfIrq * 2 + b2n c.enabled)
  else if o = 0x04 then some (b2n c.rdRange * 8 + b2n (!c.waiting.isEmpty) * 4 + b2n c.full * 2 + b2n c.half)
  else if o = 0x08 then some (lo64 c.buf.toNat)
  else if o = 0x0C then some (hi64 c.buf.toNat)
  else if o = 0x10 then some (c.log2 % 32)
  else if o = 0x14 then some c.wr
  else if o = 0x18 then some c.rd
  else if o = 0x1C then some c.dropped
  else none

/-- The DMA block of a die: class D and T on die 0 only. -/
def State.dmaReg (s : State) (d a : Nat) : Option Nat :=
  if a < 0x800 then if d = 0 then (s.dmaChan (a / 0x100)).reg (a % 0x100) else some 0
  else if a < 0x1000 then
    if d = 0 then (s.dmaT[(a - 0x800) / 0x100]?).bind fun c => c.reg (a % 0x100) else some 0
  else if a < 0x1400 then (s.moveChan d ((a - 0x1000) / 0x100)).reg (a % 0x100)
  else none

/-- A check-value unit's registers (14 Table 14-5). -/
def CrcUnit.reg (u : CrcUnit) (o : Nat) : Option Nat :=
  if o = 0x00 then some (u.mode % 4 * 65536 + u.width % 64 * 256 + b2n u.refout * 8 + b2n u.refin * 4)
  else if o = 0x04 then
    some (b2n u.selftestOk * 16 + b2n u.cfgErr * 8 + b2n u.cfgLocked * 4 + b2n u.mismatch * 2 + b2n u.busy)
  else if o = 0x08 then some u.poly.toNat
  else if o = 0x0C then some u.init.toNat
  else if o = 0x10 then some u.xorout.toNat
  else if o = 0x14 then some u.fold0.toNat
  else if o = 0x18 then some u.fold1.toNat
  else if o = 0x1C then some u.fold2.toNat
  else if o = 0x20 then some u.value.toNat
  else if o = 0x24 then some u.result.toNat
  else if o = 0x28 ∨ o = 0x2C then some 0
  else if o = 0x30 then some u.bytes
  else if o = 0x34 then some u.mismatches
  else none

def Comp.reg (c : Comp) (a : Nat) : Option Nat :=
  if a = 0x00 then some (b2n c.ctxBusy * 16 + b2n c.verifySeen * 2 + b2n c.selftestOk)
  else if a = 0x04 then some (b2n c.save * 32 + b2n c.final * 8 + b2n c.dynamic * 4 + b2n c.dir * 2)
  else if a = 0x08 then some (b2n c.fallback * 256 + c.error % 16 * 16 + c.job % 8)
  else if a = 0x0C then some (c.ctx % 16)
  else if a = 0x10 then some c.limit
  else if a = 0x14 then some c.inBytes
  else if a = 0x18 then some c.outBytes
  else if a = 0x1C then some c.verifyFail
  else if a = 0x20 then some c.decompErr
  else if a = 0x24 then some c.blocks
  else none

def State.compReg (d : Die) (a : Nat) : Option Nat :=
  if 0x100 ≤ a ∧ a < 0x200 then (d.crc[(a - 0x100) / 0x40]?).bind fun u => u.reg (a % 0x40) else d.comp.reg a

/-- The counter block (17 Table 17-7): low words live, high words as latched. -/
def Perf.reg (p : Perf) (a : Nat) : Option Nat :=
  let i := a % 0x800 / 8
  if a % 4 ≠ 0 ∨ 0x1000 ≤ a ∨ 192 ≤ i then none
  else
    let v := if a < 0x800 then p.cnt.getD i 0 else p.snap.getD i 0
    if a % 8 = 0 then some (v % 2 ^ 32) else some ((((p.hi.find? fun x => x.1 == a - 4).map (·.2)).getD 0) % 65536)

/-- The power and thermal block of a die (16 Table 16-8). -/
def Die.powReg (d : Die) (a : Nat) : Option Nat :=
  let p := d.pow
  if a < 0x30 ∧ a % 4 = 0 then
    (p.sensors[a / 4]?).map fun x => b2n x.excluded * 2 ^ 31 + s16 x.temp
  else if a = 0x30 then some (b2n p.demand * 2 ^ 20 + min d.excluded 12 * 65536 + s16 (d.junction.getD 0))
  else if a = 0x40 then some (p.iso.toNat * 256 + p.on.toNat)
  else if a = 0x44 then some (b2n p.atLimit * 2 ^ 22 + p.slack % 64 * 65536 + p.vcore % 65536)
  else none

/-- The calibration block of a die (17 Table 17-7). -/
def State.calReg (s : State) (d : Die) (a : Nat) : Option Nat :=
  let c := d.cal
  let q := fun item i => (c.quality.getD item []).getD i 0
  let run := s.calRuns.filter fun r => r.dies.contains d.id
  if a = 0x00 then
    some (c.sensorOut.toNat * 2 ^ 20 + b2n c.noRecord * 2 ^ 12 + c.below.toNat * 64 + b2n (!run.isEmpty) * 32
      + bitSum 5 fun i => (i == 4 && c.sensorRun) || run.any fun r => bit r.mask i && itemOn i d.id)
  else if a = 0x04 then some c.auto.toNat
  else if a = 0x08 then some (bitSum 5 c.pendingItem)
  else if a = 0x0C then some c.steps
  else if a = 0x10 then some (q 3 0)
  else if a = 0x14 then some c.gen
  else if 0x20 ≤ a ∧ a < 0x30 ∧ a % 4 = 0 then some (if d.id = 0 then q 1 ((a - 0x20) / 4) else 0)
  else if 0x30 ≤ a ∧ a < 0x38 ∧ a % 4 = 0 then some (if d.id = 0 then q 2 ((a - 0x30) / 4) else 0)
  else none

/-! ### DGS registers (05 Table 5-8) -/

def Area.reg (x : Area) (o : Nat) : Option Nat :=
  if o = 0x00 then some (x.bound.getD 0xFFFFFFFF)
  else if o = 0x04 then
    some (x.cause % 256 * 2 ^ 24 + b2n x.under * 32 + b2n x.fault * 16 + b2n x.waiting * 8
      + b2n (x.root.any fun r => decide (r.streamBlocks ≤ 2048)) * 4 + b2n x.root.isSome * 2 + b2n x.bound.isSome)
  else if o = 0x08 then some (lo64 x.expect)
  else if o = 0x0C then some (hi64 x.expect)
  else if o = 0x10 then some x.bad
  else if o = 0x14 then some x.discard
  else if o = 0x18 then some x.part
  else if o = 0x1C then some (lo64 x.faultSeq)
  else if o = 0x20 then some (hi64 x.faultSeq)
  else if o = 0x24 then some x.faultOff
  else none

def State.dgsReg (s : State) (a : Nat) : Option Nat :=
  if a = 0x700 then some (s.libs.length % 128)
  else if a = 0x704 then some (s.libFree % 2 ^ 32)
  else if 0x800 ≤ a ∧ a < 0x880 then (s.areas[(a - 0x800) / 0x40]?).bind fun x => x.reg (a % 0x40)
  else none

/-! ### A die window (19 Table 19-3), and BAR0 (19 Table 19-1) -/

/-- The die control block. -/
def Die.ctlReg (d : Die) (a : Nat) : Option Nat :=
  if a = 0x0 then
    some (b2n d.retired * 2 ^ 31 + b2n d.crcFailed * 2 ^ 20 + b2n d.memFailed * 2 ^ 19 + b2n d.latticeFailed * 2 ^ 18
      + b2n d.contourFailed * 2 ^ 17 + b2n d.facetFailed * 2 ^ 16 + d.id % 8)
  else if a = 0x4 then some (b2n d.imageOk * 16 + d.apex % 4)
  else if a = 0x8 then some (d.tb.toNat % 2 ^ 32)
  else if a = 0xC then some d.tbHi.toNat
  else none

/-- A register of a die's window; the blocks of die 0 read as 0 in the other windows (R469). -/
def State.dieReg (s : State) (d off : Nat) : Option Nat :=
  let x := s.die d
  let o := off % 0x10000
  match off / 0x10000 with
  | 0x0 => x.ctlReg o
  | 0x1 => s.dmaReg d o
  | 0x4 => if 0x700 ≤ o ∧ o < 0x880 then (if d = 0 then s.dgsReg o else some 0) else s.blockReg x off
  | 0x2 | 0x3 | 0x5 | 0x6 | 0x7 => s.blockReg x off
  | 0x8 => State.compReg x o
  | 0x9 => if d = 0 then s.locusReg o else some 0
  | 0xA => if d = 0 then s.arcReg o else some 0
  | 0xB => if d = 0 then s.datumReg o else some 0
  | 0xD => x.perf.reg o
  | 0xE => x.powReg o
  | 0xF => s.calReg x o
  | _ => none

/-- The register at an aligned BAR0 address; none where the address is unassigned or in an absent die's window (R458). -/
def State.reg (s : State) (a : Nat) : Option Nat :=
  if a % 4 ≠ 0 then none
  else if a < 0x1000 then s.ctlReg a
  else if 0x1000 ≤ a ∧ a < 0x1100 then s.hifReg (a - 0x1000)
  else if 0x2000 ≤ a ∧ a < 0x2100 then s.seqReg (a - 0x2000)
  else if 0x3000 ≤ a ∧ a < 0x3100 then s.perimReg (a - 0x3000)
  else if 0x4000 ≤ a ∧ a < 0x4100 then s.powerReg (a - 0x4000)
  else if a = 0x5000 then some (s.perf.mirrorUs % 65536 * 65536 + b2n s.perf.userEn)
  else if a = 0x5004 then some s.perf.snapSeq
  else if 0x6000 ≤ a ∧ a < 0x6100 then s.bootReg (a - 0x6000)
  else if 0x7000 ≤ a ∧ a < 0x7100 then s.aliasReg (a - 0x7000)
  else if 0x40000 ≤ a ∧ a < 0x50000 then
    if 0x3C ≤ a - 0x40000 then none
    else if s.nLanes ≤ s.ctl.laneSel then some 0 else s.laneWord s.ctl.laneSel (a - 0x40000)
  else if 0x1000000 ≤ a ∧ a < 0x1000000 + 0x200000 * s.nDies then
    s.dieReg ((a - 0x1000000) / 0x200000) ((a - 0x1000000) % 0x200000)
  else none

/-- What a regular BAR0 read returns (R15, R459); none while the function answers Unsupported Request or is off. -/
def State.readBar0 (s : State) (a : Nat) : Option Word :=
  if !s.hifOn then none else some (BitVec.ofNat 32 ((s.reg a).getD 0))

/-- A byte of BAR2 (17 R437): 0 while PERF_USER_EN is 0. -/
def State.bar2Byte (s : State) (a : Nat) : Nat :=
  let p := s.perf
  if !p.userEn then 0
  else if a < 20 then p.mirror.getD (a / 4) 0 / 2 ^ (8 * (a % 4)) % 256
  else if a < 24 then p.update / 2 ^ (8 * (a % 4)) % 256
  else if a < 64 then 0
  else
    let d := (a - 64) / 504
    let o := (a - 64) % 504
    (p.mirrorCnt.getD d []).getD (o / 8) 0 / 2 ^ (8 * (o % 8)) % 256

/-- What an aligned BAR2 read of 4 or 8 bytes returns. -/
def State.readBar2 (s : State) (a width : Nat) : Option Nat :=
  if !s.hifOn || !(width == 4 || width == 8) || a % width ≠ 0 then none
  else some (((List.range width).map fun i => s.bar2Byte (a + i) * 2 ^ (8 * i)).sum)

end Sys2Proof.Machine
end

