-- ==== Sys2Proof/Machine/Registers.lean ====
section
/-! DEFINITION. BAR0 writes and the reads that act (00_scope.md R15, 19_register_map.md R458-R465): access types, state locks,
ownership. A write to a register with a row of its own has that row's effect. -/

namespace Sys2Proof.Machine

/-- The state after a command that has a next state. -/
def Res.orElse (r : Res) (s : State) : State :=
  match r with
  | .next t => t
  | _ => s

/-- Write-1-to-clear. -/
def w1c (b : Bool) (v i : Nat) : Bool := b && !bit v i

/-- A write to a register that only CONFIGURED may write (R462). -/
def State.locked (s : State) (f : State → State) : State := if s.ctl.dev = .configured then f s else s.devErr 3

/-- A 64-bit register with one of its words replaced; a ring base's bits 11-0 are reserved. -/
def setHalf (x : BitVec 64) (high : Bool) (v : Nat) : BitVec 64 :=
  BitVec.ofNat 64 (if high then x.toNat % 2 ^ 32 + v * 2 ^ 32 else x.toNat / 2 ^ 32 * 2 ^ 32 + v / 4096 * 4096)

def clamp (lo hi v : Nat) : Nat := max lo (min hi v)

/-! ### Device-global registers -/

/-- HIF_RING_CTRL (02 R56). -/
def State.writeRingCtrl (s : State) (v : Nat) : State :=
  let s := (if bit v 2 then execStatusRingEnable s else execStatusRingDisable s).orElse s
  let s := (if bit v 1 then execUrgentRingEnable s else execUrgentRingDisable s).orElse s
  (if bit v 0 then execNormalRingEnable s else execNormalRingDisable s).orElse s

/-- Base and size registers of a ring (02 R51). -/
def State.ringCfg (s : State) (enabled : Bool) (f : State → State) : State := if enabled then s.hifErr 1 else f s

def State.writeHif (s : State) (a : Nat) (w : Word) : State :=
  let v := w.toNat
  let h := s.hif
  match a with
  | 0x00 => (execHifDbNcmdWrite w s).orElse s
  | 0x04 => (execHifDbUcmdWrite w s).orElse s
  | 0x08 => (execHifDbStatWrite w s).orElse s
  | 0x40 => s.ringCfg h.ncmd.enabled fun s => { s with hif.ncmd.base := setHalf h.ncmd.base false v }
  | 0x44 => s.ringCfg h.ncmd.enabled fun s => { s with hif.ncmd.base := setHalf h.ncmd.base true v }
  | 0x48 => s.ringCfg h.ncmd.enabled fun s => { s with hif.ncmd.log2 := clamp 4 12 (v % 16) }
  | 0x50 => s.ringCfg h.ucmd.enabled fun s => { s with hif.ucmd.base := setHalf h.ucmd.base false v }
  | 0x54 => s.ringCfg h.ucmd.enabled fun s => { s with hif.ucmd.base := setHalf h.ucmd.base true v }
  | 0x60 => s.ringCfg h.stat.enabled fun s => { s with hif.stat.base := setHalf h.stat.base false v }
  | 0x64 => s.ringCfg h.stat.enabled fun s => { s with hif.stat.base := setHalf h.stat.base true v }
  | 0x68 => s.ringCfg h.stat.enabled fun s => { s with hif.stat.log2 := clamp 6 13 (v % 16) }
  | 0x80 => s.writeRingCtrl v
  | 0x88 => { s with hif.err := h.err &&& ~~~(w.setWidth 4) }
  | 0x8C => { s with hif.coalUs := v / 65536, hif.coalCount := v % 256 }
  | _ => s

/-- The window of the selected lane (10 Table 10-12). -/
def State.writeLane (s : State) (a : Nat) (w : Word) : State :=
  let v := w.toNat
  match a with
  | 0x00 =>
    s.windowWrite fun n s =>
      let l := s.lane n
      let cfg := s.ctl.dev = .configured
      let prbs := if s.seq.stripes.isEmpty then bit v 7 else l.prbs
      let differs := bit v 7 != l.prbs || bit v 5 != l.irqWarn || bit v 4 != l.irqErr
      let s := if cfg then s.modLane n fun l => { l with prbs := prbs, irqWarn := bit v 5, irqErr := bit v 4 }
        else if differs then s.devErr 3 else s
      let s := if bit v 6 then (execLaneErrorInject s).orElse s else s
      if bit v 2 then (execLaneRetrainRequest s).orElse s else s
  | 0x10 => s.windowWrite fun n s => s.modLane n fun l => { l with err := l.err &&& ~~~(w.setWidth 6) }
  | 0x18 =>
    s.windowWrite fun n s => s.locked fun s =>
      let warn := signed 16 v
      let trip := signed 16 (v / 65536)
      if trip ≤ warn then s else (s.modLane n fun l => { l with limTrip := trip, limWarn := warn }).headEval n
  | _ => s.windowWrite fun _ s => s

/-- Device-global registers. -/
def State.writeGlobal (s : State) (a : Nat) (w : Word) : State :=
  let v := w.toNat
  match a with
  | 0x0030 => { s with ctl.err := s.ctl.err &&& ~~~(w.setWidth 4) }
  | 0x0040 => { s with ctl.scratch := w }
  | 0x0100 => s.selectLane w
  | 0x0200 => { s with ctl.irqStat := s.ctl.irqStat &&& ~~~(w.setWidth 28) }
  | 0x2004 => s.locked fun s => { s with seq.pauseMs := max 1 (bits v 23 16), seq.lateLimit := max 1 (bits v 3 0) }
  | 0x3000 => { s with perim.stormSeen := w1c s.perim.stormSeen v 7 }
  | 0x4000 => { s with therm.recordBad := w1c s.therm.recordBad v 7, therm.pgoodFail := w1c s.therm.pgoodFail v 6 }
  | 0x5000 => s.locked fun s => { s with perf.mirrorUs := max 100 (v / 65536), perf.userEn := bit v 0 }
  | 0x6000 => { s with ctl.fellBack := w1c s.ctl.fellBack v 4, ctl.altBank := w1c s.ctl.altBank v 3 }
  | _ => if 0x1000 ≤ a ∧ a < 0x1100 then s.writeHif (a - 0x1000) w else s

/-! ### DMA channels (03 R73-R84, R90, R93) -/

/-- A write to a class D channel's registers by its owner; the host's to another's sets DEV_ERR.owned (R462). -/
def State.dmaOwner (s : State) (fw : Bool) (i : Nat) (f : State → State) : State :=
  if (s.dmaChan i).firmware == fw then f s else if fw then s else s.devErr 2

/-- DMA_D_CTRL: owner first, then the other bits by the channel's owner. -/
def State.writeDmaCtrl (s : State) (fw : Bool) (i v : Nat) : State :=
  let c := s.dmaChan i
  let s := if fw then s else (execDmaOwnerWrite i (bit v 3) s).orElse s
  let same := bit v 2 == c.irqBad && bit v 0 == c.run && !bit v 1
  if !fw && c.firmware && same then s
  else
    s.dmaOwner fw i fun s =>
      let s := s.modDma i fun c =>
        let c := { c with irqBad := bit v 2 }
        if bit v 0 then c.setRun else c.clearRun
      if bit v 1 then
        let s := s.modDma i fun c => { c with run := false }
        if (s.dmaChan i).desc.isSome then s.completeD i 0x03 0 else s.modDma i DmaD.clearRun
      else s

/-- W1C bits of DMA_D_STAT; clearing fetch_err with run cleared leaves ERROR (R84). -/
def DmaD.clearFlags (c : DmaD) (v : Nat) : DmaD :=
  let c' := { c with err := c.err &&& ~~~(BitVec.ofNat 5 (v / 256)) }
  if bit v 10 && c.state == .error && !c.run then { c' with state := .stopped } else c'

/-- Ring base and size: only STOPPED (R81). -/
def DmaD.config (c : DmaD) (f : DmaD → DmaD) : DmaD := if c.state == .stopped then f c else c.flag 3

/-- The other registers of a class D or move channel. -/
def DmaD.write (c : DmaD) (o v : Nat) : DmaD :=
  match o with
  | 0x04 => c.clearFlags v
  | 0x08 => c.config fun c => { c with ring := setHalf c.ring false v, index := 0 }
  | 0x0C => c.config fun c => { c with ring := setHalf c.ring true v, index := 0 }
  | 0x10 => c.config fun c => { c with log2 := clamp 4 12 (v % 16) }
  | 0x14 => if c.state == .idle then { c with state := .active } else c
  | _ => c

def DmaT.write (c : DmaT) (o v : Nat) : DmaT :=
  match o with
  | 0x00 =>
    let c := { c with fullIrq := bit v 2, halfIrq := bit v 1 }
    if bit v 0 then c.enable else { c with enabled := false }
  | 0x04 => { c with rdRange := w1c c.rdRange v 3, full := w1c c.full v 1, half := w1c c.half v 0 }
  | 0x08 => if c.enabled then c else { c with buf := setHalf c.buf false v }
  | 0x0C => if c.enabled then c else { c with buf := setHalf c.buf true v }
  | 0x10 => if c.enabled then c else { c with log2 := clamp 12 30 (v % 32) }
  | 0x18 => c.setRd v
  | _ => c

/-- A move channel's registers, which firmware writes. -/
def State.writeMove (s : State) (d k o v : Nat) : State :=
  if o = 0x00 then
    let s := s.modMove d k fun c =>
      let c := { c with irqBad := bit v 2 }
      if bit v 0 then c.setRun else c.clearRun
    if bit v 1 then
      let s := s.modMove d k fun c => { c with run := false }
      if (s.moveChan d k).desc.isSome then s.completeMove d k 0x03 else s.modMove d k DmaD.clearRun
    else s
  else s.modMove d k fun c => c.write o v

def State.writeDmaBlock (s : State) (fw : Bool) (d a v : Nat) : State :=
  if a < 0x800 then
    if d ≠ 0 then s
    else if a % 0x100 = 0 then s.writeDmaCtrl fw (a / 0x100) v
    else s.dmaOwner fw (a / 0x100) fun s => s.modDma (a / 0x100) fun c => c.write (a % 0x100) v
  else if a < 0x1000 then
    if d ≠ 0 then s else { s with dmaT := s.dmaT.modify ((a - 0x800) / 0x100) fun c => c.write (a % 0x100) v }
  else if fw then s.writeMove d ((a - 0x1000) / 0x100) (a % 0x100) v
  else s.devErr 2

/-! ### Compression and check values: firmware's writes (14 Table 14-5) -/

def State.writeCrc (s : State) (d u o : Nat) (w : Word) : State :=
  let f : Option (CrcUnit → CrcUnit) :=
    match o with
    | 0x00 => if w.getLsbD 0 then none else some fun c => c.control w.toNat
    | 0x08 => some fun c => { c with poly := w }
    | 0x0C => some fun c => { c with init := w }
    | 0x10 => some fun c => { c with xorout := w }
    | 0x14 => some fun c => { c with fold0 := w }
    | 0x18 => some fun c => { c with fold1 := w }
    | 0x1C => some fun c => { c with fold2 := w }
    | _ => none
  match f with
  | some f => (s.crcPort d u f).orElse s
  | none =>
    match o with
    | 0x00 => (execCrcStart d u w s).orElse s
    | 0x04 => s.modCrc d u fun c =>
        { c with cfgErr := c.cfgErr && !w.getLsbD 3, cfgLocked := c.cfgLocked && !w.getLsbD 2, mismatch := c.mismatch && !w.getLsbD 1 }
    | 0x20 => (execCrcValueWrite d u w s).orElse s
    | 0x28 => (execCrcData d u w s).orElse s
    | 0x2C => (execCrcData8 d u (w.setWidth 8) s).orElse s
    | 0x30 => (execCrcBytesWrite d u w s).orElse s
    | _ => s

def State.writeComp (s : State) (d a : Nat) (w : Word) : State :=
  let v := w.toNat
  if 0x100 ≤ a then s.writeCrc d ((a - 0x100) / 0x40) (a % 0x40) w
  else
    match a with
    | 0x00 => s.modComp d fun c => { c with ctxBusy := w1c c.ctxBusy v 4, verifySeen := w1c c.verifySeen v 1 }
    | 0x04 =>
      let s := s.modComp d fun c => c.control v
      let s := if bit v 6 then (execCompContextRestore d s).orElse s else s
      let s := if bit v 0 then (execCompJobStart d w s).orElse s else s
      if bit v 5 then (execCompContextSave d s).orElse s else s
    | 0x08 => s.modComp d fun c => { c with fallback := w1c c.fallback v 8 }
    | 0x0C => s.modComp d fun c => { c with ctx := v % 16 }
    | 0x10 => s.modComp d fun c => { c with limit := v }
    | _ => s

/-! ### The other blocks of a die -/

/-- MEM_RT_CFG as it is stored (04 MEM_RT_CFG). -/
def Mem.config (m : Mem) (v : Nat) : Mem :=
  let on := min (v % 8) 6
  let off := bits v 6 4
  { m with maxDefer := max 1 (bits v 23 16), panicOn := on, panicOff := if off ≤ on then on + 1 else off }

def State.writeLocus (s : State) (a : Nat) (w : Word) : State :=
  let v := w.toNat
  if a = 0x00 then
    { s with locus := { s.locus with
      readback := w1c s.locus.readback v 9, overrun := w1c s.locus.overrun v 8
      deviation := w1c s.locus.deviation v 7, reversed := w1c s.locus.reversed v 6 } }
  else if a = 0x04 then { s with locus.irqEn := w.setWidth 15 }
  else if 0x100 ≤ a ∧ a < 0x280 then
    if a % 0x20 = 0x04 then
      s.modSource ((a - 0x100) / 0x20) fun x => Source'.revalidate { x with faults := x.faults &&& ~~~(w.setWidth 10) }
    else s
  else if a = 0x304 then
    (List.range 16).foldl (fun s d => (execLocusDinFlagClear d (b2n (bit v d) + 2 * b2n (bit v (16 + d))) s).orElse s) s
  else if 0x400 ≤ a ∧ a < 0x500 ∧ a % 0x10 = 0 then
    s.modCompare ((a - 0x400) / 0x10) fun c => { c with event := w1c c.event v 11 }
  else s

def State.writeArc (s : State) (a v : Nat) : State :=
  if a = 0x00 then { s with arc.spLinkFault := w1c s.arc.spLinkFault v 4 }
  else if a = 0x04 then s.locked fun s => { s with arc.settleUs := v % 65536 }
  else if 0x100 ≤ a ∧ a < 0x380 ∧ a % 0x40 = 0 then
    s.modAxis ((a - 0x100) / 0x40) fun x =>
      { x with chatter := w1c x.chatter v 11, driveFault := w1c x.driveFault v 10, stall := w1c x.stall v 9 }
  else s

/-- A write in a die's window; blocks that a retirement has switched off ignore writes (R465). -/
def State.writeDie (s : State) (fw : Bool) (d off : Nat) (w : Word) : State :=
  let v := w.toNat
  let o := off % 0x10000
  let live := !(s.die d).retired
  match off / 0x10000 with
  | 0x1 => s.writeDmaBlock fw d o v
  | 0x2 =>
    if !live then s
    else if o = 0x08 then s.locked fun s => s.modDie d fun x => { x with mem := x.mem.config v }
    else if o = 0x0C then s.modDie d fun x => { x with mem := { x.mem with err := x.mem.err &&& ~~~(w.setWidth 4) } }
    else s
  | 0x5 =>
    if live && o == 0 then
      s.locked fun s => s.modDie d fun x => { x with con := { x.con with cmode := bit v 1, compress := bit v 0 } }
    else s
  | 0x8 => if fw then s.writeComp d o w else s.devErr 2
  | 0x9 => if d = 0 then s.writeLocus o w else s
  | 0xA => if d = 0 then s.writeArc o v else s
  | 0xB =>
    if d ≠ 0 then s
    else if o = 0x04 then { s with datum.irq := w.setWidth 3 }
    else if o = 0x100 then { s with chord.unreach := w1c s.chord.unreach v 2 }
    else s
  | 0xF =>
    if o = 0x00 then
      s.modDie d fun x => { x with cal := { x.cal with
        sensorOut := x.cal.sensorOut &&& ~~~(BitVec.ofNat 12 (v / 2 ^ 20)), below := x.cal.below &&& ~~~(BitVec.ofNat 5 (v / 64)) } }
    else if o = 0x04 then s.locked fun s => s.modDie d fun x => { x with cal := { x.cal with auto := w.setWidth 4 } }
    else s
  | _ => s

/-- A write to the endpoint: configuration registers from 0, the MSI-X table from 0x100_0000 up. -/
def State.writeEndpoint (s : State) (a : Nat) (w : Word) : State :=
  if !s.domOn 0 7 then s
  else if a < 0x1000 then { s with pcie := s.pcie.write a w }
  else if 0x1000000 ≤ a ∧ a < 0x1000400 ∧ a % 16 = 12 ∧ !s.ctl.d3hot then s.maskVector ((a - 0x1000000) / 16) (w.getLsbD 0)
  else s

/-- A 32-bit write to an aligned BAR0 address. -/
def State.writeReg (s : State) (fw : Bool) (a : Nat) (w : Word) : State :=
  if 0x40000 ≤ a ∧ a < 0x50000 then s.writeLane (a - 0x40000) w
  else if 0x1000000 ≤ a then s.writeDie fw ((a - 0x1000000) / 0x200000) ((a - 0x1000000) % 0x200000) w
  else s.writeGlobal a w

/-- REGISTER_WRITE (R15, R459, R460): by the host, or, on the registers firmware owns, by device firmware. Addresses above
BAR0's 64 MiB stand for the endpoint's configuration registers and its MSI-X table (notes/assumptions/45.md). A write to the
window of a retired lane sets wr_ignored at every offset (02 R70). -/
def execRegisterWrite (addr width : Nat) (value : Word) (firmware : Bool) (s : State) : Res :=
  .next (if 0x4000000 ≤ addr then (if firmware || width ≠ 4 then s else s.writeEndpoint (addr - 0x4000000) value)
  else if !(s.hifOn || (firmware && s.domOn 0 1)) then s
  else
    let gone := (s.reg (addr / 4 * 4)).isNone
    let odd := width ≠ 4 || addr % 4 ≠ 0
    let s := if odd && !firmware then s.devErr 1 else s
    let s := if 0x40000 ≤ addr && addr < 0x50000 && !firmware then s.windowWrite fun _ s => s else s
    if gone then (if firmware then s else s.devErr 0) else if odd then s else s.writeReg firmware addr value)

/-- IRREGULAR_BAR0_READ (R459): it completes with every byte 0. -/
def execIrregularBar0Read (addr width dwords : Nat) (s : State) : Res :=
  .next (if !s.hifOn then s
  else
    let s := if width ≠ 4 || addr % 4 ≠ 0 || 1 < dwords then s.devErr 1 else s
    if (s.reg (addr / 4 * 4)).isNone then s.devErr 0 else s)

/-- COUNTER_LO_READ (R461): a read of DIE_TB_LO, or of a _LO register of the counter block, by its offset in the die's window,
latches its own _HI register. -/
def execCounterLoRead (die offset : Nat) (s : State) : Res :=
  .next (if !s.hifOn || s.nDies ≤ die then s
  else if offset = 0x8 then s.modDie die fun d => { d with tbHi := hi32 d.tb.toNat }
  else
    let o := offset - 0xD0000
    if offset < 0xD0000 ∨ 0xD1000 ≤ offset ∨ o % 8 ≠ 0 ∨ 192 ≤ o % 0x800 / 8 then s
    else
      s.modDie die fun d =>
        let v := if o < 0x800 then d.perf.cnt.getD (o / 8) 0 else d.perf.snap.getD ((o - 0x800) / 8) 0
        { d with perf := { d.perf with hi := (d.perf.hi.filter fun x => x.1 != o) ++ [(o, v / 2 ^ 32)] } })

end Sys2Proof.Machine
end

