-- ==== Sys2Proof/Machine/Fetch.lean ====
section
/-! DEFINITION. Command rings: fetching slots and starting their commands (02_host_commands.md R51-R57, R64-R66). -/

namespace Sys2Proof.Machine

/-- The command of an opcode (Table 2-6), whose outside data is `env`. -/
def runOpcode (env : List Word) (p : Packet) (c : Ctx) (s : State) : State :=
  match p.opcode with
  | 0x0000 => nopBody p c s
  | 0x0001 => infoBody p c s
  | 0x0002 => stateBody p c s
  | 0x0003 => clearBody p c s
  | 0x0004 => resetBody p c s
  | 0x0005 => armBody p c s
  | 0x0006 => disarmBody p c s
  | 0x0100 => cfgPixelPitchBody p c s
  | 0x0101 => cfgDeviceIdBody p c s
  | 0x0102 => cfgRenderAheadBody p c s
  | 0x0103 => tableLoadBody env p c s
  | 0x0104 => tableReadBody p c s
  | 0x0200 => libLoadBody env p c s
  | 0x0201 => libDropBody p c s
  | 0x0202 => geoBindBody p c s
  | 0x0300 => submitBody false p c s
  | 0x0301 => stripeAbortBody p c s
  | 0x0302 => submitBody true p c s
  | 0x0303 => ledgerReadBody p c s
  | 0x0304 => ledgerStreamBody p c s
  | 0x0305 => ledgerReleaseBody p c s
  | 0x0400 => axisConfigBody p c s
  | 0x0401 => axisParamBody p c s
  | 0x0402 => axisHomeBody p c s
  | 0x0403 => axisMoveBody p c s
  | 0x0404 => axisStopBody p c s
  | 0x0405 => locusConfigBody p c s
  | 0x0406 => compareSetBody p c s
  | 0x0500 => timeConfigBody p c s
  | 0x0501 => timeReadBody p c s
  | 0x0502 => timeTriggerBody p c s
  | 0x0503 => chordConfigBody env p c s
  | 0x0504 => roleSetBody p c s
  | 0x0505 => chordSendBody p c s
  | 0x0600 => laneTrainBody p c s
  | 0x0601 => lanePowerBody p c s
  | 0x0602 => laneRetireBody p c s
  | 0x0603 => laneStatusBody p c s
  | 0x0604 => headQueryBody p c s
  | 0x0605 => pulseTableLoadBody env p c s
  | 0x0700 => calRunBody p c s
  | 0x0701 => calReadBody p c s
  | 0x0702 => calStoreBody env p c s
  | 0x0800 => faultReadBody p c s
  | 0x0801 => safeDarkReqBody p c s
  | 0x0802 => dieRetireBody p c s
  | 0x0803 => faultInjectBody env p c s
  | 0x0900 => updateStageBody p c s
  | 0x0901 => updateActivateBody p c s
  | 0x0902 => updateConfirmBody p c s
  | 0x0903 => updateFallbackBody p c s
  | 0x0A00 => counterSnapshotBody p c s
  | 0x0A01 => counterStreamBody p c s
  | 0x0A02 => scrubRunBody p c s
  | 0x0B00 => powerStandbyBody p c s
  | 0x0B01 => thermalReadBody env p c s
  | 0x0B02 => thermalConfigBody p c s
  | _ => s.finish c badOpcode []

/-- Run a fetched command after the shared checks (R59). -/
def State.run (s : State) (p : Packet) (env : List Word) (held : Option Nat) : State :=
  let c := s.ctxOf p held
  s.checked p c (runOpcode env p c)

def CmdRing.advance (r : CmdRing) : CmdRing := { r with head := (r.head + 1) % r.size }

/-- A PCIe error on a ring fetch: the ring is disabled, and a host-interface fault goes to Perimeter (R57). -/
def State.fetchError (s : State) (urgent : Bool) : State :=
  let s := if urgent then { s with hif.ucmd := s.hif.ucmd.disable } else { s with hif.ncmd := s.hif.ncmd.disable }
  ((s.hifErr 2).signal 2).detectOpen 0x000E 0 (b2n urgent) 0

/-- A command that was fetched and held starts once no earlier normal-ring command owes an entry, if it is fenced (R65), and a
channel that it needs is free (03 R73). -/
def State.startFenced (s : State) (p : Packet) (env : List Word) (gen : Nat) : State :=
  if (!p.fence || s.hif.owing.isEmpty) && s.hif.busy.isNone && s.servable p then
    ({ s with hif.fenced := none }).run p env (some gen)
  else s

/-- The conditions of a normal-ring fetch (R48, R54, R64). -/
def State.mayFetch (s : State) : Bool :=
  let r := s.hif.ncmd
  s.ctl.ready && !s.ctl.d3hot && r.enabled && r.head != r.tail && s.hif.stat.enabled && 2 ≤ s.hif.stat.room
    && s.hif.busy.isNone

/-- A slot's command, with two status entries reserved: started, or held. -/
def State.fetched (s : State) (ws env : List Word) : State :=
  let p : Packet := { urgent := false, slot := s.hif.ncmd.head, words := ws }
  let s := ((s.hostRead 64).count 0 176 1)
  let s := { s with hif.ncmd := s.hif.ncmd.advance, hif.stat.reserved := s.hif.stat.reserved + 2 }
  let gen := s.hif.stat.gen
  ({ s with hif.fenced := some (p, env, gen) }).startFenced p env gen

/-- NORMAL_COMMAND_FETCH (R54, R64, R65): a command that is held starts first. -/
def execNormalCommandFetch (slot : SlotRead) (s : State) : Res :=
  let s := s.busyCheck
  .next (match s.hif.fenced with
  | some (p, env, gen) => if s.ctl.ready && !s.ctl.d3hot then s.startFenced p env gen else s
  | none =>
    if !s.mayFetch then s
    else
      match slot with
      | .error => s.fetchError false
      | .words ws env => s.fetched ws env)

/-- URGENT_COMMAND_FETCH (R54, R66). A fence flag in the slot is ignored: R65 speaks of normal-ring commands, and R66 gives an
urgent command its start whatever the normal ring does (DESIGN CHOICE, notes/assumptions/46.md). -/
def execUrgentCommandFetch (slot : SlotRead) (s : State) : Res :=
  let r := s.hif.ucmd
  .next (if !s.ctl.ready || s.ctl.d3hot || !r.enabled || r.head == r.tail || 64 ≤ s.hif.holding.length then s
  else
    match slot with
    | .error => s.fetchError true
    | .words ws env =>
      let p : Packet := { urgent := true, slot := r.head, words := ws }
      if !s.servable p then s
      else ({ (s.hostRead 64).count 0 177 1 with hif.ucmd := r.advance }).run p env none)

end Sys2Proof.Machine
end

