-- ==== Sys2Proof/Machine/Dispatch.lean ====
section
/-! DEFINITION. The dispatch: one arm per command, each a direct call of its meaning. -/

namespace Sys2Proof.Machine

/-- The effect of a command on everything but the queue. -/
def exec (i : Instr) (s : State) : Host.Outcome State Fault Refusal :=
  match i with
  | .powerOnReset record => Sys2Proof.Machine.execPowerOnReset record s
  | .aonSupplyLost => Sys2Proof.Machine.execAonSupplyLost s
  | .perstAsserted => Sys2Proof.Machine.execPerstAsserted s
  | .perstDeasserted record => Sys2Proof.Machine.execPerstDeasserted record s
  | .wakeNLow record => Sys2Proof.Machine.execWakeNLow record s
  | .railStepComplete => Sys2Proof.Machine.execRailStepComplete s
  | .railFailure entry => Sys2Proof.Machine.execRailFailure entry s
  | .bootStart drams => Sys2Proof.Machine.execBootStart drams s
  | .bootComplete compFail crcFail => Sys2Proof.Machine.execBootComplete compFail crcFail s
  | .warmReset => Sys2Proof.Machine.execWarmReset s
  | .softwareReset => Sys2Proof.Machine.execSoftwareReset s
  | .hotReset => Sys2Proof.Machine.execHotReset s
  | .functionLevelReset => Sys2Proof.Machine.execFunctionLevelReset s
  | .linkDown => Sys2Proof.Machine.execLinkDown s
  | .d3hotEntry => Sys2Proof.Machine.execD3hotEntry s
  | .hifDbNcmdWrite value => Sys2Proof.Machine.execHifDbNcmdWrite value s
  | .hifDbUcmdWrite value => Sys2Proof.Machine.execHifDbUcmdWrite value s
  | .hifDbStatWrite value => Sys2Proof.Machine.execHifDbStatWrite value s
  | .normalRingEnable => Sys2Proof.Machine.execNormalRingEnable s
  | .normalRingDisable => Sys2Proof.Machine.execNormalRingDisable s
  | .urgentRingEnable => Sys2Proof.Machine.execUrgentRingEnable s
  | .urgentRingDisable => Sys2Proof.Machine.execUrgentRingDisable s
  | .statusRingEnable => Sys2Proof.Machine.execStatusRingEnable s
  | .statusRingDisable => Sys2Proof.Machine.execStatusRingDisable s
  | .normalCommandFetch slot => Sys2Proof.Machine.execNormalCommandFetch slot s
  | .urgentCommandFetch slot => Sys2Proof.Machine.execUrgentCommandFetch slot s
  | .irqCoalesceTimeout => Sys2Proof.Machine.execIrqCoalesceTimeout s
  | .nop p => Sys2Proof.Machine.execNop p s
  | .info p => Sys2Proof.Machine.execInfo p s
  | .state p => Sys2Proof.Machine.execState p s
  | .clear p => Sys2Proof.Machine.execClear p s
  | .reset p => Sys2Proof.Machine.execReset p s
  | .arm p => Sys2Proof.Machine.execArm p s
  | .disarm p => Sys2Proof.Machine.execDisarm p s
  | .cfgPixelPitch p => Sys2Proof.Machine.execCfgPixelPitch p s
  | .cfgDeviceId p => Sys2Proof.Machine.execCfgDeviceId p s
  | .cfgRenderAhead p => Sys2Proof.Machine.execCfgRenderAhead p s
  | .tableLoad p env => Sys2Proof.Machine.execTableLoad p env s
  | .tableRead p => Sys2Proof.Machine.execTableRead p s
  | .libLoad p env => Sys2Proof.Machine.execLibLoad p env s
  | .libBlockReceived lib block => Sys2Proof.Machine.execLibBlockReceived lib block s
  | .libDrop p => Sys2Proof.Machine.execLibDrop p s
  | .geoBind p => Sys2Proof.Machine.execGeoBind p s
  | .stripeSubmit p => Sys2Proof.Machine.execStripeSubmit p s
  | .makeupSubmit p => Sys2Proof.Machine.execMakeupSubmit p s
  | .stripeAbort p => Sys2Proof.Machine.execStripeAbort p s
  | .ledgerRead p => Sys2Proof.Machine.execLedgerRead p s
  | .ledgerStream p => Sys2Proof.Machine.execLedgerStream p s
  | .ledgerRelease p => Sys2Proof.Machine.execLedgerRelease p s
  | .axisConfig p => Sys2Proof.Machine.execAxisConfig p s
  | .axisParam p => Sys2Proof.Machine.execAxisParam p s
  | .axisHome p => Sys2Proof.Machine.execAxisHome p s
  | .axisMove p => Sys2Proof.Machine.execAxisMove p s
  | .axisStop p => Sys2Proof.Machine.execAxisStop p s
  | .locusConfig p => Sys2Proof.Machine.execLocusConfig p s
  | .compareSet p => Sys2Proof.Machine.execCompareSet p s
  | .timeConfig p => Sys2Proof.Machine.execTimeConfig p s
  | .timeRead p => Sys2Proof.Machine.execTimeRead p s
  | .timeTrigger p => Sys2Proof.Machine.execTimeTrigger p s
  | .chordConfig p env => Sys2Proof.Machine.execChordConfig p env s
  | .roleSet p => Sys2Proof.Machine.execRoleSet p s
  | .chordSend p => Sys2Proof.Machine.execChordSend p s
  | .laneTrain p => Sys2Proof.Machine.execLaneTrain p s
  | .lanePower p => Sys2Proof.Machine.execLanePower p s
  | .laneRetire p => Sys2Proof.Machine.execLaneRetire p s
  | .laneStatus p => Sys2Proof.Machine.execLaneStatus p s
  | .headQuery p => Sys2Proof.Machine.execHeadQuery p s
  | .pulseTableLoad p env => Sys2Proof.Machine.execPulseTableLoad p env s
  | .calRun p => Sys2Proof.Machine.execCalRun p s
  | .calRunComplete => Sys2Proof.Machine.execCalRunComplete s
  | .calRead p => Sys2Proof.Machine.execCalRead p s
  | .calStore p env => Sys2Proof.Machine.execCalStore p env s
  | .faultRead p => Sys2Proof.Machine.execFaultRead p s
  | .safeDarkReq p => Sys2Proof.Machine.execSafeDarkReq p s
  | .dieRetire p => Sys2Proof.Machine.execDieRetire p s
  | .faultInject p env => Sys2Proof.Machine.execFaultInject p env s
  | .updateStage p => Sys2Proof.Machine.execUpdateStage p s
  | .updateStageComplete flashFail image => Sys2Proof.Machine.execUpdateStageComplete flashFail image s
  | .updateActivate p => Sys2Proof.Machine.execUpdateActivate p s
  | .updateConfirm p => Sys2Proof.Machine.execUpdateConfirm p s
  | .updateFallback p => Sys2Proof.Machine.execUpdateFallback p s
  | .counterSnapshot p => Sys2Proof.Machine.execCounterSnapshot p s
  | .counterStream p => Sys2Proof.Machine.execCounterStream p s
  | .scrubRun p => Sys2Proof.Machine.execScrubRun p s
  | .powerStandby p => Sys2Proof.Machine.execPowerStandby p s
  | .thermalRead p env => Sys2Proof.Machine.execThermalRead p env s
  | .thermalConfig p => Sys2Proof.Machine.execThermalConfig p s
  | .laneSelWrite value => Sys2Proof.Machine.execLaneSelWrite value s
  | .laneRetrainRequest => Sys2Proof.Machine.execLaneRetrainRequest s
  | .laneErrorInject => Sys2Proof.Machine.execLaneErrorInject s
  | .locusDinFlagClear din flags => Sys2Proof.Machine.execLocusDinFlagClear din flags s
  | .datumTimeLatch => Sys2Proof.Machine.execDatumTimeLatch s
  | .devTimeLatch => Sys2Proof.Machine.execDevTimeLatch s
  | .counterLoRead die offset => Sys2Proof.Machine.execCounterLoRead die offset s
  | .registerWrite addr width value firmware => Sys2Proof.Machine.execRegisterWrite addr width value firmware s
  | .dmaDoorbell ch => Sys2Proof.Machine.execDmaDoorbell ch s
  | .dmaRunSet ch => Sys2Proof.Machine.execDmaRunSet ch s
  | .dmaRunClear ch => Sys2Proof.Machine.execDmaRunClear ch s
  | .dmaAbort ch => Sys2Proof.Machine.execDmaAbort ch s
  | .dmaOwnerWrite ch firmware => Sys2Proof.Machine.execDmaOwnerWrite ch firmware s
  | .dmaFetchErrorClear ch => Sys2Proof.Machine.execDmaFetchErrorClear ch s
  | .dmaRingBaseWrite ch high value => Sys2Proof.Machine.execDmaRingBaseWrite ch high value s
  | .dmaDescriptorFetch ch answer => Sys2Proof.Machine.execDmaDescriptorFetch ch answer s
  | .dmaBurst ch answer => Sys2Proof.Machine.execDmaBurst ch answer s
  | .dmaTEnable ch => Sys2Proof.Machine.execDmaTEnable ch s
  | .dmaTRdptrWrite ch value => Sys2Proof.Machine.execDmaTRdptrWrite ch value s
  | .classTRecordWrite ch => Sys2Proof.Machine.execClassTRecordWrite ch s
  | .stagingBlockArrival area => Sys2Proof.Machine.execStagingBlockArrival area s
  | .stripeRenderBegin => Sys2Proof.Machine.execStripeRenderBegin s
  | .tesseraCoarseBand die => Sys2Proof.Machine.execTesseraCoarseBand die s
  | .tesseraFineBand die => Sys2Proof.Machine.execTesseraFineBand die s
  | .libraryFetch die corrected ok1 ok2 => Sys2Proof.Machine.execLibraryFetch die corrected ok1 ok2 s
  | .facetTileRender die upset => Sys2Proof.Machine.execFacetTileRender die upset s
  | .densityPacketRx die owner received => Sys2Proof.Machine.execDensityPacketRx die owner received s
  | .stripePassStop die stripe pass => Sys2Proof.Machine.execStripePassStop die stripe pass s
  | .longRangeRow die => Sys2Proof.Machine.execLongRangeRow die s
  | .renderBlock die verifyFails => Sys2Proof.Machine.execRenderBlock die verifyFails s
  | .renderAheadRead die answer upset => Sys2Proof.Machine.execRenderAheadRead die answer upset s
  | .refreshInterval die => Sys2Proof.Machine.execRefreshInterval die s
  | .makeUpBurstRefresh die => Sys2Proof.Machine.execMakeUpBurstRefresh die s
  | .periodicRetraining die => Sys2Proof.Machine.execPeriodicRetraining die s
  | .maxDeferExpiry die => Sys2Proof.Machine.execMaxDeferExpiry die s
  | .scrubRead die upsets => Sys2Proof.Machine.execScrubRead die upsets s
  | .shotPulse t readbackFault strikes => Sys2Proof.Machine.execShotPulse t readbackFault strikes s
  | .passEnd => Sys2Proof.Machine.execPassEnd s
  | .stripeComplete => Sys2Proof.Machine.execStripeComplete s
  | .prefillComplete => Sys2Proof.Machine.execPrefillComplete s
  | .seqPauseExpiry => Sys2Proof.Machine.execSeqPauseExpiry s
  | .approachBegin strikes => Sys2Proof.Machine.execApproachBegin strikes s
  | .trackingMeasurement src => Sys2Proof.Machine.execTrackingMeasurement src s
  | .restMeasurement src => Sys2Proof.Machine.execRestMeasurement src s
  | .abEdge src a b z t => Sys2Proof.Machine.execAbEdge src a b z t s
  | .sincosSample src sin cos t => Sys2Proof.Machine.execSincosSample src sin cos t s
  | .bissCycleStart src t => Sys2Proof.Machine.execBissCycleStart src t s
  | .bissDataReceived src bits delay => Sys2Proof.Machine.execBissDataReceived src bits delay s
  | .bissTimeout src => Sys2Proof.Machine.execBissTimeout src s
  | .lineFault src => Sys2Proof.Machine.execLineFault src s
  | .zStuck src => Sys2Proof.Machine.execZStuck src s
  | .indexEvent src count => Sys2Proof.Machine.execIndexEvent src count s
  | .speedWindowEnd src => Sys2Proof.Machine.execSpeedWindowEnd src s
  | .deviation axis => Sys2Proof.Machine.execDeviation axis s
  | .sourceRevalid src => Sys2Proof.Machine.execSourceRevalid src s
  | .dinChange din level => Sys2Proof.Machine.execDinChange din level s
  | .dinDebounce din => Sys2Proof.Machine.execDinDebounce din s
  | .dinStuck din => Sys2Proof.Machine.execDinStuck din s
  | .profileTick => Sys2Proof.Machine.execProfileTick s
  | .setpointPacketTx => Sys2Proof.Machine.execSetpointPacketTx s
  | .setpointStatusRx words => Sys2Proof.Machine.execSetpointStatusRx words s
  | .setpointStatusTimeout => Sys2Proof.Machine.execSetpointStatusTimeout s
  | .stall axis => Sys2Proof.Machine.execStall axis s
  | .moveComplete axis => Sys2Proof.Machine.execMoveComplete axis s
  | .homingSearchLimit axis => Sys2Proof.Machine.execHomingSearchLimit axis s
  | .triggerFire trigger => Sys2Proof.Machine.execTriggerFire trigger s
  | .sync port m => Sys2Proof.Machine.execSync port m s
  | .followUp port m => Sys2Proof.Machine.execFollowUp port m s
  | .delayResp port m => Sys2Proof.Machine.execDelayResp port m s
  | .announce port m dataset => Sys2Proof.Machine.execAnnounce port m dataset s
  | .pdelayReq port m => Sys2Proof.Machine.execPdelayReq port m s
  | .pdelayResp port m => Sys2Proof.Machine.execPdelayResp port m s
  | .pdelayRespFollowUp port m => Sys2Proof.Machine.execPdelayRespFollowUp port m s
  | .delayReqSend port domain => Sys2Proof.Machine.execDelayReqSend port domain s
  | .syncTimeout domain => Sys2Proof.Machine.execSyncTimeout domain s
  | .announceReceiptTimeout domain => Sys2Proof.Machine.execAnnounceReceiptTimeout domain s
  | .deviceTimeStep => Sys2Proof.Machine.execDeviceTimeStep s
  | .arpRequest port mac ip target => Sys2Proof.Machine.execArpRequest port mac ip target s
  | .icmpEchoRequest port words => Sys2Proof.Machine.execIcmpEchoRequest port words s
  | .ethernetLinkChange port up rate => Sys2Proof.Machine.execEthernetLinkChange port up rate s
  | .data port words => Sys2Proof.Machine.execData port words s
  | .ack port words => Sys2Proof.Machine.execAck port words s
  | .staleRole port words => Sys2Proof.Machine.execStaleRole port words s
  | .roleAnnounce port words => Sys2Proof.Machine.execRoleAnnounce port words s
  | .syncReady port words => Sys2Proof.Machine.execSyncReady port words s
  | .syncGo port words => Sys2Proof.Machine.execSyncGo port words s
  | .syncReadySend => Sys2Proof.Machine.execSyncReadySend s
  | .stitchOffer port words => Sys2Proof.Machine.execStitchOffer port words s
  | .ledgerBatch port words => Sys2Proof.Machine.execLedgerBatch port words s
  | .ledgerBatchSend => Sys2Proof.Machine.execLedgerBatchSend s
  | .chordRetransmit dest => Sys2Proof.Machine.execChordRetransmit dest s
  | .forwardFrameTx lane control => Sys2Proof.Machine.execForwardFrameTx lane control s
  | .returnFrameRx lane bits eye => Sys2Proof.Machine.execReturnFrameRx lane bits eye s
  | .returnFrameMissing lane => Sys2Proof.Machine.execReturnFrameMissing lane s
  | .echoTimeout lane => Sys2Proof.Machine.execEchoTimeout lane s
  | .firedReportMissing lane shot => Sys2Proof.Machine.execFiredReportMissing lane shot s
  | .controlElementResend lane => Sys2Proof.Machine.execControlElementResend lane s
  | .tempReportTimeout lane => Sys2Proof.Machine.execTempReportTimeout lane s
  | .laneTrainStepDone lane => Sys2Proof.Machine.execLaneTrainStepDone lane s
  | .rateCheckDone lane failed eyeRet => Sys2Proof.Machine.execRateCheckDone lane failed eyeRet s
  | .laneTrainTimeout lane => Sys2Proof.Machine.execLaneTrainTimeout lane s
  | .retrainComplete lane => Sys2Proof.Machine.execRetrainComplete lane s
  | .retrainBoundExpiry lane => Sys2Proof.Machine.execRetrainBoundExpiry lane s
  | .laneDrainEnd lane => Sys2Proof.Machine.execLaneDrainEnd lane s
  | .headTripNAsserted => Sys2Proof.Machine.execHeadTripNAsserted s
  | .headTripNDeasserted => Sys2Proof.Machine.execHeadTripNDeasserted s
  | .darkNAsserted => Sys2Proof.Machine.execDarkNAsserted s
  | .darkNDeasserted => Sys2Proof.Machine.execDarkNDeasserted s
  | .faultReport cause die unit detail0 detail1 => Sys2Proof.Machine.execFaultReport cause die unit detail0 detail1 s
  | .faultPolicyStep => Sys2Proof.Machine.execFaultPolicyStep s
  | .watchdogTimeout die => Sys2Proof.Machine.execWatchdogTimeout die s
  | .lockstepMismatch die => Sys2Proof.Machine.execLockstepMismatch die s
  | .clockMonitorFault die clock => Sys2Proof.Machine.execClockMonitorFault die clock s
  | .voltageMonitorFault die rail status => Sys2Proof.Machine.execVoltageMonitorFault die rail status s
  | .fabricHopFault die port => Sys2Proof.Machine.execFabricHopFault die port s
  | .pmbusAlert monitorFault => Sys2Proof.Machine.execPmbusAlert monitorFault s
  | .pmbusTransaction entry ok => Sys2Proof.Machine.execPmbusTransaction entry ok s
  | .pmbusTelemetry pout => Sys2Proof.Machine.execPmbusTelemetry pout s
  | .sensorConversion die sensor reading failed => Sys2Proof.Machine.execSensorConversion die sensor reading failed s
  | .housekeepingRoundEnd slack => Sys2Proof.Machine.execHousekeepingRoundEnd slack s
  | .guardRound die => Sys2Proof.Machine.execGuardRound die s
  | .calMeasurement die item index value quality => Sys2Proof.Machine.execCalMeasurement die item index value quality s
  | .calStep die item index => Sys2Proof.Machine.execCalStep die item index s
  | .sensorCalComplete offsets => Sys2Proof.Machine.execSensorCalComplete offsets s
  | .mirrorSnapshot => Sys2Proof.Machine.execMirrorSnapshot s
  | .counterStreamPeriod => Sys2Proof.Machine.execCounterStreamPeriod s
  | .compJobStart die control => Sys2Proof.Machine.execCompJobStart die control s
  | .compContextSave die => Sys2Proof.Machine.execCompContextSave die s
  | .compContextRestore die => Sys2Proof.Machine.execCompContextRestore die s
  | .compJobDone die => Sys2Proof.Machine.execCompJobDone die s
  | .crcStart die unit control => Sys2Proof.Machine.execCrcStart die unit control s
  | .crcData die unit value => Sys2Proof.Machine.execCrcData die unit value s
  | .crcData8 die unit value => Sys2Proof.Machine.execCrcData8 die unit value s
  | .crcValueWrite die unit value => Sys2Proof.Machine.execCrcValueWrite die unit value s
  | .crcBytesWrite die unit value => Sys2Proof.Machine.execCrcBytesWrite die unit value s
  | .d3hotExit => Sys2Proof.Machine.execD3hotExit s
  | .irregularBar0Read addr width dwords => Sys2Proof.Machine.execIrregularBar0Read addr width dwords s

end Sys2Proof.Machine
end

