-- ==== Sys2Proof/Safety.lean ====
section
/-! DEFINITION. What claims are stated in: the invariant of the block, what a report may change, and when a command packet
runs. -/

namespace Sys2Proof.Machine

/-! ### The invariant: units keep their numbers (00_scope.md R4, 10_rolgo_lanes.md R248), memories their canonical form -/

/-- A die's number, its lanes' numbers, and the contents of its memories. -/
def Die.shape (d : Die) : Nat × List Nat × List Host.Cell × List (Nat × Stored) :=
  (d.id, d.lanes.map Lane.id, d.mem.dram, d.sram.cells)

/-- The fused values that never change: all but the minimum security version, which an image that is confirmed raises
(18_boot_update.md R455). -/
def Fuses.lasting (f : Fuses) : Fuses := { f with minSecurity := 0 }

/-- The lasting fused values, the queue and every die's shape. -/
def State.shape (s : State) : Fuses × List Instr × List (Nat × List Nat × List Host.Cell × List (Nat × Stored)) :=
  (s.fuses.lasting, s.pending, s.dies.map Die.shape)

/-- Memory in its canonical form: addresses strictly rising, no entry equal to what an unlisted address reads as. -/
def Memory.wf (m : List Host.Cell) : Bool := sparseWf 0 m

/-- An SRAM in its canonical form. -/
def Sram.wf (m : List (Nat × Stored)) : Bool := sparseWf sramZero m

/-- Die d of a device: its number, lanes 12 d to 12 d + 11, memories in canonical form. -/
def dieShapeOk (d : Nat) (x : Nat × List Nat × List Host.Cell × List (Nat × Stored)) : Prop :=
  x.1 = d ∧ x.2.1 = (List.range 12).map (12 * d + ·) ∧ Memory.wf x.2.2.1 = true ∧ Sram.wf x.2.2.2 = true

/-- The lasting fused values and the queue are the ones given; there are as many dies as the variant has, each with its number, its
12 lanes and canonical memories. -/
def ShapeOk (f : Fuses) (queue : List Instr)
    (x : Fuses × List Instr × List (Nat × List Nat × List Host.Cell × List (Nat × Stored))) : Prop :=
  x.1 = f ∧ x.2.1 = queue ∧ x.2.2.length = f.variant.dies ∧ ∀ d y, x.2.2[d]? = some y → dieShapeOk d y

/-- The invariant of the block: units keep their numbers, memories their canonical form. -/
def State.Inv (s : State) : Prop := ShapeOk s.fuses.lasting s.pending s.shape

/-! ### Commands that run -/

/-- The outcome is a next state with the property given. -/
def Completes (r : Res) (P : State → Prop) : Prop := ∃ t, r = .next t ∧ P t

/-- A packet with the opcode its row fixes. -/
def Packet.ofRow (opcode : Nat) (p : Packet) : Packet :=
  { p with words := BitVec.ofNat 32 (p.tag * 2 ^ 16 + opcode) :: p.words.tail }

/-- What identifies a row's command in its status entries. -/
def State.cmd (s : State) (opcode : Nat) (p : Packet) : Ctx := s.ctxOf (Packet.ofRow opcode p) none

/-- A row's command runs: the interpreter accepts it, and it passes every check of R59 that all commands share. -/
abbrev State.Takes (s : State) (opcode : Nat) (p : Packet) : Prop :=
  s.accepts (Packet.ofRow opcode p) = true ∧ s.preCheck (Packet.ofRow opcode p) = none

/-- Everything but what a report may change: status-entry bookkeeping, interrupts, performance counters, emissions. -/
def State.unreported (s : State) : State :=
  { s with
    hif := { s.hif with stat := { s.hif.stat with tail := 0, phase := true, reserved := 0 }, holding := [], deferred := [],
                        owing := [], unsignalled := 0 }
    ctl.irqStat := 0, ctl.msixPending := 0, out := []
    dies := s.dies.map fun d => { d with perf.cnt := [] } }

/-- The two states differ at most in what a report may change. -/
def State.SameBut (s t : State) : Prop := t.unreported = s.unreported

/-! ### Datagrams that are heard -/

/-- A Chord datagram of a type reaches the device on a port with its link: its header h passes R344's tests, from peer p. -/
abbrev State.Gets (s : State) (port type : Nat) (ws : List Word) (h : ChordHdr) (p : Peer) : Prop :=
  s.portUp port = true ∧ s.chord.enabled = true ∧ chordHeader ws = some h ∧ s.peer? h.src = some p ∧ h.dst = s.ctl.deviceId
  ∧ h.type = type ∧ (h.role.all fun r => s.roleMatches r h.epoch h.src) = true

/-- It is also the next message of its sender's stream, which starts again with a new session. -/
abbrev State.Hears (s : State) (port type : Nat) (ws : List Word) (h : ChordHdr) (p : Peer) : Prop :=
  s.Gets port type ws h p ∧ h.seq = (if p.session = h.session then p.last else 0) + 1

/-- The words of an ACK to peer p for its message seq. -/
def State.ackWords (s : State) (p : Peer) (seq : Nat) : List Word :=
  let h : ChordHdr :=
    { type := 2, role := none, dst := p.id, src := s.ctl.deviceId, epoch := 0, seq := 0, session := s.chord.session
      length := 0, ref := seq }
  h.words []

/-- The words of a message to peer p, with the stream's next seq. -/
def State.msgWords (s : State) (p : Peer) (type : Nat) (role : Option Nat) (epoch seq : Nat) (payload : List Word) : List Word :=
  let h : ChordHdr :=
    { type := type, role := role, dst := p.id, src := s.ctl.deviceId, epoch := epoch, seq := seq, session := s.chord.session
      length := 4 * payload.length, ref := 0 }
  h.words payload

/-- Words of a record of the receive stream (R346), padded with zeros to a multiple of 32 bytes. -/
def State.recordWords (s : State) (type src seq epoch : Nat) (payload : List Word) : List Word :=
  let pad := (8 - payload.length % 8) % 8
  [type + src * 256, seq, epoch, s.timeSec % 2 ^ 32, s.timeSec / 2 ^ 32, s.timeNs, 4 * payload.length,
    32 + 4 * (payload.length + pad)].map (BitVec.ofNat 32) ++ payload ++ List.replicate pad 0

end Sys2Proof.Machine
end

