-- ==== Sys2Proof/Certificates/Slice0/Obligations.lean ====
section
/-! DEFINITION. The statements for the provers. Each docstring names the rules of the spec it formalises, or says that it
rests on a choice of the model. -/

open Sys2Proof Sys2Proof.Machine

/-- The command at the front of the queue takes effect on the state with the queue's rest (the model's own queue). -/
def Obligations.StepTakesFront : Prop :=
  ∀ (c : Instr) (rest : List Instr) (s : State), s.pending = c :: rest → step s = exec c { s with pending := rest }

/-- An empty queue: one tick of 2.5 ns (DESIGN CHOICE, log entry 2), in which timebases and device time go on (01 R32, 13 R333). -/
def Obligations.IdleStepTicks : Prop :=
  ∀ s : State, s.pending = [] →
    Completes (step s) fun t =>
      (∀ (d : Nat) (x : Die), s.dies[d]? = some x →
        t.dies[d]? = some { x with tb := if x.pow.on.getLsbD 1 then x.tb + 1 else x.tb })
      ∧ (s.domOn 0 7 = true → s.datum.rho = 0 →
        t.datum.time = ((s.datum.time : Int) + 5 * 2 ^ 47 * (1000000000 + s.datum.rate) / 1000000000).toNat ∧ t.datum.rho = 0)
      ∧ (s.domOn 0 7 = false → t.datum = s.datum)
      ∧ t.ctl = s.ctl ∧ t.hif = s.hif ∧ t.perim = s.perim ∧ t.seq = s.seq ∧ t.locus = s.locus ∧ t.arc = s.arc
      ∧ t.out = s.out ∧ t.pending = []

/-- The state after reset meets the invariant. -/
def Obligations.ResetMeetsInvariant : Prop := State.reset.Inv

/-- Every step keeps the invariant and the lasting fused values, and the queue loses exactly its front. -/
def Obligations.StepKeepsInvariant : Prop :=
  ∀ s t : State, s.Inv → step s = .next t → t.Inv ∧ t.fuses.lasting = s.fuses.lasting ∧ t.pending = s.pending.tail

/-- The state after power-on reset, field by field of the values that the register maps give (18 Table 18-1, 19 R464). -/
def Obligations.ResetValues : Prop :=
  let s := State.reset
  s.ctl.dev = .standby ∧ s.ctl.ready = false ∧ s.ctl.irqStat = 0 ∧ s.ctl.err = 0 ∧ s.ctl.scratch = 0
  ∧ s.perim.gateClosed = true ∧ s.perim.log = [] ∧ s.perim.nextSeq = 0
  ∧ s.hif.ncmd.enabled = false ∧ s.hif.ucmd.enabled = false ∧ s.hif.stat.enabled = false ∧ s.hif.stat.phase = true
  ∧ s.datum.time = 0 ∧ s.pending = [] ∧ s.out = []
  ∧ (∀ l ∈ s.lanes, l.power = .off ∧ l.state = .down ∧ l.retired = false)
  ∧ (∀ d ∈ s.dies, d.retired = false ∧ d.mem.state = .off ∧ d.mem.dram = [] ∧ d.sram.cells = [] ∧ d.tb = 0)
  ∧ (∀ c ∈ s.dmaD, c.state = .stopped) ∧ (∀ c ∈ s.dmaT, c.enabled = false)

/-- OFF, STANDBY and the rail sequence (01 Table 1-7, 16 R404-R408, 20 R476). -/
def Obligations.PowerRails : Prop :=
  (∀ (s : State) (record : List Word), s.ctl.dev = .off → s.ctl.perst = true →
    Completes (exec (.powerOnReset record) s) fun t =>
      t.ctl.dev = .standby ∧ t.ctl.ready = false ∧ t.ctl.boot = .idle ∧ t.fuses = s.fuses ∧ t.flash = s.flash
      ∧ t.perim = Perim.reset ∧ t.hif = { Hif.reset with gen := s.hif.gen + 1 } ∧ t.dies = (List.range s.nDies).map Die.reset
      ∧ t.out = s.out)
  ∧ (∀ (s : State) (record : List Word) (rails : List Rail) (k : Nat), s.ctl.dev = .off → s.ctl.perst = false →
      parseRecord s.nDies record = some rails → nextStep rails none = some k →
    Completes (exec (.powerOnReset record) s) fun t =>
      t.ctl.dev = .standby ∧ t.ctl.ready = false ∧ t.ctl.boot = .rails k ∧ t.fuses = s.fuses ∧ t.flash = s.flash
      ∧ t.perim = Perim.reset ∧ t.hif = { Hif.reset with gen := s.hif.gen + 1 } ∧ t.dies = (List.range s.nDies).map Die.reset
      ∧ t.therm.rails.length = rails.length ∧ ∀ r ∈ t.therm.rails, (r.on = true ↔ r.step = k))
  ∧ (∀ (s : State) (record : List Word), s.ctl.dev = .off → s.ctl.perst = false → parseRecord s.nDies record = none →
    Completes (exec (.powerOnReset record) s) fun t =>
      t.ctl.dev = .standby ∧ t.ctl.ready = false ∧ t.ctl.boot = .idle ∧ t.therm.recordBad = true ∧ t.fuses = s.fuses
      ∧ t.flash = s.flash ∧ t.dies = (List.range s.nDies).map Die.reset)
  ∧ (∀ s : State, Completes (exec .aonSupplyLost s) fun t =>
      t.ctl.dev = .off ∧ t.ctl.ready = false ∧ t.fuses = s.fuses ∧ t.flash = s.flash ∧ t.seq = Seq.reset ∧ t.out = s.out
      ∧ t.dies.length = s.nDies ∧ ∀ d ∈ t.dies, d.pow.on = 0 ∧ d.pow.iso = 0xFF)
  ∧ (∀ (s : State) (k j : Nat), s.ctl.boot = .rails k → nextStep s.therm.rails (some k) = some j →
    Completes (exec .railStepComplete s) fun t =>
      t.ctl = { s.ctl with boot := .rails j } ∧ t.hif = s.hif ∧ t.dies = s.dies
      ∧ t.therm = { s.therm with rails := s.therm.rails.map fun r => if r.step = j then { r with on := true } else r })
  ∧ (∀ (s : State) (k : Nat), s.ctl.boot = .rails k → nextStep s.therm.rails (some k) = none →
    Completes (exec .railStepComplete s) fun t =>
      t.ctl = { s.ctl with boot := .rom } ∧ t.therm = s.therm ∧ t.hif = s.hif ∧ t.out = s.out
      ∧ ∀ (i : Nat) (d : Die), s.dies[i]? = some d →
          ∃ e, t.dies[i]? = some e ∧ e.pow.on = d.runDomains ∧ e.pow.iso = ~~~d.runDomains ∧ e.apex = 1 ∧ e.lanes = d.lanes)
  ∧ (∀ (s : State) (k entry : Nat), s.ctl.boot = .rails k →
    Completes (exec (.railFailure entry) s) fun t =>
      t.ctl = { s.ctl with boot := .idle } ∧ t.therm.pgoodFail = true ∧ t.therm.railFail = entry % 32
      ∧ (∀ r ∈ t.therm.rails, r.on = true → r.keep = true) ∧ t.dies = s.dies ∧ t.hif = s.hif)

/-- Entries to STANDBY and what a bad power record does (16 R404, R408). -/
def Obligations.StandbyEntries : Prop :=
  (∀ s : State, s.ctl.dev ≠ .off →
    Completes (exec .perstAsserted s) fun t =>
      t.ctl.dev = .standby ∧ t.ctl.perst = true ∧ t.ctl.hold = false ∧ t.fuses = s.fuses
      ∧ (s.ctl.dev ≠ .standby → t.ctl.bootCause = 1 ∧ t.ctl.ready = false ∧ t.ctl.boot = .idle ∧ t.libs = s.libs.filter (fun l => l.load.isNone)
          ∧ ∀ d ∈ t.dies, d.pow.on = 1 ∧ d.pow.iso = 0xFE))
  ∧ (∀ (s : State) (record : List Word), s.ctl.hold = true →
    exec (.perstDeasserted record) s = .next { s with ctl.perst := false })
  ∧ (∀ (s : State) (record : List Word), s.ctl.dev = .standby → s.ctl.boot = .idle → s.ctl.hold = false →
      s.therm.latched = false →
    (parseRecord s.nDies record = none →
      exec (.perstDeasserted record) s = .next { s with ctl.perst := false, therm.recordBad := true })
    ∧ ∀ rails k, parseRecord s.nDies record = some rails → nextStep rails none = some k →
      Completes (exec (.perstDeasserted record) s) fun t =>
        t.ctl = { s.ctl with perst := false, boot := .rails k } ∧ t.dies = s.dies ∧ t.hif = s.hif
        ∧ (∀ r ∈ t.therm.rails, r.step = k → r.on = true)
        ∧ (∀ r ∈ t.therm.rails, r.step ≠ k → r.on = true → r.keep = true))
  ∧ (∀ (s : State) (record : List Word), s.ctl.dev = .standby → s.ctl.hold = true → s.ctl.perst = true →
    exec (.wakeNLow record) s = .next { s with ctl.hold := false })
  ∧ (∀ (s : State) (record : List Word), s.ctl.dev = .standby → s.ctl.hold = true → s.ctl.perst = false →
      s.therm.latched = false →
    (parseRecord s.nDies record = none →
      exec (.wakeNLow record) s = .next { s with ctl.hold := false, therm.recordBad := true })
    ∧ ∀ rails k, parseRecord s.nDies record = some rails → nextStep rails none = some k →
      Completes (exec (.wakeNLow record) s) fun t =>
        t.ctl = { s.ctl with hold := false, boot := .rails k } ∧ t.dies = s.dies ∧ t.hif = s.hif
        ∧ (∀ r ∈ t.therm.rails, r.step = k → r.on = true)
        ∧ (∀ r ∈ t.therm.rails, r.step ≠ k → r.on = true → r.keep = true))
  ∧ (∀ (s : State) (p : Packet), s.Takes 0x0B00 p →
    Completes (exec (.powerStandby p) s) fun t =>
      t = { (s.finish (s.cmd 0x0B00 p) ok []).enterStandby with ctl.hold := true }
      ∧ t.ctl.dev = .standby ∧ t.ctl.hold = true ∧ t.ctl.ready = false ∧ ∀ d ∈ t.dies, d.pow.on = 1)

/-- Boot and resets (18 R438-R440, R446-R448; Table 18-1). -/
def Obligations.BootAndResetRows : Prop :=
  (∀ (s : State) (drams : List DramReport) (b : BankImage), s.ctl.boot = .rom → s.selectorOr.trial = false →
      s.memoryStarts drams = true → s.bankVerifies s.selectorOr.active = true →
      s.flash.banks[s.selectorOr.active]? = some (some b) →
    Completes (exec (.bootStart drams) s) fun t =>
      t.ctl = { s.ctl with boot := .loading, bank := s.selectorOr.active, fw := bankVersion b, trials := 0 }
      ∧ t.flash = s.flash ∧ t.hif = s.hif ∧ t.perim = s.perim ∧ t.out = s.out
      ∧ ∀ (i : Nat) (d : Die), s.dies[i]? = some d →
          ∃ e, t.dies[i]? = some e ∧ e.apex = 2 ∧ e.imageOk = true ∧ e.pow = d.pow ∧ e.lanes = d.lanes ∧ e.sram = d.sram
            ∧ (d.retired = false → e.mem.state = .active))
  ∧ (∀ s : State, s.resettable = true →
    Completes (exec .warmReset s) fun t =>
      t.ctl.dev = .standby ∧ t.ctl.ready = false ∧ t.ctl.boot = .rom ∧ t.ctl.resetRequest = none ∧ t.seq.stripes = []
      ∧ t.hif = { Hif.reset with gen := s.hif.gen + 1 } ∧ t.locus = Locus.reset ∧ t.arc = Arc.reset ∧ t.datum = Datum.reset
      ∧ t.chord = Chord.reset ∧ t.tables = s.tables ∧ (s.ctl.resetRequest = none → t.ctl.bootCause = 2))
  ∧ (∀ s : State, s.resettable = true →
    Completes (exec .softwareReset s) fun t =>
      t.ctl.dev = .standby ∧ t.ctl.ready = false ∧ t.ctl.boot = .rom ∧ t.ctl.bootCause = 3 ∧ t.seq.stripes = []
      ∧ t.hif = { Hif.reset with gen := s.hif.gen + 1 } ∧ t.locus = Locus.reset ∧ t.arc = Arc.reset ∧ t.datum = Datum.reset
      ∧ t.chord = Chord.reset ∧ t.tables = Tables.reset ∧ t.libs = [])
  ∧ (∀ (s : State) (p : Packet), s.Takes 0x0004 p →
    exec (.reset p) s = .next
      (if p.param 0 = 1 then { s.finish (s.cmd 0x0004 p) ok [] with ctl.resetRequest := some .warm }
       else if p.param 0 = 2 then { s.finish (s.cmd 0x0004 p) ok [] with ctl.resetRequest := some .software }
       else s.finish (s.cmd 0x0004 p) badParam []))

/-- Link events (02 R48, R49; 03 R94). -/
def Obligations.LinkEvents : Prop :=
  (∀ s : State, s.domOn 0 7 = true → s.seq.stripes = [] →
    exec .hotReset s = .next { s with
        hif := { s.hif with
          ncmd := s.hif.ncmd.disable, ucmd := s.hif.ucmd.disable, stat := s.hif.stat.disable, holding := [], deferred := []
          fenced := none, owing := [], gen := s.hif.gen + 1, unsignalled := 0 }
        pcie := Pcie.reset, ctl.msixMask := BitVec.allOnes 64, ctl.msixPending := 0
        dmaD := s.dmaD.zipIdx.map fun c => if c.1.firmware then c.1 else DmaD.reset (6 ≤ c.2)
        dmaT := List.replicate 8 DmaT.reset
        seq.stream := none, perf.stream := none, locus.captureCh := none, datum.captureCh := none
        chord.receiveCh := none })
  ∧ (∀ s : State, exec .functionLevelReset s = exec .hotReset s ∧ exec .linkDown s = exec .hotReset s)
  ∧ (∀ s : State, s.domOn 0 7 = false → exec .hotReset s = .next s)
  ∧ (∀ s : State, s.domOn 0 7 = true → exec .d3hotEntry s = .next { s with ctl.d3hot := true })
  ∧ (∀ s : State, s.ctl.d3hot = true → s.hif.deferred = [] → s.hif.holding = [] →
    Completes (exec .d3hotExit s) fun t =>
      t.ctl.d3hot = false ∧ t.hif = s.hif ∧ t.dies = s.dies
      ∧ (∀ v < 28, s.ctl.msixPending.getLsbD v = true → s.ctl.msixMask.getLsbD v = false →
          Emission.msix v ∈ t.out ∧ t.ctl.msixPending.getLsbD v = false)
      ∧ ∀ v, s.ctl.msixMask.getLsbD v = true → t.ctl.msixPending.getLsbD v = s.ctl.msixPending.getLsbD v)

/-- The rings' registers (02 R52, R56, R71). -/
def Obligations.RingRegisters : Prop :=
  (∀ (s : State) (v : Word), s.hifOn = true →
    exec (.hifDbNcmdWrite v) s = .next (if v.toNat % 2 ^ 13 < 2 ^ s.hif.ncmd.log2 then { s with hif.ncmd.tail := v.toNat % 2 ^ 13 } else s.hifErr 0)
    ∧ exec (.hifDbUcmdWrite v) s = .next (if v.toNat % 2 ^ 13 < 2 ^ s.hif.ucmd.log2 then { s with hif.ucmd.tail := v.toNat % 2 ^ 13 } else s.hifErr 0)
    ∧ (s.hif.holding = [] → exec (.hifDbStatWrite v) s = .next
        (if v.toNat % 2 ^ 13 < 2 ^ s.hif.stat.log2 then { s with hif.stat.head := v.toNat % 2 ^ 13 } else s.hifErr 0)))
  ∧ (∀ s : State, s.hifOn = true →
    exec .normalRingEnable s = .next
        (if s.hif.ncmd.enabled then s else { s with hif.ncmd.enabled := true, hif.ncmd.head := 0, hif.ncmd.tail := 0 })
    ∧ exec .urgentRingEnable s = .next
        (if s.hif.ucmd.enabled then s else { s with hif.ucmd.enabled := true, hif.ucmd.head := 0, hif.ucmd.tail := 0 })
    ∧ exec .statusRingEnable s = .next
        (if s.hif.stat.enabled then s
         else { s with hif.stat.enabled := true, hif.stat.tail := 0, hif.stat.head := 0, hif.stat.phase := true })
    ∧ exec .normalRingDisable s = .next { s with hif.ncmd.enabled := false }
    ∧ exec .urgentRingDisable s = .next { s with hif.ucmd.enabled := false }
    ∧ Completes (exec .statusRingDisable s) fun t =>
        t.hif.stat.enabled = false ∧ t.hif.holding = [] ∧ t.hif.deferred = [] ∧ t.hif.ncmd = s.hif.ncmd ∧ t.hif.ucmd = s.hif.ucmd
        ∧ t.hif.owing = s.hif.owing ∧ t.ctl = s.ctl ∧ t.out = s.out
        ∧ (s.hif.stat.enabled = true → t.hif.stat.reserved = 0))
  ∧ (∀ s : State, 0 < s.hif.unsignalled → 0 < s.hif.coalUs → s.ctl.d3hot = false → s.ctl.msixMask.getLsbD 0 = false →
    exec .irqCoalesceTimeout s = .next { s with hif.unsignalled := 0, out := s.out ++ [Emission.msix 0] })

/-- Command fetches (02 R48, R53, R54, R57, R64). -/
def Obligations.CommandFetch : Prop :=
  (∀ (s : State) (ws env : List Word), s.hif.fenced = none → s.hif.busy = none → s.mayFetch = true → (wordAt ws 1) % 2 = 0 →
      s.servable { urgent := false, slot := s.hif.ncmd.head, words := ws } = true →
    let r := { s.hif.ncmd with head := (s.hif.ncmd.head + 1) % 2 ^ s.hif.ncmd.log2 }
    exec (.normalCommandFetch (.words ws env)) s = .next
      (({ (s.hostRead 64).count 0 176 1 with hif.ncmd := r, hif.stat.reserved := s.hif.stat.reserved + 2 }).run
        { urgent := false, slot := s.hif.ncmd.head, words := ws } env (some s.hif.stat.gen)))
  ∧ (∀ s : State, s.hif.fenced = none → s.hif.busy = none → s.mayFetch = true →
    exec (.normalCommandFetch .error) s = .next
      (((({ s with hif.ncmd.enabled := false }).hifErr 2).signal 2).detectOpen 0x000E 0 0 0))
  ∧ (∀ (s : State) (slot : SlotRead), s.hif.fenced = none → s.hif.busy = none → s.mayFetch = false →
    exec (.normalCommandFetch slot) s = .next s)
  ∧ (∀ (s : State) (ws env : List Word), s.ctl.ready = true → s.ctl.d3hot = false → s.hif.ucmd.enabled = true →
      s.hif.ucmd.head ≠ s.hif.ucmd.tail → s.hif.holding.length < 64 →
      s.servable { urgent := true, slot := s.hif.ucmd.head, words := ws } = true →
    let r := { s.hif.ucmd with head := (s.hif.ucmd.head + 1) % 2 ^ s.hif.ucmd.log2 }
    exec (.urgentCommandFetch (.words ws env)) s = .next
      (({ (s.hostRead 64).count 0 177 1 with hif.ucmd := r }).run
        { urgent := true, slot := s.hif.ucmd.head, words := ws } env none))
  ∧ (∀ s : State, s.ctl.ready = true → s.ctl.d3hot = false → s.hif.ucmd.enabled = true →
      s.hif.ucmd.head ≠ s.hif.ucmd.tail → s.hif.holding.length < 64 →
    exec (.urgentCommandFetch .error) s = .next
      (((({ s with hif.ucmd.enabled := false }).hifErr 2).signal 2).detectOpen 0x000E 0 1 0))

/-- The commands of 0x0000 to 0x0006, CFG_PIXEL_PITCH, CFG_DEVICE_ID and TIME_READ (02 Table 2-6, 01 R41, 15 R389). -/
def Obligations.DeviceCommands : Prop :=
  ∀ (s : State) (p : Packet),
    (s.Takes 0x0000 p → exec (.nop p) s = .next (s.finish (s.cmd 0x0000 p) ok []))
    ∧ (s.Takes 0x0001 p → exec (.info p) s = .next (s.finish (s.cmd 0x0001 p) ok
        [s.fuses.variant.dies * 256 + s.nDies, s.ctl.fw.toNat, s.dieMask, s.usableColumns.1 + s.usableColumns.2 * 65536, s.ctl.deviceId]))
    ∧ (s.Takes 0x0002 p → exec (.state p) s = .next (s.finish (s.cmd 0x0002 p) ok
        [s.ctl.dev.code + b2n s.perim.replace * 256 + b2n (s.causes != 0) * 512, s.maxRate, s.ctl.epoch,
          match s.executing? with | some st => st.id | none => 0xFFFFFFFF, s.seq.ledger.length]))
    ∧ (s.Takes 0x0003 p → exec (.clear p) s = .next
        (if s.causes = 0 then (s.setDev .configured).finish (s.cmd 0x0003 p) ok [] else s.finish (s.cmd 0x0003 p) safeDarkActive []))
    ∧ (s.Takes 0x0005 p → exec (.arm p) s = .next
        (if s.ctl.dev = .armed then s.finish (s.cmd 0x0005 p) ok [s.maxRate]
         else if s.armable then (s.setDev .armed).finish (s.cmd 0x0005 p) ok [s.maxRate]
         else s.finish (s.cmd 0x0005 p) wrongState []))
    ∧ (s.Takes 0x0006 p → exec (.disarm p) s = .next
        ((((s.closeGates.setDev .configured).removeQueued wrongState).releaseAxes).finish (s.cmd 0x0006 p) ok []))
    ∧ (s.Takes 0x0100 p → exec (.cfgPixelPitch p) s = .next
        (if 5000 ≤ p.param 0 ∧ p.param 0 ≤ 50000000 then { s.finish (s.cmd 0x0100 p) ok [] with ctl.pixelPitch := p.param 0 }
         else s.finish (s.cmd 0x0100 p) badParam []))
    ∧ (s.Takes 0x0101 p → exec (.cfgDeviceId p) s = .next
        { s.finish (s.cmd 0x0101 p) ok [] with ctl.deviceId := p.param 0 % 1024 })
    ∧ (s.Takes 0x0501 p → exec (.timeRead p) s = .next (s.finish (s.cmd 0x0501 p) ok
        [s.timeSec % 2 ^ 32, s.timeSec / 2 ^ 32, s.timeNs, s.timeFrac]))

/-- Syndrome decoding (04 R111, Table 4-4), the check bits recomputed from the equations of R110. -/
def Obligations.SyndromeTable : Prop :=
  ∀ w : Stored,
    let d := fun i => w.getLsbD i
    let c0 := d 0 ^^ d 1 ^^ d 3 ^^ d 4 ^^ d 6 ^^ d 8
    let c1 := d 0 ^^ d 2 ^^ d 3 ^^ d 5 ^^ d 6 ^^ d 9
    let c2 := d 1 ^^ d 2 ^^ d 3 ^^ d 7 ^^ d 10
    let c3 := d 4 ^^ d 5 ^^ d 6 ^^ d 7 ^^ d 11
    let s := b2n c0 + 2 * b2n c1 + 4 * b2n c2 + 8 * b2n c3
    let odd := ((List.range 13).filter fun i => d i).length % 2 = 1
    let b : Byte := w.extractLsb' 0 8
    (s = 0 ∧ ¬odd → sramDecode w = .clean b)
    ∧ (s ∈ [0, 1, 2, 4, 8] ∧ odd → sramDecode w = .corrected b)
    ∧ (∀ x ∈ [(3, 0), (5, 1), (6, 2), (7, 3), (9, 4), (10, 5), (11, 6), (12, 7)], s = x.1 → odd →
        sramDecode w = .corrected (b ^^^ BitVec.ofNat 8 (2 ^ x.2)))
    ∧ (s ≠ 0 ∧ ¬odd → sramDecode w = .uncorrectable)
    ∧ (12 < s ∧ odd → sramDecode w = .uncorrectable)

/-- One upset is corrected and two are detected (04 R110, R111). -/
def Obligations.SecdedCorrects : Prop :=
  ∀ b : Byte, sramDecode (sramEncode b) = .clean b
    ∧ (∀ i < 13, sramDecode (sramEncode b ^^^ BitVec.ofNat 13 (2 ^ i)) = .corrected b)
    ∧ ∀ i < 13, ∀ j < 13, i ≠ j →
        sramDecode (sramEncode b ^^^ BitVec.ofNat 13 (2 ^ i) ^^^ BitVec.ofNat 13 (2 ^ j)) = .uncorrectable

/-- Read after write, frame, canonical form and extensionality of the sparse memories of the dies (03 Table 3-6, 04 R109; the
list form is the model's own). -/
def Obligations.CanonicalCells : Prop :=
  ∀ (z : Byte) (m : List Host.Cell) (a : Nat) (v : Byte), sparseWf z m = true →
    sparseGet z (sparseSet z m a v) a = v
    ∧ (∀ b, b ≠ a → sparseGet z (sparseSet z m a v) b = sparseGet z m b)
    ∧ sparseWf z (sparseSet z m a v) = true
    ∧ sparseSet z m a (sparseGet z m a) = m
    ∧ ∀ m' : List Host.Cell, sparseWf z m' = true → (∀ b, sparseGet z m' b = sparseGet z m b) → m' = m

/-- Writes to device DRAM (03 Table 3-6): the bytes from the address up, and no other byte. -/
def Obligations.DeviceMemoryFrame : Prop :=
  ∀ (s : State) (a : DevAddr) (bs : List Byte) (d : Die), a.sram = false → a.bcast = false → s.dies[a.die]? = some d →
    ∃ e, (s.devWrite a bs).dies[a.die]? = some e
      ∧ (∀ i, (h : i < bs.length) → sparseGet 0 e.mem.dram (a.off + i) = bs[i])
      ∧ (∀ x, (x < a.off ∨ a.off + bs.length ≤ x) → sparseGet 0 e.mem.dram x = sparseGet 0 d.mem.dram x)
      ∧ e = { d with
          mem := { d.mem with dram := e.mem.dram, history := e.mem.history, opened := e.mem.opened }, perf := e.perf }
      ∧ (∀ j, j ≠ a.die → (s.devWrite a bs).dies[j]? = s.dies[j]?)
      ∧ { s.devWrite a bs with dies := s.dies } = s

/-- DRAM upkeep (04 R103-R107). -/
def Obligations.RefreshRows : Prop :=
  (∀ (s : State) (die : Nat), s.memActive die = true → s.ctl.dev = .writing → (s.die die).mem.panic = true →
      (s.die die).mem.debt < 7 →
    Completes (exec (.refreshInterval die) s) fun t =>
      (t.die die).mem = { (s.die die).mem with debt := (s.die die).mem.debt + 1 }
      ∧ t.ctl = s.ctl ∧ t.seq = s.seq ∧ t.out = s.out ∧ ∀ j, j ≠ die → t.dies[j]? = s.dies[j]?)
  ∧ (∀ (s : State) (die : Nat), s.memActive die = true → s.ctl.dev = .writing → (s.die die).mem.panic = true →
      7 ≤ (s.die die).mem.debt →
    Completes (exec (.refreshInterval die) s) fun t =>
      (t.die die).mem = { (s.die die).mem with debt := 7, err := (s.die die).mem.err ||| 4#4, forcedRef := satInc (s.die die).mem.forcedRef }
      ∧ t.ctl = s.ctl ∧ t.seq = s.seq ∧ t.out = s.out ∧ ∀ j, j ≠ die → t.dies[j]? = s.dies[j]?)
  ∧ (∀ (s : State) (die : Nat), s.memActive die = true → s.ctl.dev = .writing → (s.die die).mem.panic = false →
    Completes (exec (.refreshInterval die) s) fun t =>
      (t.die die).mem = (s.die die).mem ∧ t.ctl = s.ctl ∧ t.seq = s.seq ∧ t.out = s.out ∧ ∀ j, j ≠ die → t.dies[j]? = s.dies[j]?)
  ∧ (∀ (s : State) (die : Nat), s.memActive die = true → s.ctl.dev = .writing → (s.die die).mem.panic = false →
      0 < (s.die die).mem.debt → (s.die die).mem.makeUp = true → (s.die die).mem.panicOn < (s.die die).mem.lead →
    Completes (exec (.makeUpBurstRefresh die) s) fun t =>
      (t.die die).mem = { (s.die die).mem with debt := (s.die die).mem.debt - 1, makeUp := 1 < (s.die die).mem.debt }
      ∧ t.ctl = s.ctl ∧ t.seq = s.seq ∧ t.out = s.out)
  ∧ (∀ (s : State) (die : Nat), s.memActive die = true → s.ctl.dev = .writing →
    Completes (exec (.periodicRetraining die) s) fun t =>
      (t.die die).mem = { (s.die die).mem with deferred := (s.die die).mem.panic } ∧ t.ctl = s.ctl ∧ t.seq = s.seq)
  ∧ (∀ (s : State) (die : Nat), s.memActive die = true → (s.die die).mem.deferred = true →
    Completes (exec (.maxDeferExpiry die) s) fun t =>
      (t.die die).mem = { (s.die die).mem with deferred := false, forced := true, err := (s.die die).mem.err ||| 8#4 }
      ∧ t.ctl = s.ctl ∧ t.seq = s.seq ∧ t.out = s.out)

/-- Scrubbing (04 R115-R117). -/
def Obligations.ScrubRows : Prop :=
  (∀ (s : State) (p : Packet), s.Takes 0x0A02 p →
      ¬(p.param 0 ≤ p.param 1 ∧ p.param 1 < 0x1800000) →
    exec (.scrubRun p) s = .next (s.finish (s.cmd 0x0A02 p) badParam []))
  ∧ (∀ (s : State) (p : Packet), s.Takes 0x0A02 p → p.param 0 ≤ p.param 1 → p.param 1 < 0x1800000 →
    Completes (exec (.scrubRun p) s) fun t =>
      (t.die p.target).sram.scans = (s.die p.target).sram.scans ++
          [{ first := p.param 0, last := p.param 1, at_ := p.param 0, ctx := some (s.cmd 0x0A02 p) }]
      ∧ (t.die p.target).sram.cells = (s.die p.target).sram.cells ∧ t.perim = s.perim ∧ t.seq = s.seq)
  ∧ (∀ (s : State) (die : Nat) (x : Scan) (xs : List Scan), s.scrubs die = true → (s.die die).sram.scans = x :: xs →
      (s.die die).sram.cells = [] → x.at_ + 32 ≤ x.last →
    Completes (exec (.scrubRead die []) s) fun t =>
      (t.die die).sram = { (s.die die).sram with scanned := (s.die die).sram.scanned + 32, scans := { x with at_ := x.at_ + 32 } :: xs }
      ∧ t.perim = s.perim ∧ t.seq = s.seq ∧ t.ctl = s.ctl ∧ t.out = s.out)

/-- LIB_DROP (05 R133). -/
def Obligations.LibDrop : Prop :=
  ∀ (s : State) (p : Packet), s.Takes 0x0201 p →
    ((∀ l ∈ s.libs, l.id ≠ p.param 0) → exec (.libDrop p) s = .next (s.finish (s.cmd 0x0201 p) 0x8062 []))
    ∧ (∀ l, s.libs.find? (fun l => l.id == p.param 0) = some l →
        (l.load.isSome = true ∨ (∃ st ∈ s.seq.stripes, st.root.lib = p.param 0)
          ∨ (∃ a ∈ s.areas, a.bound.isSome = true ∧ ∃ b ∈ a.blocks, b.lib = p.param 0)) →
        exec (.libDrop p) s = .next (s.finish (s.cmd 0x0201 p) 0x8063 []))
    ∧ (∀ l, s.libs.find? (fun l => l.id == p.param 0) = some l → l.load = none →
        (∀ st ∈ s.seq.stripes, st.root.lib ≠ p.param 0) →
        (∀ a ∈ s.areas, a.bound.isSome = true → ∀ b ∈ a.blocks, b.lib ≠ p.param 0) →
        exec (.libDrop p) s = .next
            (({ s with libs := s.libs.filter fun l => l.id != p.param 0 }).finish (s.cmd 0x0201 p) 0x0000 [])
        ∧ s.libUsed = ({ s with libs := s.libs.filter fun l => l.id != p.param 0 }).libUsed
            + ((s.libs.filter fun l => l.id == p.param 0).map Library.bytes).sum)

/-- UPDATE_CONFIRM (18 R455). -/
def Obligations.UpdateConfirm : Prop :=
  ∀ (s : State) (p : Packet), s.Takes 0x0902 p →
    (s.onTrial = false → exec (.updateConfirm p) s = .next (s.finish (s.cmd 0x0902 p) 0x0000 []))
    ∧ (∀ x, s.selector = some x → x.trial = true →
        ∃ u : State, u.selector = some { x with sequence := x.sequence + 1, trial := false, trials := 0 }
          ∧ (∃ sel, u = { s with
              flash.sel := sel
              fuses.minSecurity := max s.fuses.minSecurity (((s.flash.banks.getD x.active none).map bankSecurity).getD 0) })
          ∧ exec (.updateConfirm p) s = .next
              ((u.sendElems ((s.lanes.filter fun l => l.inL0 || l.state == .retraining).map (·.id)) 0x0C 6 []).finish
                (s.cmd 0x0902 p) 0x0000 []))

/-- Firmware update (18 R450, R451, R454, R456). -/
def Obligations.UpdateRows : Prop :=
  (∀ (s : State) (p : Packet), s.Takes 0x0900 p →
    ((p.param 2 = 0 ∨ p.param 2 % 4096 ≠ 0 ∨ 62 * 2 ^ 20 < p.param 2) →
        exec (.updateStage p) s = .next (s.finish (s.cmd 0x0900 p) badParam []))
    ∧ (p.param 2 ≠ 0 → p.param 2 % 4096 = 0 → p.param 2 ≤ 62 * 2 ^ 20 →
        (s.updating = true → exec (.updateStage p) s = .next (s.finish (s.cmd 0x0900 p) updateState [1]))
        ∧ (s.updating = false → s.onTrial = true → exec (.updateStage p) s = .next (s.finish (s.cmd 0x0900 p) updateState [2]))
        ∧ (s.updating = false → s.onTrial = false →
            Completes (exec (.updateStage p) s) fun t =>
              t.flash.staging = some (s.cmd 0x0900 p, p.param 2 / 4) ∧ t.flash.busy = 1 ∧ t.flash.blocks = 0
              ∧ t.flash.banks = s.flash.banks.set s.inactiveBank none ∧ t.fuses = s.fuses ∧ t.perim = s.perim)))
  ∧ (∀ (s : State) (image : BankImage) (c : Ctx) (n : Nat), s.flash.staging = some (c, n) →
    let x : BankImage := { image with content := image.content.take n ++ List.replicate (n - image.content.length) 0 }
    (∀ k, Completes (exec (.updateStageComplete (some k) image) s) fun t =>
      t.flash = { s.flash with busy := 0, staging := none, blocks := min k (n / 1024) } ∧ t.fuses = s.fuses ∧ t.perim = s.perim)
    ∧ (∀ k, stagedBad (bankBase s.inactiveBank) x.content = some k →
      Completes (exec (.updateStageComplete none image) s) fun t =>
        t.flash = { s.flash with busy := 0, staging := none, blocks := k } ∧ t.fuses = s.fuses ∧ t.perim = s.perim)
    ∧ (stagedBad (bankBase s.inactiveBank) x.content = none → s.imageStatus s.inactiveBank x = none →
      Completes (exec (.updateStageComplete none image) s) fun t =>
        t.flash.staging = none ∧ t.flash.busy = 0 ∧ t.flash.blocks = n / 1024
        ∧ t.flash.banks = s.flash.banks.set s.inactiveBank (some x) ∧ t.fuses = s.fuses ∧ t.perim = s.perim))
  ∧ (∀ (s : State) (p : Packet), s.Takes 0x0901 p →
    (s.selectorOr.valid s.inactiveBank = false → exec (.updateActivate p) s = .next (s.finish (s.cmd 0x0901 p) updateState [3]))
    ∧ (∀ x, s.selectorOr.valid s.inactiveBank = true → s.flash.banks.getD s.inactiveBank none = some x →
        s.imageStatus s.inactiveBank x = none → headVersionOf x = none → s.hif.busy = none →
        Completes (exec (.updateActivate p) s) fun t =>
          t.hif.busy = none ∧ t.ctl.resetRequest = some .activation ∧ t.fuses = s.fuses ∧ t.flash.banks = s.flash.banks))
  ∧ (∀ (s : State) (p : Packet), s.Takes 0x0903 p →
    (s.onTrial = false → exec (.updateFallback p) s = .next (s.finish (s.cmd 0x0903 p) updateState [4]))
    ∧ (s.onTrial = true →
        Completes (exec (.updateFallback p) s) fun t =>
          t.ctl.resetRequest = some .fallBack ∧ t.flash.banks = s.flash.banks ∧ t.fuses = s.fuses
          ∧ t.flash.sel ≠ s.flash.sel))

/-- TABLE_LOAD and TABLE_READ (07 R177, R178; 02 R62). -/
def Obligations.TableRows : Prop :=
  (∀ (s : State) (p : Packet) (env : List Word), s.Takes 0x0103 p → (p.isDev = true ∨ p.param 0 % 256 = 6) →
      tableNamed (p.param 0 % 256) (p.param 0 / 256 % 65536) = true →
    let tid := p.param 0 % 256
    let ws := takeWords env (tableLength s.beams tid (wordAt env 1) / 4)
    (∀ off, tableCheck s.beams tid (p.param 3) ws = some off →
      exec (.tableLoad p env) s = .next ((s.hostRead (p.param 3)).finish (s.cmd 0x0103 p) 0x8023 [off]))
    ∧ (tableCheck s.beams tid (p.param 3) ws = none → tid ≠ 7 →
      exec (.tableLoad p env) s = .next
        ({ s.hostRead (p.param 3) with tables := s.tables.load tid (p.param 0 / 256 % 65536) ws }.finish (s.cmd 0x0103 p) ok
          [(crcWords 0xFFFFFFFF ws).toNat, (s.tables.gens.modify (tid - 1) fun g => (g + 1) % 2 ^ 32).getD (tid - 1) 0]))
    ∧ (tableCheck s.beams tid (p.param 3) ws = none → tid = 7 →
      Completes (exec (.tableLoad p env) s) fun t =>
        t.tables = s.tables.load 7 0 ws ∧ t.perim.uncomp = ({ s with tables := s.tables.load 7 0 ws }).uncompNow
        ∧ t.seq = s.seq ∧ t.libs = s.libs ∧ t.areas = s.areas))
  ∧ (∀ (s : State) (p : Packet), s.Takes 0x0104 p → tableNamed (p.param 0 % 256) (p.param 0 / 256 % 65536) = true →
    let ws := s.tableImage (p.param 0 % 256) (p.param 0 / 256 % 65536)
    let bs := (wordsBytes ws).take (p.param 3)
    exec (.tableRead p) s = .next
      (((s.emits (byteBursts bs.length (p.param64 1) bs)).count 0 180 bs.length).finish (s.cmd 0x0104 p) ok [(crcWords 0xFFFFFFFF ws).toNat]))

/-- Library loading (05 R131, R132, R134). -/
def Obligations.LibraryRows : Prop :=
  (∀ (s : State) (p : Packet) (env : List Word), s.Takes 0x0200 p →
    ((p.param 0 = 0 ∨ p.param 0 = 0xFFFFFFFF ∨ p.param 3 = 0) →
      exec (.libLoad p env) s = .next (s.finish (s.cmd 0x0200 p) badParam []))
    ∧ (p.param 0 ≠ 0 → p.param 0 ≠ 0xFFFFFFFF → p.param 3 ≠ 0 →
      (s.libs.any (fun l => l.id == p.param 0) = true → exec (.libLoad p env) s = .next (s.finish (s.cmd 0x0200 p) libExists []))
      ∧ (s.libs.any (fun l => l.id == p.param 0) = false → 64 ≤ s.libs.length →
        exec (.libLoad p env) s = .next (s.finish (s.cmd 0x0200 p) queueFull []))
      ∧ (s.libs.any (fun l => l.id == p.param 0) = false → s.libs.length < 64 → 65536 ≤ (sgTotal (p.param 3) 0 0 env).1 →
        Completes (exec (.libLoad p env) s) fun t =>
          t.libs = s.libs ++ [{ id := p.param 0, cells := [], payload := 0, load := some {
            ctx := s.cmd 0x0200 p, next := 0, total := (sgTotal (p.param 3) 0 0 env).1 / 65536
            partBlock := (sgTotal (p.param 3) 0 0 env).1 % 65536 != 0, badEntry := (sgTotal (p.param 3) 0 0 env).2
            cell := none, cls := 0, bytes := 0 } }]
          ∧ t.seq = s.seq ∧ t.tables = s.tables ∧ t.perim = s.perim)))
  ∧ (∀ (s : State) (l : Library) (d : Load) (block : List Word), s.running = true →
      s.libs.find? (fun x => x.id == l.id) = some l → l.load = some d → d.next < d.total →
    ((rawBlock 0 block).good = false → Completes (exec (.libBlockReceived l.id block) s) fun t =>
        t.libs = s.libs.filter (fun x => x.id != l.id) ∧ t.seq = s.seq ∧ t.tables = s.tables)
    ∧ ((rawBlock 0 block).good = true → (rawBlock 0 block).lib = l.id → (rawBlock 0 block).seq ≠ d.next →
        Completes (exec (.libBlockReceived l.id block) s) fun t =>
          t.libs = s.libs.filter (fun x => x.id != l.id) ∧ t.seq = s.seq)
    ∧ (∀ r, (rawBlock 0 block).good = true → (rawBlock 0 block).lib = l.id → (rawBlock 0 block).seq = d.next →
        d.next + 1 < d.total →
        LibBuild.block ((rawBlock 0 block).payload.length + 1) 0 (rawBlock 0 block).payload
          { cells := l.cells, cell := d.cell, cls := d.cls, bytes := d.bytes } = .inr r →
        let l' := { l with cells := r.cells, payload := l.payload + 4 * (rawBlock 0 block).payload.length
                           load := some { d with next := d.next + 1, cell := r.cell, cls := r.cls, bytes := r.bytes } }
        let libs := s.libs.map fun x => if x.id = l.id then l' else x
        ({ s.hostRead 65536 with libs := libs }).libFits = true →
        Completes (exec (.libBlockReceived l.id block) s) fun t => t.libs = libs ∧ t.seq = s.seq ∧ t.hif = s.hif))

/-- Staging (05 R135, R144, R145). -/
def Obligations.StagingRows : Prop :=
  (∀ (s : State) (p : Packet), s.Takes 0x0102 p → 64 ≤ p.param 0 → p.param 0 ≤ 2048 → p.param 0 % 64 = 0 → s.seq.stripes = [] →
      (∀ d ∈ s.dies, d.retired = false → (s.libUsed : Int) ≤ d.libSpace (p.param 0)) →
    exec (.cfgRenderAhead p) s = .next
      ((s.modDies fun d => if !d.retired && (p.isDev || d.id == p.target) then
          { d with con := { d.con with raMib := p.param 0, ra := [], raPut := 0 } } else d).finish (s.cmd 0x0102 p) ok [p.param 0]))
  ∧ (∀ (s : State) (p : Packet) (d : DmaD), s.Takes 0x0202 p → s.dmaD[p.param 1 % 8]? = some d →
    (d.firmware = true → exec (.geoBind p) s = .next (s.finish (s.cmd 0x0202 p) badParam []))
    ∧ (d.firmware = false → d.bound.isSome = true → exec (.geoBind p) s = .next (s.finish (s.cmd 0x0202 p) dmaChannelBusy []))
    ∧ (d.firmware = false → d.bound = none → (∀ a ∈ s.areas, a.bound.isSome = true) →
        exec (.geoBind p) s = .next (s.finish (s.cmd 0x0202 p) stagingFull []))
    ∧ (∀ i, d.firmware = false → d.bound = none → s.areas.findIdx? (fun a => a.bound.isNone) = some i →
        exec (.geoBind p) s = .next ({ s with
          areas := s.areas.set i { Area.reset with
            bound := some (p.param 0), channel := p.param 1 % 8, first := p.param64 2, lowest := p.param64 2, expect := p.param64 2 }
          dmaD := s.dmaD.modify (p.param 1 % 8) fun (c : DmaD) =>
            { c with bound := some (p.param 0), state := if c.state = DmaState.waitBind then DmaState.active else c.state } }.finish
              (s.cmd 0x0202 p) ok [])))
  ∧ (∀ (s : State) (i : Nat) (a : Area), s.running = true → s.areas[i]? = some a → a.bound.isSome = true → a.held = none →
      65536 ≤ a.bytes.length →
    let b := rawBlock 1 (bytesWords a.bytes)
    (b.good = false → a.waiting = true →
      exec (.stagingBlockArrival i) s = .next { s with
        areas := s.areas.set i { a with bytes := [], bad := satInc a.bad }
        dmaD := s.dmaD.modify a.channel fun d => { d with paused := false } })
    ∧ (b.good = true → (∀ x ∈ a.blocks, x.seq < a.lowest) → a.root.isSome = true → a.lowest ≤ b.seq → a.waiting = true → b.seq ≠ a.expect →
        (∀ e, s.streamEnd a = some e → b.seq < e) → (∀ r, a.root? = some r → b.lib = r.lib) →
      exec (.stagingBlockArrival i) s = .next { s with
        areas := s.areas.set i { a with bytes := [], blocks := a.blocks ++ [{ seq := b.seq, lib := b.lib, payload := b.payload }] }
        dmaD := s.dmaD.modify a.channel fun d => { d with paused := false } })
    ∧ (b.good = true → (∀ x ∈ a.blocks, x.seq < a.lowest) → a.root.isSome = true → a.lowest ≤ b.seq → b.seq = a.expect →
        (∀ e, s.streamEnd a = some e → b.seq < e) → (∀ r, a.root? = some r → b.lib = r.lib) →
      Completes (exec (.stagingBlockArrival i) s) fun t =>
        t.areas = s.areas.set i { a with
          bytes := [], waiting := false, blocks := a.blocks ++ [{ seq := b.seq, lib := b.lib, payload := b.payload }] }
        ∧ (a.waiting = true → t.dies = s.dies.map fun d => if d.retired then d else { d with tess.waitBlock := false })
        ∧ t.seq = s.seq ∧ t.libs = s.libs ∧ t.out = s.out))

/-- Submission and abort (09 R222, R225, R226, R236). -/
def Obligations.SubmitRows : Prop :=
  (∀ (s : State) (p : Packet) (mk : Bool),
    let op := if mk then 0x0302 else 0x0300
    let run := fun p => exec (if mk then .makeupSubmit p else .stripeSubmit p) s
    let s' := { s with areas := s.areas.map fun (a : Area) => if a.bound == some (p.param 0) then s.checkHeader a else a }
    s.Takes op p →
    (descriptor (Packet.ofRow op p) mk = none → run p = .next (s.finish (s.cmd op p) badParam []))
    ∧ (∀ d, descriptor (Packet.ofRow op p) mk = some d → (∀ a ∈ s.areas, a.bound ≠ some d.id) →
        run p = .next (s.finish (s.cmd op p) stripeUnbound []))
    ∧ (∀ d a, descriptor (Packet.ofRow op p) mk = some d → s'.admission (Packet.ofRow op p) (s.cmd op p) mk = .inr a →
        p.admitOnly = true →
        Completes (run p) fun t => t.seq = s.seq ∧ t.perim = s.perim ∧ t.areas = s'.areas)
    ∧ (∀ d a, descriptor (Packet.ofRow op p) mk = some d → s'.admission (Packet.ofRow op p) (s.cmd op p) mk = .inr a →
        p.admitOnly = false → a.rects = [] → s.seq.opened = [] → s.seq.reserve = false →
        Completes (run p) fun t =>
          t.seq = { s.seq with
            stripes := s.seq.stripes ++ [a.stripe]
            worn := if a.stripe.uncomp.isEmpty then s.seq.worn else some a.stripe } ∧ a.stripe.executing = false ∧ a.stripe.phase = .queued
          ∧ (s.cmd op p).urgent = p.urgent
          ∧ (p.urgent = false → t.hif.owing = s.hif.owing ++ [s.cmd op p]) ∧ t.areas = s'.areas ∧ t.libs = s.libs))
  ∧ (∀ (s : State) (p : Packet), s.Takes 0x0301 p → p.param 0 ≠ 0xFFFFFFFF → (∀ st ∈ s.seq.stripes, st.id ≠ p.param 0) →
    exec (.stripeAbort p) s = .next (s.finish (s.cmd 0x0301 p) stripeUnknown []))
  ∧ (∀ (s : State) (p : Packet) (st : Stripe), s.Takes 0x0301 p → s.seq.stripes = [st] → p.param 0 = st.id →
      st.executing = false →
    Completes (exec (.stripeAbort p) s) fun t =>
      t.seq.stripes = [] ∧ (∀ a ∈ t.areas, a.bound ≠ some st.id) ∧ t.libs = s.libs ∧ t.tables = s.tables)

/-- The ledger commands (09 R241, R242). -/
def Obligations.LedgerRows : Prop :=
  ∀ (s : State) (p : Packet),
    (s.Takes 0x0303 p → s.seq.ledger.length ≤ s.ledgerPlace (p.param 0) →
      exec (.ledgerRead p) s = .next (s.finish (s.cmd 0x0303 p) badParam []))
    ∧ (s.Takes 0x0303 p → s.ledgerPlace (p.param 0) < s.seq.ledger.length → 0 < p.param 1 →
      let es := (s.seq.ledger.drop (s.ledgerPlace (p.param 0))).take (p.param 1)
      exec (.ledgerRead p) s = .next
        ((s.hostWrite (p.param64 2) (es.flatMap LedgerEntry.words)).finish (s.cmd 0x0303 p) ok [es.length, s.seq.ledger.length]))
    ∧ (∀ ch, s.Takes 0x0304 p → p.param 1 % 2 = 1 → s.dmaT[p.param 0 % 8]? = some ch → ch.source ≠ .none → ch.source ≠ .ledger →
      exec (.ledgerStream p) s = .next (s.finish (s.cmd 0x0304 p) dmaChannelBusy []))
    ∧ (∀ ch, s.Takes 0x0304 p → p.param 1 % 2 = 1 → s.dmaT[p.param 0 % 8]? = some ch → ch.source = .none →
      Completes (exec (.ledgerStream p) s) fun t =>
        t.seq = { s.seq with stream := some (p.param 0 % 8) } ∧ t.dmaT[p.param 0 % 8]? = some { ch with source := .ledger }
        ∧ t.perim = s.perim ∧ t.tables = s.tables)
    ∧ (s.Takes 0x0304 p → p.param 1 % 2 = 0 →
      Completes (exec (.ledgerStream p) s) fun t =>
        t.seq = { s.seq with stream := none } ∧ (∀ c ∈ t.dmaT, c.source ≠ .ledger) ∧ t.perim = s.perim)
    ∧ (s.Takes 0x0305 p → indexAtOrBefore s.ledgerNext (p.param 0) = true →
      exec (.ledgerRelease p) s = .next (s.finish (s.cmd 0x0305 p) badParam []))
    ∧ (s.Takes 0x0305 p → s.seq.first < 2 ^ 32 → s.seq.ledger.length ≤ ledgerSize →
        s.ledgerPlace (p.param 0) < s.seq.ledger.length → s.seq.stripes = [] →
      Completes (exec (.ledgerRelease p) s) fun t =>
        t.seq.first = (p.param 0 + 1) % 2 ^ 32 ∧ t.seq.ledger = s.seq.ledger.drop (s.ledgerPlace (p.param 0) + 1)
        ∧ t.seq.opened = s.seq.opened ∧ t.perim = s.perim ∧ t.tables = s.tables)
    ∧ (s.Takes 0x0301 p → p.param 0 = 0xFFFFFFFF → s.seq.stripes = [] →
      exec (.stripeAbort p) s = .next (s.finish (s.cmd 0x0301 p) ok [0, 0]))

/-- The sequencer (09 R221, R227, R229, R237; 11 R301, R304). -/
def Obligations.SequencerRows : Prop :=
  (∀ (s : State) (st : Stripe) (rest : List Stripe), s.active = true → s.seq.stripes = st :: rest → st.phase = .prefill →
      st.pass < st.rendered → s.prefilled st = true → st.pass = 0 → s.lanes.any (fun l => l.headWarn && !l.retired) = true →
      s.therm.throttle = false → (∀ x ∈ rest, x.id ≠ st.id) →
    exec .prefillComplete s = .next { s with
      seq.stripes := { st with phase := .ready, passStart := none, lates := 0 } :: rest
      seq.last := s.seq.last.map fun x => if x.id = st.id then { x with phase := .ready, passStart := none, lates := 0 } else x
      seq.headPause := true, seq.thermPause := false, seq.pause := true, seq.pauseFor := 0 })
  ∧ (∀ (s : State) (st : Stripe) (rest : List Stripe), s.active = true → s.seq.stripes = st :: rest → st.phase = .ready →
      st.pass = 0 → st.paused = false →
    (s.seq.thermPause = true → exec .seqPauseExpiry s = .next { s with seq.headPause := false })
    ∧ (s.seq.thermPause = false → Completes (exec .seqPauseExpiry s) fun t =>
        t.seq.pause = false ∧ t.seq.headPause = false ∧ t.perim = s.perim ∧ t.ctl = s.ctl
        ∧ ∃ st', t.seq.stripes.head? = some st' ∧ st'.paused = true ∧ st'.id = st.id ∧ st'.passStart.isSome = true))
  ∧ (∀ (s : State) (st : Stripe) (rest : List Stripe) (strikes : List Strike) (a b : Int), s.active = true →
      s.seq.stripes = st :: rest → st.phase = .ready → st.paused = true → s.passHeard st = true → s.locus.gen = none →
      s.arc.scanVel = 0 → s.seq.reserve = false → min st.rate s.maxRate ≠ 0 → s.axesReady st = true → st.pass = 0 →
      st.startMode = 2 → st.triggered = false → s.travel st (s.scanVelocity (min st.rate s.maxRate)) = some (a, b) →
      (s.axis 0).within a = true → (s.axis 0).within b = true → (s.axis 1).within st.stepPos = true → 2 ≤ s.arc.axes.length →
    ((s.axis 0).cmd ≠ a ∨ (s.axis 0).vel ≠ 0 ∨ (s.axis 1).cmd ≠ st.stepPos ∨ (s.axis 1).vel ≠ 0 ∨ (s.axis 1).inPosition = false →
      Completes (exec (.approachBegin strikes) s) fun t =>
        (t.axis 0).state = .sequencer ∧ (t.axis 0).target = a ∧ (t.axis 1).state = .sequencer ∧ (t.axis 1).target = st.stepPos
        ∧ t.arc.approach = a ∧ t.arc.scanVel = 0 ∧ t.seq = s.seq ∧ t.perim = s.perim ∧ t.out = s.out)
    ∧ ((s.axis 0).cmd = a → (s.axis 0).vel = 0 → (s.axis 1).cmd = st.stepPos → (s.axis 1).vel = 0 → (s.axis 1).inPosition = true →
      Completes (exec (.approachBegin strikes) s) fun t =>
        t.arc.scanVel = s.scanVelocity (min st.rate s.maxRate) ∧ t.arc.approach = a ∧ t.arc.overspeedDecel = false
        ∧ t.seq = { s.seq with strikes := strikes } ∧ t.perim = s.perim ∧ t.out = s.out))
  ∧ (∀ (s : State) (g : Gen) (st : Stripe) (rest : List Stripe) (t a : Nat) (xs : List Strike) (rb : Bool), s.active = true →
      s.locus.gen = some g → s.seq.stripes = st :: rest → g.next < g.total → s.perim.gateClosed = false →
    (s.pulseDue st g.next t = false → exec (.shotPulse t rb xs) s = .next s)
    ∧ (s.pulseDue st g.next t = true → g.lastCross = some a → t < a + 800 →
      exec (.shotPulse t rb xs) s = .next
        ((({ s with locus.overrun := true }).detectOpen 0x0016 0 ((s.locusAxis 0).primary.getD 0) 0).loseLock)))
  ∧ (∀ (s : State) (g : Gen) (st : Stripe) (t : Nat), s.active = true → s.locus.gen = some g → s.seq.stripes = [st] →
      s.perim.gateClosed = false → s.pulseDue st g.next t = true → 0 < g.next → g.next < 8 → g.next < g.total →
      g.total ≤ g.next + 4 → g.lastFire = none → (∀ a, g.lastCross = some a → a + 800 ≤ t) →
      (∀ d ∈ s.dies, ∀ l ∈ d.lanes, l.recs = []) → s.seq.opened = [] → s.locus.markEvery = 0 → s.seq.reserve = false →
    Completes (exec (.shotPulse t false []) s) fun u =>
      u.locus.gen = some { g with next := g.next + 1, lastCross := some t, lastFire := some t }
      ∧ u.seq.latch = some (st.id, st.pass, g.next + 1) ∧ u.out = s.out ++ [Emission.pulse t true]
      ∧ u.seq.stripes = [{ st with strobes := st.strobes + 1 }] ∧ u.seq.ledger = s.seq.ledger ∧ u.ctl = s.ctl)
  ∧ (∀ (s : State) (g : Gen) (st : Stripe), s.locus.gen = some g → s.seq.stripes = [st] → st.executing = true →
      st.phase = .running → g.total ≤ g.next → s.seq.opened = [] → s.seq.reserve = false →
    Completes (exec .passEnd s) fun t =>
      t.perim.gateClosed = true ∧ t.locus.gen = none ∧ t.arc.scanVel = 0 ∧ t.ctl.dev = s.ctl.dev
      ∧ ∃ st', t.seq.stripes = [st'] ∧ st'.id = st.id
          ∧ (st.pass + 1 < st.passes.length → st'.phase = .ret ∧ st'.pass = st.pass + 1 ∧ st'.ended = st.ended)
          ∧ (st.passes.length ≤ st.pass + 1 → st'.ended = true ∧ st'.pass = st.pass))
  ∧ (∀ (s : State) (st : Stripe), s.seq.stripes = [st] → st.executing = true → st.ended = true →
    (s.reportsIn st = false → exec .stripeComplete s = .next s)
    ∧ (s.reportsIn st = true → Completes (exec .stripeComplete s) fun t =>
      t.seq.stripes = [] ∧ (∀ a ∈ t.areas, a.bound ≠ some st.id) ∧ (s.ctl.dev = .writing → t.ctl.dev = .armed)
      ∧ t.libs = s.libs))

/-- The axis commands (12 R316, R317, R328-R330; 11 R281). -/
def Obligations.AxisCommands : Prop :=
  (∀ (s : State) (p : Packet), s.Takes 0x0400 p →
    (axisConfig (s.axis p.target) p.target p = none → exec (.axisConfig p) s = .next (s.finish (s.cmd 0x0400 p) badParam []))
    ∧ (∀ y, axisConfig (s.axis p.target) p.target p = some y → (s.axis p.target).state = .absent →
        exec (.axisConfig p) s = .next (s.finish (s.cmd 0x0400 p) badParam []))
    ∧ (∀ y, axisConfig (s.axis p.target) p.target p = some y → (s.axis p.target).state = .disabled →
        (s.axis p.target).velLim = 0 → (p.target < 2 → s.arc.spBad < 2) →
        (∀ b < 10, b ≠ p.target → ∀ d ∈ (s.axis b).dins, d ∉ y.dins) →
        exec (.axisConfig p) s = .next
          ((s.modAxis p.target fun _ => { y with state := .idle, cmd := s.axisPos p.target }).finish (s.cmd 0x0400 p) ok [])))
  ∧ (∀ (s : State) (p : Packet), s.Takes 0x0401 p → p.param 0 < 8 → (s.axis p.target).state = .idle →
    let x := s.axis p.target
    exec (.axisParam p) s = .next
      (if p.param 1 ≤ x.velLim ∧ p.param 2 ≤ x.accLim ∧ p.param 3 ≤ x.faultDec ∧ p.param 4 ≤ x.jerkLim then
        (s.modAxis p.target fun x => { x with
          slots := x.slots.set (p.param 0) { vel := p.param 1, acc := p.param 2, dec := p.param 3, jerk := p.param 4 } }).finish
            (s.cmd 0x0401 p) ok [0]
       else s.finish (s.cmd 0x0401 p) badParam []))
  ∧ (∀ (s : State) (p : Packet), s.Takes 0x0403 p →
    let x := s.axis p.target
    let target := signed 64 (p.param64 0)
    let slot := x.slots.getD (p.param 2) Slot.reset
    (x.state = .disabled → exec (.axisMove p) s = .next (s.finish (s.cmd 0x0403 p) axisDisabled []))
    ∧ ((x.busy = true ∨ x.state = .sequencer) → exec (.axisMove p) s = .next (s.finish (s.cmd 0x0403 p) axisBusy []))
    ∧ (x.state = .idle → p.param 2 < 8 → 0 < slot.vel → 0 < slot.acc → 0 < slot.dec → 0 < slot.jerk →
        (s.locusAxis p.target).referenced = true →
        ((target < x.softMin ∨ x.softMax < target) → exec (.axisMove p) s = .next (s.finish (s.cmd 0x0403 p) moveLimit []))
        ∧ (x.softMin ≤ target → target ≤ x.softMax → s.limitActive p.target true = false → s.limitActive p.target false = false →
          exec (.axisMove p) s = .next
            ((s.modAxis p.target fun x => { x with
              state := .moving, ctx := some (s.cmd 0x0403 p), target := target, move := slot, inPosition := false }).interim
                (s.cmd 0x0403 p) ok []))))
  ∧ (∀ (s : State) (p : Packet), s.Takes 0x0402 p → p.param 0 = 6 → (s.axis p.target).state = .idle →
      0 < p.param 1 → 0 < p.param 2 → 0 < p.param 3 → p.param 1 ≤ (s.axis p.target).velLim → p.param 2 ≤ (s.axis p.target).velLim →
      p.param 3 ≤ (s.axis p.target).faultDec → 0 < ((s.axis p.target).slots.getD 0 Slot.reset).jerk →
      (s.axis p.target).posDin = none →
    Completes (exec (.axisHome p) s) fun t =>
      (t.axis p.target).state = .homing ∧ (t.axis p.target).ctx = some (s.cmd 0x0402 p) ∧ (t.axis p.target).homed = false
      ∧ (∃ h, (t.axis p.target).homing = some h ∧ h.method = 2 ∧ h.positive = true ∧ h.phase = .search ∧ h.search = p.param 1
          ∧ h.creep = p.param 2 ∧ h.refValue = signed 64 (p.param64 4))
      ∧ (∀ b, b ≠ p.target → t.axis b = s.axis b) ∧ t.locus = s.locus ∧ t.perim = s.perim)
  ∧ (∀ (s : State) (p : Packet), s.Takes 0x0404 p → p.isDev = false → p.param 0 = 0 → (s.axis p.target).state = .moving →
    Completes (exec (.axisStop p) s) fun t =>
      (t.axis p.target) = (s.axis p.target).stop false false ∧ (∀ b, b ≠ p.target → t.axis b = s.axis b)
      ∧ t.locus = s.locus ∧ t.perim = s.perim ∧ t.seq = s.seq)

/-- Arc's time-driven events (12 R315, R318, R319, R325, R328, R330). -/
def Obligations.SetpointPort : Prop :=
  (∀ s : State, s.domOn 0 7 = true → (∀ a < 10, (s.axis a).state = .idle ∧ (s.axis a).vel = 0 ∧ (s.axis a).acc = 0 ∧ (s.axis a).homing = none) →
      (∀ st ∈ s.seq.stripes, st.phase ≠ .ret) →
    exec .profileTick s = .next { s with arc.ticks := s.arc.ticks + 1 })
  ∧ (∀ (s : State) (a : Nat), s.domOn 0 7 = true → a < 10 → (s.axis a).state = .moving → a < s.arc.axes.length →
    Completes (exec .profileTick s) fun t =>
      min (s.axis a).cmd (s.axis a).target ≤ (t.axis a).cmd ∧ (t.axis a).cmd ≤ max (s.axis a).cmd (s.axis a).target
      ∧ (t.axis a).state = .moving ∧ (t.axis a).target = (s.axis a).target ∧ t.arc.ticks = s.arc.ticks + 1)
  ∧ (∀ s : State, s.arc.spRunning = true →
    Completes (exec .setpointPacketTx s) fun t =>
      let line := packetChars (wordsBytes (s.setpointWords (s.arc.spCycle % 2 ^ 32) (ceilDiv (s.ns + 25000) 50000 * 50000)))
        s.arc.spDisparity
      t.out = s.out ++ [.setpoint line.1]
      ∧ t.arc = { s.arc with spCycle := s.arc.spCycle + 1, spDisparity := line.2 } ∧ t.locus = s.locus ∧ t.ctl = s.ctl)
  ∧ (∀ s : State, s.arc.spRunning = false → exec .setpointPacketTx s = .next s ∧ exec .setpointStatusTimeout s = .next s)
  ∧ (∀ (s : State) (ws : List Word), s.arc.spRunning = true → 0 < s.arc.spCycle → ws.length = 4 → wordAt ws 0 = 0x501A2 →
      wordAt ws 1 = (s.arc.spCycle - 1) % 2 ^ 32 → wordAt ws 2 = 0 →
      ws.getD 3 0 = crcWords (spSeed ((s.arc.spCycle - 1) % 2 ^ 32) ^^^ 0x80000000) (ws.take 3) →
    exec (.setpointStatusRx ws) s = .next { s with arc.spBad := 0, arc.driveBits := 5 })
  ∧ (∀ s : State, s.arc.spRunning = true → s.arc.spBad = 0 →
    exec .setpointStatusTimeout s = .next { s with arc.spErr := satInc s.arc.spErr, arc.spBad := 1 })
  ∧ (∀ s : State, s.arc.spRunning = true → s.arc.spBad = 1 → (s.axis 0).state ≠ .sequencer → (s.axis 1).state ≠ .sequencer →
    Completes (exec .setpointStatusTimeout s) fun t =>
      t.arc.spLinkFault = true ∧ t.arc.spBad = 2 ∧ t.locus = s.locus
      ∧ ∀ a < 2, a < s.arc.axes.length → (s.axis a).state ≠ .absent →
          (t.axis a).state = .disabled ∧ (t.axis a).driveFault = true ∧ (t.axis a).vel = 0)
  ∧ (∀ (s : State) (a : Nat), (s.axis a).enabled = false → exec (.stall a) s = .next s)
  ∧ (∀ (s : State) (a : Nat), (s.axis a).enabled = true →
    exec (.stall a) s = .next
      ((((s.modAxis a fun x => { x with stall := true }).stopAxis a true true 3).detectOpen
        (if (s.axis a).state = .sequencer then 0x0018 else 0x0019) 0 a 0).signal 21))
  ∧ (∀ (s : State) (a : Nat) (c : Ctx), (s.axis a).state = .moving → (s.axis a).cmd = (s.axis a).target → (s.axis a).vel = 0 →
      |s.axisPos a - (s.axis a).cmd| ≤ ((s.axis a).inPosWin : Int) * 65536 → (s.axis a).ctx = some c →
    exec (.moveComplete a) s = .next
      (((s.modAxis a fun x => { x with state := .idle, ctx := none, inPosition := true }).final c ok [0]).signal 21))
  ∧ (∀ (s : State) (a : Nat), (s.axis a).state = .homing →
    Completes (exec (.homingSearchLimit a) s) fun t =>
      (t.locusAxis a).referenced = false ∧ (t.axis a).homed = false ∧ (t.axis a).ctx = none ∧ (t.axis a).homing = none
      ∧ t.perim = s.perim ∧ t.seq = s.seq)

/-- Position sources (11 R283-R285, R287-R290, R293). -/
def Obligations.LocusSources : Prop :=
  (∀ (s : State) (n : Nat) (a b z : Bool) (t : Nat), s.locusOn = true → n < 12 → (s.source n).cfg.mode = 1 →
      ((s.source n).a, (s.source n).b) ≠ (a, b) → (s.source n).lastEdge = none → s.axisOf n = none → s.primaryOf n = none →
      s.locus.captureCh = none → (s.source n).cfg.invert = false →
    Completes (exec (.abEdge n a b z t) s) fun u =>
      (u.source n).pos = (s.source n).pos
          + (match (s.source n).a, (s.source n).b, a, b with
             | false, false, true, false | true, false, true, true | true, true, false, true | false, true, false, false => 65536
             | true, false, false, false | true, true, true, false | false, true, true, true | false, false, false, true => -65536
             | _, _, _, _ => 0)
      ∧ (u.source n).a = a ∧ (u.source n).b = b ∧ u.ctl.dev = s.ctl.dev ∧ u.seq = s.seq ∧ u.arc = s.arc
      ∧ ∀ m, m ≠ n → u.source m = s.source m)
  ∧ (∀ (s : State) (n : Nat) (sin cos : Int) (t : Nat), s.locusOn = true → n < 4 → (s.source n).cfg.mode = 2 →
      (s.source n).cfg.inWindow sin cos = true → (s.source n).lastEdge = none → s.axisOf n = none → s.primaryOf n = none →
    Completes (exec (.sincosSample n sin cos t) s) fun u =>
      (u.source n).pos = (u.source n).phase * 65536 ∧ (u.source n).ampBad = 0 ∧ (u.source n).lastEdge = some t
      ∧ u.seq = s.seq ∧ ∀ m, m ≠ n → u.source m = s.source m)
  ∧ (∀ (s : State) (n t : Nat), s.locusOn = true → n < 4 → (s.source n).cfg.mode = 3 →
    exec (.bissCycleStart n t) s = .next { s.modSource n (fun x => { x with cycling := true, cycleAt := t }) with out := s.out ++ [.bissClock n] })
  ∧ (∀ (s : State) (n delay : Nat) (bits : List Bool), s.locusOn = true → n < 4 → (s.source n).cfg.mode = 3 → (s.source n).cycling = true →
      bits.length ≠ (s.source n).cfg.bits + 8 → (s.source n).crcRow = 0 →
    exec (.bissDataReceived n bits delay) s = .next (s.modSource n fun x =>
      { x with cycling := false, lineDelay := delay, crcSingle := min (x.crcSingle + 1) 65535, crcRow := 1 }))
  ∧ (∀ (s : State) (n delay : Nat) (bits : List Bool), s.locusOn = true → n < 4 → (s.source n).cfg.mode = 3 → (s.source n).cycling = true →
      bits.length = (s.source n).cfg.bits + 8 →
      msbNat (bits.drop ((s.source n).cfg.bits + 2)) = 63 - biss6 (bits.take ((s.source n).cfg.bits + 2)) →
      bits.getD (s.source n).cfg.bits true = true → (s.source n).lastEdge = none → s.axisOf n = none → s.primaryOf n = none →
    Completes (exec (.bissDataReceived n bits delay) s) fun u =>
      (u.source n).pos = (msbNat (bits.take (s.source n).cfg.bits) : Int) * 65536 ∧ (u.source n).crcRow = 0
      ∧ (u.source n).lastEdge = some ((s.source n).cycleAt - delay / 2) ∧ (u.source n).cycling = false ∧ u.seq = s.seq ∧ ∀ m, m ≠ n → u.source m = s.source m)
  ∧ (∀ (s : State) (n : Nat), s.locusOn = true → n < 4 → (s.source n).cfg.mode = 3 → (s.source n).cycling = true →
    exec (.bissTimeout n) s = .next ((s.modSource n fun x => { x with cycling := false }).sourceFault n 6))
  ∧ (∀ (s : State) (n : Nat), s.locusOn = true → n < 12 → (s.source n).cfg.mode ≠ 0 →
    exec (.lineFault n) s = .next (s.sourceFault n 2)
    ∧ ((s.source n).cfg.zTimeout ≠ 0 → (s.source n).zLevel = true →
        exec (.zStuck n) s = .next ((s.modSource n fun x => { x with zIgnored := true }).sourceFault n 7))
    ∧ exec (.speedWindowEnd n) s = .next (s.modSource n fun x =>
        { x with speed := satS32 (x.pos / 65536 - x.windowStart), windowStart := x.pos / 65536 })
    ∧ (∀ count, (s.source n).cfg.reference = 0 → (s.source n).zIgnored = false → s.axisOf n = none →
        exec (.indexEvent n count) s = .next (s.capture 0x01 n 0 (count * 65536))))
  ∧ (∀ (s : State) (n : Nat), s.locusOn = true → (s.source n).cfg.mode ≠ 0 → (s.source n).barred = false →
      (s.source n).flagsClear = true → n < s.locus.sources.length →
    Completes (exec (.sourceRevalid n) s) fun u => (u.source n).valid = true ∧ (u.source n).bad = false ∧ u.arc = s.arc
      ∧ ∀ m, m ≠ n → u.source m = s.source m)

/-- Tracking, inputs, compare units, configuration (11 R286, R297, R298, R307-R313). -/
def Obligations.LocusInputs : Prop :=
  (∀ (s : State) (n : Nat), (s.locusAxis 0).primary ≠ some n →
    exec (.trackingMeasurement n) s = .next s ∧ exec (.restMeasurement n) s = .next s)
  ∧ (∀ (s : State) (c : Instr) (n t : Nat), s.locusOn = true → (s.locusAxis 0).primary = some n → (s.source n).valid = true →
      s.locus.gen = none →
      ((c = .trackingMeasurement n ∧ (s.source n).lastEdge = some t)
        ∨ (c = .restMeasurement n ∧ (s.source n).cfg.mode = 1 ∧ t = s.locus.estAt + 4000)) →
    let e := (s.source n).pos - (s.locus.est + s.locus.vel * 256 * ((t : Int) - s.locus.estAt) / 4000)
    |e| ≤ (s.locus.unlockWin : Int) * 256 →
    Completes (exec c s) fun u =>
      u.locus.estAt = t
      ∧ u.locus.resid = satS32 ((s.source n).pos / 256 - (s.locus.est + s.locus.vel * 256 * ((t : Int) - s.locus.estAt) / 4000) / 256)
      ∧ u.locus.good = (if |e| ≤ (s.locus.lockWin : Int) * 256 ∧ s.axisValid 0 = true then min (s.locus.good + 1) 1024 else 0)
      ∧ u.locus.locked = (s.locus.locked || u.locus.good == 1024) ∧ u.locus.sources = s.locus.sources ∧ u.ctl = s.ctl)
  ∧ (∀ s : State, |s.scanDev| ≤ ((s.locusAxis 0).devWindow : Int) * 65536 → exec (.deviation 0) s = .next s)
  ∧ (∀ s : State, s.locusOn = true → (s.locusAxis 0).secondary.isSome = true →
      ((s.locusAxis 0).devWindow : Int) * 65536 < |s.scanDev| →
    exec (.deviation 0) s = .next
      ((((({ s with locus.deviation := true }).locusIrq 14).detectOpen 0x0016 0 ((s.locusAxis 0).primary.getD 0) 0)).axisLost 0 true))
  ∧ (∀ (s : State) (d : Nat) (v : Bool), s.locusOn = true → d < 16 → (s.din d).raw ≠ v → (s.din d).chatterCount = 0 →
    Completes (exec (.dinChange d v) s) fun u =>
      u.out = s.out ∧ u.arc = s.arc ∧ u.ctl = s.ctl ∧ (∀ e, e ≠ d → u.din e = s.din e)
      ∧ (d < s.locus.dins.length → (u.din d).raw = v ∧ (u.din d).value = (s.din d).value ∧ (u.din d).level = (s.din d).level))
  ∧ (∀ (s : State) (d : Nat), s.locusOn = true → d < 16 → d < s.locus.dins.length → (s.din d).capture = false → s.dinAxis d = none →
    exec (.dinDebounce d) s = .next { s with locus.dins := s.locus.dins.modify d fun x =>
      { x with level := x.raw != x.invert, value := (x.raw != x.invert) || x.chatter } })
  ∧ (∀ (s : State) (d : Nat), s.locusOn = true → d < 16 → (s.din d).stuckMs ≠ 0 → (s.din d).value = true →
    exec (.dinStuck d) s = .next
      (({ s with locus.dins := s.locus.dins.modify d fun x => { x with stuck := true } }).locusIrq 12))
  ∧ (∀ (s : State) (d : Nat), s.hifOn = true → s.locusOn = true → d < 16 →
    exec (.locusDinFlagClear d 1) s = .next { s with locus.dins := s.locus.dins.modify d fun x => { x with stuck := false } })
  ∧ (∀ (s : State) (p : Packet), s.Takes 0x0406 p →
    (p.target = 15 → exec (.compareSet p) s = .next (s.finish (s.cmd 0x0406 p) compareReserved []))
    ∧ (p.target ≠ 15 → (s.locusAxis (p.param 2 % 16)).primary.isSome = true → p.param 2 < 512 → p.param 2 % 16 < 10 → p.param 3 = 0 →
        bit (p.param 2) 8 = false →
        (bits (p.param 2) 5 4 = 3 → exec (.compareSet p) s = .next
          ((s.modCompare p.target fun x => { x with state := .idle, axis := p.param 2 % 16 }).finish (s.cmd 0x0406 p) ok [0]))
        ∧ (bits (p.param 2) 5 4 ≠ 3 → s.axisUsable (p.param 2 % 16) = false →
          exec (.compareSet p) s = .next (s.finish (s.cmd 0x0406 p) axisUnreferenced []))
        ∧ (bits (p.param 2) 5 4 = 2 → s.axisUsable (p.param 2 % 16) = true → p.target < s.locus.compares.length →
          Completes (exec (.compareSet p) s) fun u =>
            (u.compare p.target).state = .armed ∧ (u.compare p.target).target = signed 64 (p.param64 0)
            ∧ (u.compare p.target).axis = p.param 2 % 16 ∧ (∀ v, v ≠ p.target → u.compare v = s.compare v)
            ∧ u.locus.axes = s.locus.axes ∧ u.arc = s.arc)))
  ∧ (∀ (s : State) (p : Packet), s.Takes 0x0405 p →
    (∀ i < 16, p.param 0 = 3 + 256 * i → (p.param 3 % 256 = 0 ∨ p.param 3 / 65536 % 65536 ≠ 0) → exec (.locusConfig p) s = .next
      (({ s with locus.dins := s.locus.dins.modify i fun x => { x with
          debounce := p.param 1 % 65536, invert := bit (p.param 1) 16, capture := bit (p.param 1) 17
          stuckMs := p.param 2 % 65536, chatterCount := p.param 3 % 256, chatterMs := p.param 3 / 65536 % 65536
          changes := [] } }).finish (s.cmd 0x0405 p) ok []))
    ∧ (p.param 0 = 5 → p.param 1 % 16384 ≤ 16000 → exec (.locusConfig p) s = .next
      (({ s with
          locus.latency := p.param 1 % 16384, locus.bandwidth := p.param 1 / 65536 % 4, locus.lockWin := p.param 2 % 65536
          locus.unlockWin := p.param 2 / 65536 % 65536, locus.markEvery := p.param 3 % 65536 }).finish (s.cmd 0x0405 p) ok [])))

/-- Firmware runs: CONFIGURED, the interpreter ready (18 R448, 14 R363, R369; 01 Table 1-7). -/
def Obligations.BootCompletes : Prop :=
  (∀ (s : State) (a : List Nat) (b : List (Nat × Nat)), s.ctl.boot ≠ .loading → exec (.bootComplete a b) s = .next s)
  ∧ ∀ s : State, s.ctl.boot = .loading → s.seq.interrupted = none → (∀ d, (s.die d).sram.ueLog = none) → s.ctl.darkN = false →
      s.headTrip = false → s.therm.stopped = false → s.therm.blind = false →
    Completes (exec (.bootComplete [] []) s) fun t =>
      t.ctl.dev = .configured ∧ t.ctl.ready = true ∧ t.ctl.boot = .idle ∧ t.arc.spRunning = true ∧ t.hif = s.hif ∧ t.seq = s.seq
      ∧ t.perim.log = s.perim.log ∧ t.locus = s.locus ∧ t.datum = s.datum ∧ t.tables = s.tables
      ∧ ∀ d ∈ t.dies, d.comp.selftestOk = true ∧ (∀ u ∈ d.crc, u.selftestOk = true)
          ∧ ∀ l ∈ d.lanes, l.retired = false → l.state = .down

/-- TIME_CONFIG, TIME_TRIGGER, TRIGGER_FIRE, DEVICE_TIME_STEP and the latches (13 R331, R334, R335, R341, R352; 19 R461, R468). -/
def Obligations.TimeCommands : Prop :=
  (∀ (s : State) (p : Packet), s.Takes 0x0500 p →
    (p.param 0 = 3 → s.datum.disciplined = false → s.datum.stepPending = false → exec (.timeConfig p) s = .next
      ({ s with
          datum.preferred := p.param 1 % 2, datum.revert := bit (p.param 1) 1, datum.stepFirst := bit (p.param 1) 2 }.finish
        (s.cmd 0x0500 p) ok []))
    ∧ (p.param 0 = 4 → 999999999 < p.param 3 → exec (.timeConfig p) s = .next (s.finish (s.cmd 0x0500 p) badParam []))
    ∧ (p.param 0 = 4 → p.param 3 ≤ 999999999 → (s.ctl.dev ≠ .configured ∨ ∃ x ∈ s.arc.axes, x.enabled = true) →
        exec (.timeConfig p) s = .next (s.finish (s.cmd 0x0500 p) timeStepDenied []))
    ∧ (p.param 0 = 4 → p.param 3 ≤ 999999999 → s.ctl.dev = .configured → (∀ x ∈ s.arc.axes, x.enabled = false) →
        s.datum.disciplined = false → s.datum.captureCh = none → (∀ t < 16, (s.trigger t).state ≠ 1) →
        let time := (p.param64 1 * 1000000000 + p.param 3) * 2 ^ 48
        exec (.timeConfig p) s = .next
          ({ s with
              datum.time := time
              datum.domains := s.datum.domains.map fun (d : Domain) =>
                if d.known then { d with offset := d.offset - ((time : Int) - s.datum.time) } else d }.finish (s.cmd 0x0500 p) ok []))
    ∧ (∀ i < 2, p.param 0 = 1 + 256 * i → i < s.datum.ports.length → p.param 1 % 4 < 3 → p.param 1 / 4 % 4 < 2 → p.param 3 % 64 ≤ 32 →
        s.datum.disciplined = false →
        Completes (exec (.timeConfig p) s) fun t =>
          (t.port i).speed = p.param 1 % 4 ∧ (t.port i).fec = p.param 1 / 4 % 4 ∧ (t.port i).vlan = bit (p.param 1) 4
          ∧ (t.port i).vlanId = p.param 1 / 32 % 4096 ∧ (t.port i).ip = p.param 2 ∧ (t.port i).prefixLen = p.param 3 % 64
          ∧ (t.port i).rxLat = p.param 4 % 65536 ∧ (t.port i).txLat = p.param 4 / 65536 % 65536
          ∧ (∀ d ∈ t.datum.domains, d.port = i → d.state = (if d.enabled then .listening else .disabled) ∧ d.known = false)
          ∧ (∀ j, j ≠ i → t.port j = s.port j) ∧ t.datum.time = s.datum.time ∧ t.locus = s.locus ∧ t.arc = s.arc))
  ∧ (∀ (s : State) (p : Packet), s.Takes 0x0502 p → s.datum.triggers.length = 16 →
    ((32 ≤ p.param 0 ∨ 12 ≤ p.param 0 % 16) → exec (.timeTrigger p) s = .next (s.finish (s.cmd 0x0502 p) badParam []))
    ∧ (∀ t < 12, p.param 0 = 16 + t → exec (.timeTrigger p) s = .next
        ((s.modTrigger t fun x => { x with state := 0, late := false }).finish (s.cmd 0x0502 p) ok [0]))
    ∧ (∀ t < 12, p.param 0 = t → p.param 3 ≤ 999999999 →
        s.datum.time < (p.param64 1 * 1000000000 + p.param 3) * 2 ^ 48 + p.param 4 % 65536 * 2 ^ 32 →
        exec (.timeTrigger p) s = .next
          ((s.modTrigger t fun _ =>
            { state := 1, late := false, ns := p.param64 1 * 1000000000 + p.param 3, frac := p.param 4 % 65536 }).finish
              (s.cmd 0x0502 p) ok [0])))
  ∧ (∀ (s : State) (t : Nat), s.running = true → t < 16 → (s.trigger t).state = 1 → s.datum.captureCh = none →
      s.datum.irq.getLsbD 0 = true → s.seq.stripes = [] → (∀ u < 15, (s.compare u).state ≠ .waitTrigger) →
    exec (.triggerFire t) s = .next ((s.modTrigger t fun x => { x with state := 2, late := false }).signal 22))
  ∧ (∀ s : State, s.running = true → s.datum.stepPending = true → s.ctl.dev = .configured → (∀ x ∈ s.arc.axes, x.enabled = false) →
      (s.domain s.datum.selected).known = true → s.datum.captureCh = none → (∀ t < 16, (s.trigger t).state ≠ 1) →
      0 ≤ (s.datum.time : Int) + (s.domain s.datum.selected).offset →
    Completes (exec .deviceTimeStep s) fun t =>
      (t.datum.time : Int) = s.datum.time + (s.domain s.datum.selected).offset ∧ t.datum.disciplined = true
      ∧ t.datum.stepPending = false ∧ t.datum.rho = 0 ∧ t.datum.rate = (s.domain s.datum.selected).rate
      ∧ (t.domain s.datum.selected).offset = 0 ∧ t.datum.triggers = s.datum.triggers ∧ t.ctl = s.ctl ∧ t.seq = s.seq)
  ∧ (∀ s : State, s.hifOn = true → s.domOn 0 1 = true →
    exec .datumTimeLatch s = .next { s with datum.latch := (s.timeSec / 2 ^ 32, s.timeNs, s.timeFrac) }
    ∧ exec .devTimeLatch s = .next { s with datum.alias_ := (s.timeSec / 2 ^ 32, s.timeNs, s.timeFrac) })

/-- Sync, Follow_Up, delay exchanges and Announce (13 R332, R336, R337, R340). -/
def Obligations.PtpMessages : Prop :=
  ∀ (s : State) (port d : Nat) (m : PtpMsg), s.domainsOf port m = [d] →
    let x := s.domain d
    let rx : Int := m.rxTime - 64 * ((s.port port).rxLat : Int)
    (s.fromMaster d m = true → m.twoStep = true →
      exec (.sync port m) s = .next (s.modDomain d fun x => { x with pendingSync := some m }))
    ∧ (s.fromMaster d m = false → exec (.sync port m) s = .next s)
    ∧ (s.fromMaster d m = true → m.twoStep = false → x.known = false → x.state = .acquiring → x.good < 15 →
        s.datum.disciplined = false →
        Completes (exec (.sync port m) s) fun t =>
          (t.domain d).known = true ∧ (t.domain d).offset = (m.time + m.correction / 256 + x.path - rx) * 2 ^ 40
          ∧ (t.domain d).good = x.good + 1 ∧ (t.domain d).state = .acquiring ∧ (t.domain d).discards = 0
          ∧ (t.domain d).syncPair = some (m.time + m.correction / 256, rx) ∧ (∀ e, e ≠ d → t.domain e = s.domain e)
          ∧ t.datum.time = s.datum.time ∧ t.datum.ports = s.datum.ports ∧ t.out = s.out)
    ∧ (s.fromMaster d m = true → m.twoStep = false → x.known = true → x.discards < 7 →
        (x.jumpThr : Int) * 2 ^ 48 < |(m.time + m.correction / 256 + x.path - rx) * 2 ^ 40 - x.offset| →
        Completes (exec (.sync port m) s) fun t =>
          (t.domain d).discards = x.discards + 1 ∧ (t.domain d).offset = x.offset ∧ (t.domain d).good = x.good
          ∧ (t.domain d).state = x.state ∧ (∀ e, e ≠ d → t.domain e = s.domain e) ∧ t.datum.time = s.datum.time)
    ∧ (∀ y : PtpMsg, x.pendingSync = some y → s.fromMaster d m = true → y.seq = m.seq → x.known = false → x.state = .acquiring →
        x.good < 15 → s.datum.disciplined = false →
        Completes (exec (.followUp port m) s) fun t =>
          (t.domain d).known = true ∧ (t.domain d).pendingSync = none
          ∧ (t.domain d).offset = (m.time + m.correction / 256 + y.correction / 256 + x.path
              - (y.rxTime - 64 * ((s.port port).rxLat : Int))) * 2 ^ 40
          ∧ (t.domain d).good = x.good + 1 ∧ (∀ e, e ≠ d → t.domain e = s.domain e) ∧ t.datum.time = s.datum.time)
    ∧ (∀ (t1 t2 : Int) (t3 : Nat), x.delayReq = some (m.seq, t3) → x.syncPair = some (t1, t2) → x.p2p = false → s.fromMaster d m = true →
        Completes (exec (.delayResp port m) s) fun t =>
          t.domain d = { x with delayReq := none, path := ((t2 - t1) + (m.time - m.correction / 256 - t3)) / 2 }
          ∧ (∀ e, e ≠ d → t.domain e = s.domain e) ∧ t.datum.time = s.datum.time)
    ∧ (x.p2p = false → exec (.pdelayReq port m) s = .next s)
    ∧ (x.p2p = true → (s.port port).txts.length < 16 →
        Completes (exec (.pdelayReq port m) s) fun t =>
          t.out = s.out ++ [.ptp port 3 m.seq m.domain, .ptp port 0xA m.seq m.domain] ∧ t.datum.domains = s.datum.domains
          ∧ t.datum.time = s.datum.time)
    ∧ (∀ t1 : Nat, x.delayReq = some (m.seq, t1) → x.p2p = true →
        Completes (exec (.pdelayResp port m) s) fun t =>
          t.domain d = (if m.twoStep then { x with pdelay := some (m, t1) }
            else { x with delayReq := none, path := (rx - t1 - m.correction / 256) / 2 })
          ∧ (∀ e, e ≠ d → t.domain e = s.domain e) ∧ t.datum.time = s.datum.time)
    ∧ (∀ (r : PtpMsg) (t1 : Nat), x.pdelay = some (r, t1) → r.seq = m.seq → r.source = m.source →
        exec (.pdelayRespFollowUp port m) s = .next (s.modDomain d fun x =>
          { x with
            delayReq := none, pdelay := none
            path := ((r.rxTime - 64 * ((s.port port).rxLat : Int) - t1) - (m.time - r.time) - m.correction / 256 - r.correction / 256) / 2 }))
    ∧ (∀ dataset, x.master = none → x.state ≠ .lost → exec (.announce port m dataset) s = .next
        (s.modDomain d fun x => { x with master := some (m.source, dataset) }))
    ∧ (∀ dataset cur, x.master = some cur → x.state ≠ .lost → cur.1 ≠ m.source →
        exec (.announce port m dataset) s = .next
          (s.modDomain d fun x => if betterMaster dataset cur.2 then { x with master := some (m.source, dataset), pendingSync := none } else x))

/-- DELAY_REQ_SEND, timeouts, ARP, ICMP and link changes (13 R331, R336, R337, R340; Table 13-8). -/
def Obligations.PtpTimersAndPorts : Prop :=
  (∀ (s : State) (port d : Nat), s.portUp port = true → d < 2 → (s.domain d).enabled = true → (s.domain d).port = port →
      (s.domain d).delayReq = none → (s.port port).txts.length < 16 → port < s.datum.ports.length →
    let type := if (s.domain d).p2p then 2 else 1
    let at_ := (((s.datum.time / 2 ^ 40 : Nat) : Int) + 64 * (s.port port).txLat).toNat
    Completes (exec (.delayReqSend port d) s) fun t =>
      t.out = s.out ++ [.ptp port type (s.port port).seq (s.domain d).number]
      ∧ t.domain d = { s.domain d with delayReq := some ((s.port port).seq, at_), pdelay := none }
      ∧ t.port port = { s.port port with
          txts := (s.port port).txts ++ [((s.port port).seq, type, (s.domain d).number, at_)], seq := ((s.port port).seq + 1) % 65536 }
      ∧ (∀ e, e ≠ d → t.domain e = s.domain e) ∧ (∀ q, q ≠ port → t.port q = s.port q) ∧ t.datum.time = s.datum.time)
  ∧ (∀ (s : State) (d : Nat), s.running = true → d < 2 → ((s.domain d).state = .acquiring ∨ (s.domain d).state = .locked) →
      s.datum.disciplined = false →
    Completes (exec (.syncTimeout d) s) fun t =>
      (t.domain d).state = .lost ∧ (t.domain d).known = false ∧ (t.domain d).good = 0 ∧ (t.domain d).master = none
      ∧ (∀ e, e ≠ d → t.domain e = s.domain e) ∧ t.datum.time = s.datum.time ∧ t.out = s.out)
  ∧ (∀ (s : State) (d : Nat), s.running = true → d < 2 → (s.domain d).enabled = true → (s.domain d).master.isSome = true →
      s.datum.disciplined = false →
    Completes (exec (.announceReceiptTimeout d) s) fun t =>
      (t.domain d).state = .lost ∧ (t.domain d).known = false ∧ (t.domain d).master = none
      ∧ (∀ e, e ≠ d → t.domain e = s.domain e) ∧ t.datum.time = s.datum.time ∧ t.out = s.out)
  ∧ (∀ (s : State) (port mac ip target : Nat), s.portUp port = true → (s.port port).ip ≠ 0 →
    exec (.arpRequest port mac ip target) s = .next (if target = (s.port port).ip then { s with out := s.out ++ [.arpReply port mac ip] } else s))
  ∧ (∀ (s : State) (port : Nat) (ws : List Word), s.portUp port = true → (s.port port).ip ≠ 0 →
    exec (.icmpEchoRequest port ws) s = .next { s with out := s.out ++ [.echoReply port ws] })
  ∧ (∀ (s : State) (port mac ip target : Nat) (ws : List Word), s.portUp port = false →
    exec (.arpRequest port mac ip target) s = .next s ∧ exec (.icmpEchoRequest port ws) s = .next s)
  ∧ (∀ (s : State) (port rate : Nat) (up : Bool), s.running = true → port < 2 → s.chord.peers = [] →
    exec (.ethernetLinkChange port up rate) s = .next
      (s.modPort port fun p => { p with link := up && p.speed != 0 && p.speed == rate }))

/-- Chord's commands (13 R345, R346, R348, R352; Table 13-5). -/
def Obligations.ChordCommands : Prop :=
  (∀ (s : State) (p : Packet) (env : List Word), s.Takes 0x0503 p →
    (p.param 0 = 1 → 1 ≤ p.param 3 → p.param 3 ≤ 10000 → exec (.chordConfig p env) s = .next
      { s.finish (s.cmd 0x0503 p) ok [] with
        chord := { s.chord with
          udpPort := p.param 1 % 65536, enabled := bit (p.param 1) 16, rtoUs := p.param 2 % 65536
          retriesMax := p.param 2 / 65536 % 16, syncMs := p.param 3, aggregate := bit (p.param 4) 0
          stitchEast := bit (p.param 4) 1, stitchWest := bit (p.param 4) 2 } })
    ∧ (p.param 0 = 1 → (p.param 3 = 0 ∨ 10000 < p.param 3) →
        exec (.chordConfig p env) s = .next (s.finish (s.cmd 0x0503 p) badParam []))
    ∧ (∀ ps, p.param 0 = 2 → 1 ≤ p.param 3 → p.param 3 ≤ 1024 → s.chord.peers = [] → peerEntries [] (p.param 3) env = some ps →
        exec (.chordConfig p env) s = .next
          ({ s.hostRead (8 * p.param 3) with
              chord.peers := ps.map (fun (q : Peer) => { q with failedOver := q.port == 2 && !(s.port 0).link }) }.finish (s.cmd 0x0503 p) ok [])))
  ∧ (∀ (s : State) (p : Packet), s.Takes 0x0504 p →
    let r := p.param 0 % 4
    let holder := p.param 2 % 1024
    ((s.role r).epoch < p.param 1 → ¬(r < 2 ∧ holder = s.ctl.deviceId ∧ s.chord.enabled = true) →
      exec (.roleSet p) s = .next
        ({ s with chord.roles := s.chord.roles.set r { holder := holder, epoch := p.param 1 } }.finish (s.cmd 0x0504 p) ok [p.param 1]))
    ∧ (s.role r = { holder := holder, epoch := p.param 1 } →
        exec (.roleSet p) s = .next (s.finish (s.cmd 0x0504 p) ok [p.param 1]))
    ∧ ((p.param 1 < (s.role r).epoch ∨ (p.param 1 = (s.role r).epoch ∧ holder ≠ (s.role r).holder)) →
        exec (.roleSet p) s = .next (s.finish (s.cmd 0x0504 p) staleRoleStatus [(s.role r).epoch])))
  ∧ (∀ (s : State) (p : Packet), s.Takes 0x0505 p → p.param 0 < 2 ^ 31 →
    ((1024 ≤ p.param 0 ∨ s.peer? (p.param 0) = none) → exec (.chordSend p) s = .next (s.finish (s.cmd 0x0505 p) badParam []))
    ∧ (∀ q, p.param 0 < 1024 → s.peer? (p.param 0) = some q → s.chord.enabled = true → q.unacked.length < 8 → q.queued = [] →
        let pl := (List.range 13).map fun i => BitVec.ofNat 32 (p.param (i + 1))
        Completes (exec (.chordSend p) s) fun t =>
          t.out = (s.interim (s.cmd 0x0505 p) ok []).out ++ [.chord q.via q.id (s.msgWords q 0x01 none 0 q.next pl)]
          ∧ t.hif = (s.interim (s.cmd 0x0505 p) ok []).hif
          ∧ t.peer? (p.param 0) = some { q with
              unacked := q.unacked ++
                [{ type := 0x01, role := none, epoch := 0, seq := q.next, payload := pl, ctx := some (s.cmd 0x0505 p), retries := 0 }]
              next := (q.next + 1) % 2 ^ 32 }
          ∧ t.chord.roles = s.chord.roles ∧ t.seq = s.seq ∧ t.datum = s.datum))

/-- DATA, ACK, STALE_ROLE, ROLE_ANNOUNCE, SYNC_READY, SYNC_GO, STITCH_OFFER, LEDGER_BATCH (13 R344-R351). -/
def Obligations.ChordReceives : Prop :=
  (∀ (s : State) (port : Nat) (ws : List Word), s.portUp port = true → s.chord.enabled = true → chordHeader ws = none →
    let t := { s with chord.rxDrop := satInc s.chord.rxDrop }
    exec (.data port ws) s = .next t ∧ exec (.ack port ws) s = .next t ∧ exec (.staleRole port ws) s = .next t
    ∧ exec (.roleAnnounce port ws) s = .next t ∧ exec (.syncReady port ws) s = .next t ∧ exec (.syncGo port ws) s = .next t
    ∧ exec (.stitchOffer port ws) s = .next t ∧ exec (.ledgerBatch port ws) s = .next t)
  ∧ (∀ (s : State) (port : Nat) (ws : List Word) (h : ChordHdr) (p : Peer),
    let moved := { p with session := h.session, last := h.seq }
    let pl := chordPayload ws
    (∀ (ch : Nat) (c : DmaT), s.chord.receiveCh = some ch → s.dmaT[ch]? = some c → c.source = .chord → c.enabled = true →
        c.waitingBytes + 4 * (8 + pl.length + (8 - pl.length % 8) % 8) ≤ c.room →
        let heard := fun (type : Nat) (t : State) =>
          t.peer? h.src = some moved ∧ (∃ es, t.out = s.out ++ .chord p.via p.id (s.ackWords p h.seq) :: es)
          ∧ t.dmaT[ch]? = some { c with waiting := c.waiting ++ [s.recordWords type h.src h.seq h.epoch pl] }
          ∧ t.chord.roles = s.chord.roles ∧ t.seq = s.seq ∧ t.datum = s.datum ∧ t.hif = s.hif
        (s.Hears port 0x01 ws h p → Completes (exec (.data port ws) s) (heard 0x01))
        ∧ (s.Hears port 0x20 ws h p → Completes (exec (.ledgerBatch port ws) s) (heard 0x20)))
    ∧ (∀ m, s.Gets port 0x02 ws h p → p.session = h.session → p.unacked.find? (fun m => m.seq == h.ref) = some m → m.type ≠ 0x20 →
        p.queued = [] →
        exec (.ack port ws) s = .next
          ((((s.modPeer h.src fun q => { q with session := h.session, last := p.last }).count 0 190 1).modPeer h.src fun q =>
              { q with unacked := q.unacked.filter (fun x => x.seq != h.ref), tries := 0 }).finalOpt m.ctx ok [h.src, m.epoch]))
    ∧ (s.Gets port 0x03 ws h p → s.chord.roles.length = 4 → (s.role (wordAt pl 0 % 4)).epoch < wordAt pl 1 → s.seq.stripes = [] →
        (∀ q ∈ s.chord.peers, q.unacked = [] ∧ q.queued = []) →
        Completes (exec (.staleRole port ws) s) fun t =>
          t.role (wordAt pl 0 % 4) = { holder := wordAt pl 2 % 1024, epoch := wordAt pl 1 } ∧ t.chord.stale = satInc s.chord.stale
          ∧ (∀ r, r ≠ wordAt pl 0 % 4 → t.role r = s.role r) ∧ t.out = s.out)
    ∧ (∀ m, s.Gets port 0x03 ws h p → wordAt pl 1 ≤ (s.role (wordAt pl 0 % 4)).epoch → p.session = h.session →
        p.unacked.find? (fun m => m.seq == h.ref && m.role == some (wordAt pl 0 % 4)) = some m → m.ctx = none →
        Completes (exec (.staleRole port ws) s) fun t =>
          t.peer? h.src = some { p with
            unacked := p.unacked.filter (fun x => x.seq != h.ref), tries := 0
            queued := p.queued ++ [{ m with retries := m.retries + 1 }] }
          ∧ t.chord.stale = satInc s.chord.stale ∧ t.chord.roles = s.chord.roles ∧ t.out = s.out)
    ∧ (s.Hears port 0x04 ws h p → s.chord.roles.length = 4 → (s.role (wordAt pl 0 % 4)).epoch < wordAt pl 1 → s.seq.stripes = [] →
        (∀ q ∈ s.chord.peers, q.unacked = [] ∧ q.queued = []) →
        Completes (exec (.roleAnnounce port ws) s) fun t =>
          t.role (wordAt pl 0 % 4) = { holder := wordAt pl 2 % 1024, epoch := wordAt pl 1 } ∧ t.peer? h.src = some moved
          ∧ (∀ r, r ≠ wordAt pl 0 % 4 → t.role r = s.role r) ∧ t.out = s.out ++ [.chord p.via p.id (s.ackWords p h.seq)])
    ∧ (s.Hears port 0x10 ws h p → s.chord.groups = [] → s.groupSize (wordAt pl 0) = none → wordAt pl 2 % 2 = 0 →
        Completes (exec (.syncReady port ws) s) fun t =>
          t.chord.groups = [{ group := wordAt pl 0, members := [h.src], aborted := false, go := none }] ∧ t.peer? h.src = some moved
          ∧ t.out = s.out ++ [.chord p.via p.id (s.ackWords p h.seq)] ∧ t.seq = s.seq ∧ t.datum = s.datum)
    ∧ (∀ st rest, s.Hears port 0x11 ws h p → s.seq.stripes = st :: rest → st.startMode = 2 → st.syncSent = true →
        st.startRef % 2 ^ 22 = wordAt pl 0 → wordAt pl 1 % 2 = 0 → s.datum.triggers.length = 16 →
        s.datum.time < (word64 pl 2 * 1000000000 + wordAt pl 4) * 2 ^ 48 →
        Completes (exec (.syncGo port ws) s) fun t =>
          t.trigger 12 = { state := 1, late := false, ns := word64 pl 2 * 1000000000 + wordAt pl 4, frac := 0 }
          ∧ (∀ u, u ≠ 12 → t.trigger u = s.trigger u) ∧ t.seq = s.seq ∧ t.peer? h.src = some moved
          ∧ t.out = s.out ++ [.chord p.via p.id (s.ackWords p h.seq)])
    ∧ (s.Hears port 0x12 ws h p → s.chord.offers = [] →
        Completes (exec (.stitchOffer port ws) s) fun t =>
          t.chord.offers = [{ group := wordAt pl 0, west := wordAt pl 1 % 2 == 1, pitch := wordAt pl 2, x := signed 64 (word64 pl 3)
                              w := wordAt pl 5 % 512, ramp := halves ((pl.drop 6).take 128) }]
          ∧ t.peer? h.src = some moved ∧ t.out = s.out ++ [.chord p.via p.id (s.ackWords p h.seq)] ∧ t.seq = s.seq))

/-- SYNC_READY_SEND, LEDGER_BATCH_SEND, CHORD_RETRANSMIT (13 R345, R349, R351). -/
def Obligations.ChordSends : Prop :=
  (∀ (s : State) (st : Stripe) (p : Peer), s.seq.stripes = [st] → s.running = true → st.startMode = 2 → st.phase = .ready → st.pass = 0 →
      st.paused = true → st.syncSent = false → st.offered = true → s.chord.enabled = true → s.datum.disciplined = true →
      s.domLocked s.datum.selected = true → s.chord.stitchEast = false → s.chord.stitchWest = false →
      (s.role 0).holder ≠ s.ctl.deviceId → s.peer? (s.role 0).holder = some p → p.unacked.length < 8 → p.queued = [] →
    let pl := [BitVec.ofNat 32 (st.startRef % 2 ^ 22), BitVec.ofNat 32 st.id, 0]
    Completes (exec .syncReadySend s) fun t =>
      t.seq.stripes = [{ st with syncSent := true, stitchFailed := false }]
      ∧ t.out = s.out ++ [.chord p.via p.id (s.msgWords p 0x10 (some 0) (s.role 0).epoch p.next pl)]
      ∧ (∀ q, t.peer? (s.role 0).holder = some q → q.next = (p.next + 1) % 2 ^ 32 ∧ q.queued = []) ∧ t.datum = s.datum)
  ∧ (∀ (s : State) (p : Peer) (i : Nat) (ws : List Word), s.running = true → s.chord.enabled = true → s.chord.aggregate = true →
      (s.role 1).holder ≠ s.ctl.deviceId → s.peer? (s.role 1).holder = some p → p.unacked.length < 8 → p.queued = [] →
      s.seq.batch = [(i, ws)] →
    Completes (exec .ledgerBatchSend s) fun t =>
      t.seq = { s.seq with batch := [] }
      ∧ t.out = s.out ++ [.chord p.via p.id (s.msgWords p 0x20 (some 1) (s.role 1).epoch p.next ([BitVec.ofNat 32 i, 1] ++ ws))]
      ∧ t.datum = s.datum ∧ t.hif = s.hif)
  ∧ (∀ (s : State) (dest : Nat) (p : Peer) (m : ChordMsg), s.running = true → s.chord.enabled = true → s.peer? dest = some p →
      p.unacked = [m] →
    (p.tries < s.chord.retriesMax →
      Completes (exec (.chordRetransmit dest) s) fun t =>
        t.out = s.out ++ [.chord p.via p.id (s.msgWords p m.type m.role m.epoch m.seq m.payload)]
        ∧ t.chord.retry = satAdd s.chord.retry 1 ∧ t.peer? dest = some { p with tries := p.tries + 1 } ∧ t.hif = s.hif)
    ∧ (s.chord.retriesMax ≤ p.tries → p.queued = [] → m.type = 0x01 →
      Completes (exec (.chordRetransmit dest) s) fun t =>
        t.chord.unreach = true ∧ t.chord.unreachId = dest ∧ t.peer? dest = some { p with unacked := [], queued := [], tries := 0 }
        ∧ t.chord.retry = s.chord.retry ∧ t.chord.roles = s.chord.roles))

/-- LANE_TRAIN, LANE_POWER, LANE_STATUS, HEAD_QUERY, PULSE_TABLE_LOAD, LANE_SEL, LANE_CTRL (02 R69, R70; 08 R208; 10 R257, R267, R270,
R273). -/
def Obligations.LaneCommands : Prop :=
  (∀ (s : State) (p : Packet), s.Takes 0x0600 p → s.Inv →
    (3 < p.param 0 % 16 → exec (.laneTrain p) s = .next (s.finish (s.cmd 0x0600 p) badParam []))
    ∧ (p.param 0 % 16 ≤ 3 → p.isDev = false → Completes (exec (.laneTrain p) s) fun t =>
        t.lane p.target = { s.lane p.target with
          state := .training, step := 1, rate := 0, trying := 0, target := p.param 0 % 16, lastPass := none, fallBack := false
          hello := false, elems := [], echoes := [], headLocked := false, retLocked := false, silent := false
          headWarn := Lane.warns { s.lane p.target with silent := false } }
        ∧ (∀ m, m ≠ p.target → t.lane m = s.lane m)
        ∧ t.hif = { s.hif with busy := some (.laneTrain (s.cmd 0x0600 p) [p.target] (p.param 0 % 16)) } ∧ t.out = s.out))
  ∧ (∀ (s : State) (p : Packet), s.Takes 0x0601 p → s.Inv →
    let l := s.lane p.target
    (p.param 0 % 4 = 3 → exec (.lanePower p) s = .next (s.finish (s.cmd 0x0601 p) badParam []))
    ∧ (p.param 0 % 4 ≠ 3 → p.isDev = false → (l.state = .down ∨ l.state = .training) →
        exec (.lanePower p) s = .next (s.finish (s.cmd 0x0601 p) laneNotReady []))
    ∧ (p.param 0 % 4 ≠ 3 → p.isDev = false → l.state = .up → l.power.code = p.param 0 % 4 → Completes (exec (.lanePower p) s) fun t =>
        t.lane p.target = { l with thermalL1 := false } ∧ (∀ m, m ≠ p.target → t.lane m = s.lane m)
        ∧ t.hif = (s.finish (s.cmd 0x0601 p) ok []).hif ∧ t.out = (s.finish (s.cmd 0x0601 p) ok []).out)
    ∧ (p.param 0 % 4 = 1 → p.isDev = false → l.state = .up → l.power = .l0 → Completes (exec (.lanePower p) s) fun t =>
        t.lane p.target = { l with
          thermalL1 := false, elemSeq := (l.elemSeq + 1) % 65536
          elems := l.elems ++ [{ type := 6, ackReq := true, seq := l.elemSeq, arg := 1, data := [], tries := 0, due := true }] }
        ∧ (∀ m, m ≠ p.target → t.lane m = s.lane m)
        ∧ t.hif = { s.hif with busy := some (.lanePower (s.cmd 0x0601 p) [p.target] 1) } ∧ t.out = s.out)
    ∧ (p.param 0 % 4 ≠ 3 → p.param 0 % 4 ≠ 1 → p.isDev = false → l.state = .up → l.power = .l1 →
      Completes (exec (.lanePower p) s) fun t =>
        t.lane p.target = { l with
          thermalL1 := false, state := .training, step := 8, trying := l.rate, target := l.rate, lastPass := none }
        ∧ (∀ m, m ≠ p.target → t.lane m = s.lane m)
        ∧ t.hif = { s.hif with busy := some (.lanePower (s.cmd 0x0601 p) [p.target] (p.param 0 % 4)) } ∧ t.out = s.out))
  ∧ (∀ (s : State) (p : Packet), s.Takes 0x0603 p →
    let l := s.lane p.target
    exec (.laneStatus p) s = .next (s.finish (s.cmd 0x0603 p) ok [l.statWord, s.recentRetrains l, l.eye.1, l.eye.2, l.groups]))
  ∧ (∀ (s : State) (p : Packet), s.Takes 0x0604 p →
    let l := s.lane p.target
    exec (.headQuery p) s = .next (s.finish (s.cmd 0x0604 p) ok [s.headTempWord l, l.header.toNat, l.headFw.toNat]))
  ∧ (∀ (s : State) (p : Packet) (env : List Word), s.Takes 0x0605 p →
    let image := (wordsBytes env ++ List.replicate 1024 0).take 1024
    let l := s.lane p.target
    (p.param 2 ≠ 1024 → exec (.pulseTableLoad p env) s = .next (s.finish (s.cmd 0x0605 p) tableFormat [0xFFFFFFFF]))
    ∧ (s.Inv → p.param 2 = 1024 → p.isDev = false → pulseLayoutFail 1024 image = none → (imageCodes image).headD 0 ≠ 0 →
        codesRise (imageCodes image) = true → l.inL0 = true → l.elemSeq < 65536 → Completes (exec (.pulseTableLoad p env) s) fun t =>
          (t.lane p.target).elems = l.elems ++ (List.range 32).map (fun k =>
            { type := 8, ackReq := true, seq := (l.elemSeq + k) % 65536, arg := BitVec.ofNat 32 (32 * k)
              data := (image.drop (32 * k)).take 32, tries := 0, due := true })
          ∧ (∀ m, m ≠ p.target → t.lane m = s.lane m)
          ∧ t.hif = { s.hif with busy := some (.pulseTable (s.cmd 0x0605 p) [p.target] image false []) }))
  ∧ (∀ (s : State) (v : Word), s.hifOn = true → exec (.laneSelWrite v) s = .next
      { s with ctl.laneSel := v.toNat % 128, ctl.laneWrIgnored := s.ctl.laneWrIgnored && !v.getLsbD 18 })
  ∧ (∀ s : State, s.hifOn = true → s.ctl.laneSel < s.nLanes → s.hif.busy = none →
    ((s.lane s.ctl.laneSel).retired = true →
      exec .laneErrorInject s = .next { s with ctl.laneWrIgnored := true }
      ∧ exec .laneRetrainRequest s = .next { s with ctl.laneWrIgnored := true })
    ∧ ((s.lane s.ctl.laneSel).retired = false →
      exec .laneErrorInject s = .next (s.modLane s.ctl.laneSel fun l => { l with errInject := true }))
    ∧ (s.Inv → (s.lane s.ctl.laneSel).inL0 = true → s.recentRetrains (s.lane s.ctl.laneSel) < 3 →
      Completes (exec .laneRetrainRequest s) fun t =>
        (t.lane s.ctl.laneSel).state = .retraining
        ∧ (t.lane s.ctl.laneSel).retrains = min ((s.lane s.ctl.laneSel).retrains + 1) 0xFFFFFF
        ∧ (t.lane s.ctl.laneSel).echoes = [] ∧ (∀ m, m ≠ s.ctl.laneSel → t.lane m = s.lane m) ∧ t.hif = s.hif ∧ t.perim = s.perim))

/-- FORWARD_FRAME_TX, RETURN_FRAME_RX, RETURN_FRAME_MISSING, ECHO_TIMEOUT, FIRED_REPORT_MISSING (10 R251-R259, R264, R271-R273; 09
R243). -/
def Obligations.LaneFrames : Prop :=
  (∀ (s : State) (n : Nat) (control : Bool), s.Inv → s.framesOn n = true → (s.lane n).inL0 = true → (s.lane n).recs = [] →
      (s.lane n).elems = [] → (s.lane n).prbs = false → (s.lane n).errInject = false → (s.lane n).everL0 = true →
      (s.lane n).fseq % 200 ≠ 199 → s.locus.gen = none →
    let l := s.lane n
    let content := if control then wordBytes 0x80000000 ++ (Elem.of 0x01 (BitVec.ofNat 32 s.now) []).bytes ++ List.replicate 440 0
      else wordBytes 0x000005FF ++ List.replicate 480 0
    let crc := crc32c (0xFFFFFFFF ^^^ BitVec.ofNat 32 l.fseq ^^^ BitVec.ofNat 32 (l.id * 2 ^ 24)) content
    let tx := sendBits l.tx 4096 (content ++ wordBytes crc)
    Completes (exec (.forwardFrameTx n control) s) fun t =>
      t.out = s.out ++ [.frame n tx.out.reverse]
      ∧ t.lane n = { l with
          fseq := (l.fseq + 1) % 2 ^ 32, nFrames := wrapAdd l.nFrames 1, tx := tx.line, stuffMax := max l.stuffMax tx.stuffed
          prbs31 := some (s.generator l)
          echoes := l.echoes ++ [(l.fseq, crc)] }
      ∧ (∀ m, m ≠ n → t.lane m = s.lane m) ∧ t.hif = s.hif ∧ t.seq = s.seq ∧ t.ctl = s.ctl)
  ∧ (∀ (s : State) (n : Nat) (bs : List Bool) (eye : Option (Nat × Nat)), s.Inv → s.framesOn n = true → (s.lane n).state = .training → (s.lane n).retired = false →
      s.hif.busy = none → s.seq.reserve = false →
    let l := s.lane n
    let locked := l.retLocked && decide (320 ≤ bs.length)
    let r := receiveBits l.rx 288 (bs.take 320)
    let v := bitsNat r.got.reverse
    let w := bits v 255 160
    (r.bad = true → Completes (exec (.returnFrameRx n bs eye) s) fun t =>
      t.lane n = { l with
        rx := r.line, rseq := (l.rseq + 1) % 2 ^ 32, err := l.err ||| 4, retCrcErr := satInc l.retCrcErr, retLocked := locked
        eyeRet := eye.getD l.eyeRet }
      ∧ (∀ m, m ≠ n → t.lane m = s.lane m) ∧ t.out = s.out ∧ t.hif = s.hif)
    ∧ (r.bad = false → r.got.length = 288 → bits v 287 256 = (l.returnCrc (v % 2 ^ 256)).toNat → bits v 23 16 = 0 → bits w 95 92 = 5 →
        l.temps = [] → l.silent = false →
        Completes (exec (.returnFrameRx n bs eye) s) fun t =>
          t.lane n = { l with
            rx := r.line, rseq := (l.rseq + 1) % 2 ^ 32, retLocked := locked, eyeRet := eye.getD l.eyeRet, header := BitVec.ofNat 24 v, headLocked := false, strobeFault := false
            tableOk := bit v 15, headWarn := false, headTrip := false, hello := true, headRate := min 3 (bits w 91 88)
            headBuf := bits w 87 80, headFw := BitVec.ofNat 32 (bits w 79 48), headSerial := BitVec.ofNat 32 (bits w 47 16) }
          ∧ (∀ m, m ≠ n → t.lane m = s.lane m) ∧ t.out = s.out ∧ t.hif = s.hif))
  ∧ (∀ (s : State) (n : Nat), s.Inv → s.framesOn n = true → (s.lane n).inL0 = true → (s.lane n).lastError = none → s.hif.busy = none →
    let l := s.lane n
    (Completes (exec (.returnFrameMissing n) s) fun t =>
      t.lane n = { l with rseq := (l.rseq + 1) % 2 ^ 32, lastError := some l.fseq }
      ∧ (∀ m, m ≠ n → t.lane m = s.lane m) ∧ t.out = s.out ∧ t.hif = s.hif)
    ∧ (∀ f crc, l.echoes = [(f, crc)] → l.recs = [] → Completes (exec (.echoTimeout n) s) fun t =>
      t.lane n = { l with err := l.err ||| 2, echoes := [], echoErr := satInc l.echoErr, lastError := some l.fseq }
      ∧ (∀ m, m ≠ n → t.lane m = s.lane m) ∧ t.out = s.out ∧ t.hif = s.hif))
  ∧ (∀ (s : State) (n shot : Nat), s.seq.latch = none → exec (.firedReportMissing n shot) s = .next s)
  ∧ (∀ (s : State) (n shot id pass k : Nat), s.Inv → s.framesOn n = true → (s.lane n).inL0 = true → s.seq.latch = some (id, pass, k) →
      shot + 8 < k → (s.lane n).fired.contains (shot % 65536) = false → (s.lane n).recs = [] → s.running = true → s.perim.active = none →
      s.perim.waiting = [] → s.recentRetrains (s.lane n) < 3 → s.hif.busy = none → s.seq.reserve = false →
    Completes (exec (.firedReportMissing n shot) s) fun t =>
      (t.lane n).state = .retraining ∧ (t.lane n).err = (s.lane n).err ||| 0x18 ∧ shot % 65536 ∈ (t.lane n).fired
      ∧ (∀ m, m ≠ n → t.lane m = s.lane m) ∧ t.hif = s.hif ∧ t.perim.waiting.length = 1)

/-- CONTROL_ELEMENT_RESEND, TEMP_REPORT_TIMEOUT, LANE_TRAIN_STEP_DONE, RATE_CHECK_DONE, LANE_TRAIN_TIMEOUT, RETRAIN_COMPLETE (10 R257,
R267, R268, R273, R276). -/
def Obligations.LaneTimers : Prop :=
  (∀ (s : State) (n : Nat) (e : Elem), s.framesOn n = true → (s.lane n).dueElem = some e → e.tries < 9 →
    exec (.controlElementResend n) s = .next
      (s.modLane n fun l => { l with elems := l.elems.map fun x => if x = e then { x with due := true } else x }))
  ∧ (∀ (s : State) (n : Nat), s.Inv → s.framesOn n = true → (s.lane n).inL0 = true → (s.lane n).headWarn = true →
      (s.lane n).headTrip = (s.lane n).trips →
    Completes (exec (.tempReportTimeout n) s) fun t =>
      t.lane n = { s.lane n with silent := true } ∧ (∀ m, m ≠ n → t.lane m = s.lane m) ∧ t.out = s.out ∧ t.perim = s.perim)
  ∧ (∀ (s : State) (n : Nat), s.Inv → s.framesOn n = true → (s.lane n).state = .training → (s.lane n).headWarn = (s.lane n).warns →
      (s.lane n).headTrip = (s.lane n).trips → s.hif.busy = none →
    let l := s.lane n
    (l.step = 1 → Completes (exec (.laneTrainStepDone n) s) fun t =>
      t.lane n = { l with step := 2 } ∧ (∀ m, m ≠ n → t.lane m = s.lane m) ∧ t.out = s.out ∧ t.hif = s.hif)
    ∧ (l.step = 2 → Completes (exec (.laneTrainStepDone n) s) fun t =>
      t.lane n = { l with step := 3 } ∧ (∀ m, m ≠ n → t.lane m = s.lane m) ∧ t.out = s.out ∧ t.hif = s.hif)
    ∧ (l.step = 3 → Completes (exec (.laneTrainStepDone n) s) fun t =>
      t.lane n = { l with
        step := 4, retLocked := true
        elems := l.elems ++ [{ type := 2, ackReq := false, seq := l.elemSeq, tries := 0, due := true, data := []
                               arg := BitVec.ofNat 32 (n + s.ctl.deviceId * 2 ^ 10 + s.fuses.variant.number * 2 ^ 20) }] }
      ∧ (∀ m, m ≠ n → t.lane m = s.lane m) ∧ t.out = s.out ∧ t.hif = s.hif)
    ∧ (∀ eye : Nat × Nat, l.step = 5 → l.fallBack = false → min l.target l.headRate ≤ l.trying → 77 ≤ l.eye.1 → 30 ≤ l.eye.2 →
        103 ≤ eye.1 → 40 ≤ eye.2 → Completes (exec (.rateCheckDone n 0 eye) s) fun t =>
          t.lane n = { l with eyeRet := eye, lastPass := some l.trying, step := 6 } ∧ (∀ m, m ≠ n → t.lane m = s.lane m) ∧ t.hif = s.hif)
    ∧ (∀ (failed : Nat) (eye : Nat × Nat), l.step = 5 → l.lastPass = none → l.trying = 0 → failed ≠ 0 →
        Completes (exec (.rateCheckDone n failed eye) s) fun t =>
          (t.lane n).state = .down ∧ (t.lane n).power = .off ∧ (t.lane n).hello = false ∧ (∀ m, m ≠ n → t.lane m = s.lane m) ∧ t.hif = s.hif)
    ∧ (l.step ≤ 4 → Completes (exec (.laneTrainTimeout n) s) fun t =>
      t.lane n = { l with
        state := .down, power := .off, retLocked := false, step := 0, elems := [], hello := false, silent := false
        headWarn := Lane.warns { l with silent := false } }
      ∧ (∀ m, m ≠ n → t.lane m = s.lane m) ∧ t.out = s.out ∧ t.hif = s.hif))
  ∧ (∀ (s : State) (n : Nat), s.Inv → s.framesOn n = true → (s.lane n).state = .retraining → (s.lane n).retired = false → s.hif.busy = none →
      s.seq.stripes = [] → (s.lane n).headTrip = (s.lane n).trips → (s.lane n).warns = false → (s.lane n).elems = [] →
    Completes (exec (.retrainComplete n) s) fun t =>
      (t.lane n).state = .up ∧ (t.lane n).power = .l0 ∧ (t.lane n).fseq = 0 ∧ (t.lane n).rseq = 0 ∧ (t.lane n).echoes = []
      ∧ (t.lane n).lastError = none ∧ (∃ bits, t.out = s.out ++ [.frame n bits]) ∧ (∀ m, m ≠ n → t.lane m = s.lane m) ∧ t.hif = s.hif)

/-- Retirement of a lane (10 R274; 08 R219; 09 R244; 02 R70). -/
def Obligations.LaneRetires : Prop :=
  (∀ (s : State) (p : Packet), s.Takes 0x0602 p → s.Inv → s.seq.stripes = [] → s.seq.ledger = [] → s.seq.opened = [] → s.locus.gen = none →
      (s.die (p.target / 12)).retiredLanes < 4 → (s.die (p.target / 12)).excluded < 6 → s.perim.active = none → s.perim.waiting = [] →
    Completes (exec (.laneRetire p) s) fun t =>
      (t.lane p.target).retired = true ∧ (t.lane p.target).state = .retired ∧ (t.lane p.target).power = .off
      ∧ (t.lane p.target).frozen = s.laneWindow { s.lane p.target with retired := true, state := .retired, power := .off } ∧ t.ctl.epoch = wrapAdd s.ctl.epoch 1
      ∧ (∀ m, m ≠ p.target → (t.lane m).retired = (s.lane m).retired ∧ (t.lane m).state = (s.lane m).state)
      ∧ t.ctl.dev = s.ctl.dev ∧ t.seq.stripes = [])
  ∧ (∀ (s : State) (n : Nat), s.Inv → s.framesOn n = true → (s.lane n).state = .retraining → (s.lane n).retired = false → s.hif.busy = none →
      s.seq.stripes = [] → s.seq.ledger = [] → s.seq.opened = [] → s.locus.gen = none → (s.die (n / 12)).retiredLanes < 4 →
      (s.die (n / 12)).excluded < 6 → s.perim.active = none → s.perim.waiting = [] →
    Completes (exec (.retrainBoundExpiry n) s) fun t =>
      (t.lane n).retired = true ∧ (t.lane n).state = .retired ∧ (t.lane n).power = .off
      ∧ (t.lane n).frozen = s.laneWindow { s.lane n with retired := true, state := .retired, power := .off } ∧ t.ctl.epoch = wrapAdd s.ctl.epoch 1
      ∧ (∀ m, m ≠ n → (t.lane m).retired = (s.lane m).retired ∧ (t.lane m).state = (s.lane m).state) ∧ t.hif = s.hif)
  ∧ (∀ (s : State) (n : Nat), n < s.nLanes → (s.lane n).state = .draining → s.locus.gen = none →
    exec (.laneDrainEnd n) s = .next
      (s.modLane n fun l => { l with state := .retired, power := .off, retLocked := false, recs := [], echoes := [] }))
  ∧ (∀ (s : State) (n : Nat), (s.lane n).state ≠ .draining → exec (.laneDrainEnd n) s = .next s)

/-- CAL_RUN, CAL_RUN_COMPLETE, CAL_READ, CAL_STORE, CAL_MEASUREMENT, CAL_STEP, SENSOR_CAL_COMPLETE (17 R422-R429, R432). -/
def Obligations.CalibrationRows : Prop :=
  (∀ (s : State) (p : Packet), s.Takes 0x0700 p →
    ((p.param 0 = 0 ∨ 32 ≤ p.param 0) → exec (.calRun p) s = .next (s.finish (s.cmd 0x0700 p) badParam []))
    ∧ (16 ≤ p.param 0 → p.param 0 < 32 → (p.isDev = true ∨ p.target = 0) → s.ctl.dev ≠ .configured →
        exec (.calRun p) s = .next (s.finish (s.cmd 0x0700 p) calConditions []))
    ∧ (1 ≤ p.param 0 → p.param 0 < 16 → (p.isDev = true ∨ p.target = 0) → exec (.calRun p) s = .next
        (State.interim { s with calRuns := s.calRuns ++
            [{ ctx := s.cmd 0x0700 p, dies := if p.isDev then s.liveDies else [p.target], mask := p.param 0 }] }
          (s.cmd 0x0700 p) ok [])))
  ∧ (∀ (s : State), s.calRuns = [] → exec .calRunComplete s = .next s)
  ∧ (∀ (s : State) (r : CalRun), s.calRuns = [r] → exec .calRunComplete s = .next
      (({ s with calRuns := [] }.final r.ctx (if s.converged r = r.mask then ok else calIncomplete) [s.converged r]).signal 26))
  ∧ (∀ (s : State) (p : Packet), s.Takes 0x0701 p →
    (5 ≤ p.param 0 → exec (.calRead p) s = .next (s.finish (s.cmd 0x0701 p) badParam []))
    ∧ (p.param 0 < 5 → itemOn (p.param 0) p.target = true →
        let q := (List.range (itemInstances (p.param 0))).map fun i =>
          BitVec.ofNat 32 (((s.die p.target).cal.quality.getD (p.param 0) []).getD i 0)
        let ws := s.calSection p.target (p.param 0) ++ q
        exec (.calRead p) s = .next ((s.hostWrite (p.param64 1) ws).finish (s.cmd 0x0701 p) ok [4 * ws.length])))
  ∧ (∀ (s : State) (p : Packet) (env : List Word), s.Takes 0x0702 p → s.flash.cal.getD (2 * s.ctl.bank) none = none →
      s.flash.cal.getD (2 * s.ctl.bank + 1) none = none →
    (env.headD 0 = 0 → exec (.calStore p env) s = .next
      (({ s with flash.cal := s.flash.cal.set (2 * s.ctl.bank) (some (s.calRecord 1)) }.finish (s.cmd 0x0702 p) ok
        [(s.calRecord 1).check.toNat]).signal 26))
    ∧ (env.headD 0 ≠ 0 → exec (.calStore p env) s = .next
      ({ s with flash.cal := s.flash.cal.set (2 * s.ctl.bank) none }.finish (s.cmd 0x0702 p) calStoreFailed [])))
  ∧ (∀ (s : State) (d item i q : Nat) (v : Int), s.running = true → s.dieLive d = true → itemOn item d = true → item < 4 →
      (item = 3 → (s.die d).mem.panic = false) →
    let inst := i / itemStride item
    let keep := fun (below : BitVec 5) => (s.modDie d fun x => { x with cal := { x.cal with
      measured := x.cal.measured.modify item fun l => l.set i v, quality := x.cal.quality.modify item fun l => l.set inst q
      below := x.cal.below ||| below } }).count d 165 1
    (s.qualityOk item inst q = true → exec (.calMeasurement d item i v q) s = .next (keep 0))
    ∧ (s.qualityOk item inst q = false → s.qualityOk item inst (((s.die d).cal.quality.getD item []).getD inst 0) = true →
        exec (.calMeasurement d item i v q) s = .next ((keep (BitVec.ofNat 5 (2 ^ item))).signal 26)))
  ∧ (∀ (s : State) (d item i : Nat), s.running = true → s.dieLive d = true → itemOn item d = true → item < 4 → item ≠ 0 →
      (s.die d).cal.auto.getLsbD item = true → s.calWindow d item (i / itemStride item) = true →
    let v := (s.die d).cal.value item i
    let m := (s.die d).cal.measure item i
    (v = m → exec (.calStep d item i) s = .next s)
    ∧ (v ≠ m → exec (.calStep d item i) s = .next ((s.modDie d fun x => { x with cal := { x.cal with
        values := x.cal.values.modify item fun l => l.set i (if v < m then v + 1 else v - 1)
        steps := satInc x.cal.steps } }).count d 164 1)))
  ∧ (∀ (s : State) (i : Nat) (d : Die) (n : Nat) (v : Int), s.dies[i]? = some d → d.cal.sensorRun = true →
    Completes (exec (.sensorCalComplete [(d.id, n, v)]) s) fun t =>
      ∃ e, t.dies[i]? = some e ∧ e.cal.sensorRun = false ∧ e.lanes = d.lanes ∧ e.cal.values = d.cal.values
        ∧ (|v| ≤ 64 → e.cal.sensorOut = d.cal.sensorOut
            ∧ e.pow.sensors = d.pow.sensors.modify n fun x => if x.excluded then x else { x with offset := v })
        ∧ (64 < |v| → e.cal.sensorOut = d.cal.sensorOut ||| BitVec.ofNat 12 (2 ^ n) ∧ e.pow.sensors = d.pow.sensors))

/-- COUNTER_SNAPSHOT, COUNTER_STREAM, COUNTER_STREAM_PERIOD, MIRROR_SNAPSHOT, COUNTER_LO_READ (17 R433-R437; 19 R461). -/
def Obligations.CounterRows : Prop :=
  (∀ s : State,
    let record := ([wrapAdd s.perf.snapSeq 1, s.nDies + s.dieMask * 2 ^ 8, s.timeNs, s.timeSec % 2 ^ 32, s.timeSec / 2 ^ 32].map
        (BitVec.ofNat 32)) ++ List.replicate 11 0
      ++ s.dies.flatMap fun d => (if d.retired then d.perf.snap else d.perf.cnt).flatMap fun n => [lo32 n, hi32 n]
    (∀ p : Packet, s.Takes 0x0A00 p → Completes (exec (.counterSnapshot p) s) fun t =>
      t.perf = { s.perf with snapSeq := wrapAdd s.perf.snapSeq 1 } ∧ (∃ es, t.out = s.out ++ hostBursts (p.param64 0) record ++ es)
      ∧ (∀ (i : Nat) (d : Die), s.dies[i]? = some d →
          ∃ e, t.dies[i]? = some e ∧ e.perf.snap = (if d.retired then d.perf.snap else d.perf.cnt) ∧ e.lanes = d.lanes ∧ e.mem = d.mem)
      ∧ t.seq = s.seq ∧ t.perim = s.perim)
    ∧ (∀ (ch period : Nat) (c : DmaT), s.perf.stream = some (ch, period) → s.running = true → s.dmaT[ch]? = some c → c.source = .counters →
        c.enabled = true → c.waitingBytes + 4 * record.length ≤ c.room →
        Completes (exec .counterStreamPeriod s) fun t =>
          t.dmaT[ch]? = some { c with waiting := c.waiting ++ [record] } ∧ t.perf.snapSeq = wrapAdd s.perf.snapSeq 1 ∧ t.out = s.out
          ∧ t.seq = s.seq)
    ∧ (s.perf.stream = none → exec .counterStreamPeriod s = .next s)
    ∧ (s.domOn 0 7 = true → Completes (exec .mirrorSnapshot s) fun t =>
        t.perf.update = wrapAdd s.perf.update 2 ∧ t.perf.snapSeq = wrapAdd s.perf.snapSeq 1
        ∧ t.perf.mirror = [wrapAdd s.perf.snapSeq 1, s.nDies + s.dieMask * 2 ^ 8, s.timeNs, s.timeSec % 2 ^ 32, s.timeSec / 2 ^ 32]
        ∧ t.perf.mirrorCnt = s.dies.map (fun d => (if d.retired then d.perf.snap else d.perf.cnt).take 63) ∧ t.out = s.out)
    ∧ (s.domOn 0 7 = false → exec .mirrorSnapshot s = .next s))
  ∧ (∀ (s : State) (p : Packet), s.Takes 0x0A01 p →
    let ch := p.param 0 % 8
    (p.param 1 = 0 → s.perf.stream = none → (∀ c ∈ s.dmaT, c.source ≠ .counters) →
      exec (.counterStream p) s = .next (s.finish (s.cmd 0x0A01 p) ok []))
    ∧ (0 < p.param 1 → (p.param 1 < 100 ∨ 10000000 < p.param 1) →
        exec (.counterStream p) s = .next (s.finish (s.cmd 0x0A01 p) badParam []))
    ∧ (100 ≤ p.param 1 → p.param 1 ≤ 10000000 →
        (∀ c, s.dmaT[ch]? = some c → c.source ≠ .none ∧ c.source ≠ .counters) →
        exec (.counterStream p) s = .next (s.finish (s.cmd 0x0A01 p) dmaChannelBusy []))
    ∧ (∀ c, 100 ≤ p.param 1 → p.param 1 ≤ 10000000 → s.dmaT[ch]? = some c → c.source = .none →
        Completes (exec (.counterStream p) s) fun t =>
          t.perf.stream = some (ch, p.param 1) ∧ t.dmaT[ch]? = some { c with source := .counters } ∧ t.seq = s.seq))
  ∧ (∀ (s : State) (d : Nat), s.hifOn = true → d < s.nDies →
    exec (.counterLoRead d 0x8) s = .next (s.modDie d fun x => { x with tbHi := hi32 x.tb.toNat })
    ∧ (∀ k < 192, exec (.counterLoRead d (0xD0000 + 8 * k)) s = .next (s.modDie d fun x =>
          { x with perf := { x.perf with hi := (x.perf.hi.filter fun y => y.1 != 8 * k) ++ [(8 * k, x.perf.cnt.getD k 0 / 2 ^ 32)] } })
        ∧ exec (.counterLoRead d (0xD0800 + 8 * k)) s = .next (s.modDie d fun x =>
          { x with perf := { x.perf with
              hi := (x.perf.hi.filter fun y => y.1 != 0x800 + 8 * k) ++ [(0x800 + 8 * k, x.perf.snap.getD k 0 / 2 ^ 32)] } })))

/-- FAULT_READ, SAFE_DARK_REQ, DIE_RETIRE, FAULT_INJECT, DARK_N, HEAD_TRIP_N (15 R373, R375, R393, R397-R399, R496; 09 R234). -/
def Obligations.FaultCommands : Prop :=
  (∀ (s : State) (p : Packet), s.Takes 0x0800 p →
    ((p.param 0 = 0 ∨ 64 < p.param 0) → exec (.faultRead p) s = .next (s.finish (s.cmd 0x0800 p) badParam []))
    ∧ (1 ≤ p.param 0 → p.param 0 ≤ 64 → s.perim.log = [] → exec (.faultRead p) s = .next (s.finish (s.cmd 0x0800 p) ok [0, 0]))
    ∧ (1 ≤ p.param 0 → p.param 0 ≤ 64 → s.perim.log ≠ [] → exec (.faultRead p) s = .next
        (({ s with perim.log := s.perim.log.drop (p.param 0) }.hostWrite (p.param64 1)
            ((s.perim.log.take (p.param 0)).flatMap FaultRecord.words)).finish (s.cmd 0x0800 p) ok
          [(s.perim.log.take (p.param 0)).length, (s.perim.log.drop (p.param 0)).length])))
  ∧ (∀ s : State, s.perim.active = none → s.perim.waiting = [] →
    let dark := fun (cause : Nat) (t : State) =>
      t.ctl.dev = .safeDark ∧ t.perim.gateClosed = true ∧ t.locus.gen = none
      ∧ ∃ r, t.perim.log.getLast? = some r ∧ r.cause = cause ∧ r.cls = 3 ∧ r.seq = s.perim.nextSeq ∧ r.injected = false
    (∀ p : Packet, s.Takes 0x0801 p → Completes (exec (.safeDarkReq p) s) (dark 0x0023))
    ∧ (s.running = true → s.ctl.dev ≠ .safeDark → s.ctl.headTripN = false → Completes (exec .headTripNAsserted s) fun t =>
        dark 0x0013 t ∧ t.ctl.headTripN = true)
    ∧ (s.running = true → s.ctl.dev ≠ .safeDark → s.ctl.darkN = false → Completes (exec .darkNAsserted s) fun t =>
        dark 0x0022 t ∧ t.ctl.darkN = true))
  ∧ (∀ s : State, (s.ctl.headTripN = true → exec .headTripNAsserted s = .next s) ∧ (s.ctl.darkN = true → exec .darkNAsserted s = .next s)
      ∧ exec .headTripNDeasserted s = .next { s with ctl.headTripN := false }
      ∧ exec .darkNDeasserted s = .next { s with ctl.darkN := false })
  ∧ (∀ (s : State) (p : Packet), s.Takes 0x0802 p → s.Inv → s.seq.stripes = [] → s.seq.opened = [] →
    (p.target = 0 → exec (.dieRetire p) s = .next (s.finish (s.cmd 0x0802 p) badParam []))
    ∧ (p.target ≠ 0 → Completes (exec (.dieRetire p) s) fun t =>
        (t.die p.target).retired = true ∧ (t.die p.target).pow.on = (s.die p.target).pow.on &&& ~~~0x78
        ∧ (∀ l ∈ (t.die p.target).lanes, l.retired = true ∧ l.state = .retired ∧ l.power = .off)
        ∧ t.ctl.epoch = wrapAdd s.ctl.epoch 1
        ∧ (∀ i, i ≠ p.target → (t.die i).retired = (s.die i).retired ∧ (t.die i).lanes = (s.die i).lanes)))
  ∧ (∀ (s : State) (p : Packet) (env : List Word), s.Takes 0x0803 p →
    (injectInstance s.nDies (p.param 0 % 256) (p.param 1 % 256) p.target = false →
      exec (.faultInject p env) s = .next (s.finish (s.cmd 0x0803 p) badParam []))
    ∧ (p.param 0 = 0 → p.param 1 = 0 → wordAt env 0 ≤ 200 → exec (.faultInject p env) s = .next
        ({ s with perim.gateNs := wordAt env 0 }.finish (s.cmd 0x0803 p) ok [wordAt env 0]))
    ∧ (p.param 0 = 10 → p.param 1 = 0 → wordAt env 0 = 0 → s.perim.active = none → s.perim.waiting = [] →
        Completes (exec (.faultInject p env) s) fun t =>
          (∃ r, t.perim.log.getLast? = some r ∧ r.cause = 0x001C ∧ r.injected = true ∧ r.die = p.target ∧ r.seq = s.perim.nextSeq)
          ∧ t.ctl.dev = s.ctl.dev ∧ t.perim.gateClosed = s.perim.gateClosed ∧ t.dies.length = s.dies.length))

/-- FAULT_REPORT, the monitors and FAULT_POLICY_STEP (15 R379-R387, R494, Tables 15-3, 15-4; 01 R31, R33, R45; 16 R409, R410). -/
def Obligations.FaultReports : Prop :=
  (∀ (s : State) (cause die unit : Nat) (a b : Word), s.running = true → die < s.nDies → s.domOn die 1 = true → 0 < cause → cause ≤ 0x26 →
      causeClass cause die = 1 → causePermCount cause = none → cause ≠ 0x000E → s.perim.active = none →
    (s.perim.waiting = [] → Completes (exec (.faultReport cause die unit a b) s) fun t =>
      ∃ r, t.perim.waiting = [r] ∧ t.perim.log.getLast? = some r ∧ r.seq = s.perim.nextSeq ∧ r.cause = cause ∧ r.die = die
        ∧ r.unit = unit ∧ r.cls = 1 ∧ r.detail0 = a ∧ r.detail1 = b ∧ r.repeats = 0 ∧ r.permanent = false ∧ r.closed = false
        ∧ r.ns = s.timeNs ∧ r.seconds = s.timeSec ∧ t.perim.nextSeq = wrapAdd s.perim.nextSeq 1 ∧ t.ctl.dev = s.ctl.dev
        ∧ t.seq = s.seq ∧ t.hif = s.hif ∧ t.perim.gateClosed = s.perim.gateClosed)
    ∧ (∀ r, s.perim.waiting = [r] → r.cause = cause → r.die = die → r.unit = unit →
        Completes (exec (.faultReport cause die unit a b) s) fun t =>
          t.perim.waiting = [{ r with repeats := min (r.repeats + 1) 255 }] ∧ t.perim.nextSeq = s.perim.nextSeq
          ∧ t.perim.log.length = s.perim.log.length ∧ t.ctl.dev = s.ctl.dev ∧ t.seq = s.seq))
  ∧ (∀ (s : State) (die : Nat), s.running = true → die < s.nDies → s.domOn die 1 = true →
    let halted := fun (cause : Nat) (t : State) =>
      t.ctl.dev = .halted ∧ t.ctl.ready = false ∧ t.perim.gateClosed = true ∧ t.perim.lastC4 = some (cause, die)
      ∧ t.hif = { Hif.reset with gen := s.hif.gen + 1 } ∧ ∀ d ∈ t.dies, d.pow.on &&& 0xFC = 0
    Completes (exec (.watchdogTimeout die) s) (halted 0x001D) ∧ Completes (exec (.lockstepMismatch die) s) (halted 0x001C))
  ∧ (∀ (s : State) (die unit : Nat) (status : List Nat), s.running = true → die < s.nDies → s.domOn die 1 = true → s.ctl.dev ≠ .safeDark →
      s.perim.active = none → s.perim.waiting = [] →
    let dark := fun (cause : Nat) (t : State) =>
      t.ctl.dev = .safeDark ∧ t.perim.gateClosed = true ∧ ∃ r, t.perim.log.getLast? = some r ∧ r.cause = cause ∧ r.cls = 3 ∧ r.die = die
        ∧ r.unit = unit
    Completes (exec (.clockMonitorFault die unit) s) (dark 0x001A) ∧ Completes (exec (.fabricHopFault die unit) s) (dark 0x000F)
    ∧ Completes (exec (.voltageMonitorFault die unit status) s) (dark 0x001B))
  ∧ (∀ s : State, s.running = false → exec .faultPolicyStep s = .next s)
  ∧ (∀ (s : State) (r : FaultRecord) (k : Nat), s.running = true → s.perim.active = some (r, k) → s.perim.waiting = [] →
    (k + 1 < actionSteps r.action → Completes (exec .faultPolicyStep s) fun t =>
      t.perim.active = some (r, k + 1) ∧ t.perim.log = s.perim.log ∧ t.seq = s.seq ∧ t.hif = s.hif)
    ∧ (actionSteps r.action ≤ k + 1 → r.action = 0 → Completes (exec .faultPolicyStep s) fun t =>
      t.perim.active = none ∧ t.perim.log = s.perim.log.map (fun x => if x.seq = r.seq then { r with closed := true } else x)
      ∧ t.perim.stormActive = false ∧ t.seq = s.seq ∧ t.hif = s.hif))
  ∧ (∀ (s : State) (r : FaultRecord), s.running = true → s.perim.active = none → s.perim.waiting = [r] → s.moot r = false →
      1 < actionSteps r.action → Completes (exec .faultPolicyStep s) fun t =>
        t.perim.active = some (r, 1) ∧ t.perim.waiting = [] ∧ t.perim.log = s.perim.log ∧ t.seq = s.seq)

/-- THERMAL_READ, THERMAL_CONFIG, SENSOR_CONVERSION, HOUSEKEEPING_ROUND_END, GUARD_ROUND (16 R412-R420). -/
def Obligations.ThermalRows : Prop :=
  (∀ (s : State) (p : Packet) (env : List Word), s.Takes 0x0B01 p → (s.die p.target).pow.demand = false →
    let x := s.die p.target
    let j := unsigned 16 (x.junction.getD 0)
    let ws := ((List.range 12).map fun n =>
        let y := x.pow.sensors.getD n Sensor.reset
        unsigned 16 y.temp + b2n y.excluded * 2 ^ 16) ++ [j, x.pow.rounds, 0, 0]
    exec (.thermalRead p env) s = .next ((s.hostWrite (p.param64 0) (ws.map (BitVec.ofNat 32))).finish (s.cmd 0x0B01 p) ok [j]))
  ∧ (∀ (s : State) (p : Packet), s.Takes 0x0B02 p →
    (30 < p.param 0 / 256 % 32 → exec (.thermalConfig p) s = .next (s.finish (s.cmd 0x0B02 p) badParam []))
    ∧ (∀ m b, m ≤ 30 → b < 2 → p.param 0 = 256 * m + b → p.isDev = true →
        exec (.thermalConfig p) s = .next
          (if 1 ≤ p.param 1 ∧ p.param 1 ≤ 10000 ∧ p.param 1 ≤ p.param 2 ∧ p.param 2 ≤ 60000 then
            (({ s with therm.margin := m, therm.minPause := p.param 1, therm.maxPause := p.param 2 }).modDies fun d =>
              { d with pow.demand := b == 1 }).finish (s.cmd 0x0B02 p) ok []
           else s.finish (s.cmd 0x0B02 p) badParam []))
    ∧ (∀ m b, m ≤ 30 → b < 2 → p.param 0 = 256 * m + b → p.isDev = false → p.param 1 = 0 → p.param 2 = 0 →
        exec (.thermalConfig p) s = .next
          ((({ s with therm.margin := m }).modDie p.target fun d => { d with pow.demand := b == 1 }).finish (s.cmd 0x0B02 p) ok [])))
  ∧ (∀ (s : State) (d n : Nat) (v : Int), s.ctl.dev ≠ .off → d < s.nDies → n < 12 →
      ((s.die d).pow.sensors.getD n Sensor.reset).excluded = false → -640 ≤ v → v ≤ 2400 →
    (v < 1840 → exec (.sensorConversion d n v false) s = .next (s.modDie d fun x =>
      { x with pow.sensors := x.pow.sensors.modify n fun y => { y with temp := v, fresh := true, hot := 0 } }))
    ∧ (1840 ≤ v → v < 2000 → s.therm.stopped = false → s.domOn 0 1 = true → s.ctl.dev = .configured → s.perim.active = none →
        s.perim.waiting = [] → Completes (exec (.sensorConversion d n v false) s) fun t =>
          t.therm.stopped = true ∧ t.ctl.dev = .safeDark ∧ t.perim.gateClosed = true
          ∧ (∀ l ∈ t.lanes, l.retired = false → l.power ≠ .l0))
    ∧ (2000 ≤ v → s.therm.stopped = true → s.therm.latched = false → 1 ≤ ((s.die d).pow.sensors.getD n Sensor.reset).hot →
        s.domOn 0 1 = true → s.ctl.dev = .safeDark → Completes (exec (.sensorConversion d n v false) s) fun t =>
          t.therm.latched = true ∧ t.ctl.dev = .halted ∧ t.ctl.ready = false))
  ∧ (∀ (s : State) (d n : Nat) (v : Int), s.Inv → s.ctl.dev ≠ .off → d < s.nDies → n < 12 → (s.die d).pow.sensors.length = 12 →
    Completes (exec (.sensorConversion d n v true) s) fun t => ((t.die d).pow.sensors.getD n Sensor.reset).excluded = true)
  ∧ (∀ (s : State) (slack : List Nat) (v : Int), s.ctl.dev ≠ .off → s.therm.rails = [] → s.therm.stopped = false → s.therm.warn = false →
      s.therm.throttle = false → s.seq.thermPause = false → s.tHot = some v → v < 1600 - 16 * s.therm.margin →
      (∀ d < s.nDies, (s.die d).pow.demand = true) →
    exec (.housekeepingRoundEnd slack) s = .next (s.modDies fun d =>
      { d with pow := { d.pow with
          rounds := wrapAdd d.pow.rounds 1, slack := min (slack.getD d.id 63) 63
          highRounds := if 24 < slack.getD d.id 63 then d.pow.highRounds + 1 else 0 } }))
  ∧ (∀ (s : State) (d : Nat) (v : Int), s.ctl.dev ≠ .off → d < s.nDies → crossCheck 12 (s.die d).pow.sensors = [] → s.therm.stopped = false →
      s.therm.warn = false → s.therm.throttle = false → s.therm.blind = false → s.tHot = some v → v < 1600 - 16 * s.therm.margin →
    exec (.guardRound d) s = .next (s.modDie d fun x => { x with pow.sensors := x.pow.sensors.map fun y => { y with fresh := false } }))

/-- PMBUS_TRANSACTION, PMBUS_ALERT, PMBUS_TELEMETRY (16 R405, R407, R410, Table 16-3). -/
def Obligations.PmbusRows : Prop :=
  (∀ (s : State) (i : Nat), exec (.pmbusTransaction i true) s = .next
      { s with therm.rails := s.therm.rails.modify i fun r => { r with tries := 0 } })
  ∧ (∀ (s : State) (i : Nat) (r : Rail), s.therm.rails[i]? = some r →
    (r.tries < 2 → exec (.pmbusTransaction i false) s = .next
      { s with therm.rails := s.therm.rails.modify i fun r => { r with tries := r.tries + 1 } })
    ∧ (2 ≤ r.tries → s.ctl.boot = .idle → Completes (exec (.pmbusTransaction i false) s) fun t =>
        t.therm.railFail = i % 32 ∧ t.therm.rails[i]? = some { r with tries := 0 } ∧ t.therm.pgoodFail = s.therm.pgoodFail
        ∧ t.ctl = s.ctl ∧ t.dies = s.dies ∧ t.out = s.out)
    ∧ (∀ k, 2 ≤ r.tries → s.ctl.boot = .rails k → Completes (exec (.pmbusTransaction i false) s) fun t =>
        t.therm.railFail = i % 32 ∧ t.therm.pgoodFail = true ∧ t.ctl = { s.ctl with boot := .idle }
        ∧ (∀ x ∈ t.therm.rails, x.on = true → x.keep = true)))
  ∧ (∀ (s : State) (b : Bool), s.ctl.dev ≠ .off → exec (.pmbusAlert b) s = .next
      { s with
        out := s.out ++ (List.range s.therm.rails.length).map (fun i => .pmbus i 0x79 0)
        therm := if b then s.therm else { s.therm with alerts := satInc s.therm.alerts } })
  ∧ (∀ (s : State) (pout : List Nat), s.ctl.dev ≠ .off →
      exec (.pmbusTelemetry pout) s = .next { s with therm.power := min pout.sum 0xFFFF })
  ∧ (∀ (s : State) (b : Bool) (pout : List Nat), s.ctl.dev = .off →
      exec (.pmbusAlert b) s = .next s ∧ exec (.pmbusTelemetry pout) s = .next s)

/-- DMA_DOORBELL, DMA_RUN_SET, DMA_RUN_CLEAR, DMA_ABORT, DMA_OWNER_WRITE, DMA_FETCH_ERROR_CLEAR, DMA_RING_BASE_WRITE (03 R73, R76-R81,
R84; 19 R462). -/
def Obligations.DmaChannels : Prop :=
  (∀ (s : State) (ch : Nat) (high : Bool) (v : Word), s.hifOn = true → ch < 8 → (s.dmaChan ch).firmware = true →
    exec (.dmaDoorbell ch) s = .next (s.devErr 2) ∧ exec (.dmaRunSet ch) s = .next (s.devErr 2)
    ∧ exec (.dmaRunClear ch) s = .next (s.devErr 2) ∧ exec (.dmaAbort ch) s = .next (s.devErr 2)
    ∧ exec (.dmaFetchErrorClear ch) s = .next (s.devErr 2) ∧ exec (.dmaRingBaseWrite ch high v) s = .next (s.devErr 2))
  ∧ (∀ (s : State) (ch : Nat) (c : DmaD), s.hifOn = true → ch < 8 → s.dmaD[ch]? = some c → c.firmware = false →
    let becomes := fun (c' : DmaD) => (.next { s with dmaD := s.dmaD.set ch c' } : Res)
    exec (.dmaDoorbell ch) s = becomes { c with state := if c.state = .idle then .active else c.state }
    ∧ (c.run = true → exec (.dmaRunSet ch) s = becomes c)
    ∧ (c.run = false → exec (.dmaRunSet ch) s = becomes { c with
        run := true
        state := if c.state = .error then .error else if c.state = .stopping then .active
          else if c.bound = none then .waitBind else .active })
    ∧ exec (.dmaRunClear ch) s = becomes { c with
        run := false, state := if c.state = .error then .error else if c.desc.isSome then .stopping else .stopped }
    ∧ (c.desc = none → exec (.dmaAbort ch) s = becomes { c with run := false, state := if c.state = .error then .error else .stopped })
    ∧ (∀ ws, c.desc = some ws → c.done % 65536 = 0 → Completes (exec (.dmaAbort ch) s) fun t =>
        let base := c.ring.toNat + 32 * c.index
        (∃ es, t.out = s.out ++ hostBursts (base + 24) [BitVec.ofNat 32 c.done, 0x03000000]
            ++ hostBursts base [BitVec.ofNat 32 (wordAt ws 0 % 2 ^ 31)] ++ es)
        ∧ (∃ e, t.dmaD[ch]? = some e ∧ e.state = .stopped ∧ e.run = false ∧ e.desc = none ∧ e.index = (c.index + 1) % 2 ^ c.log2
            ∧ e.badCount = c.badCount)
        ∧ (∀ j, j ≠ ch → t.dmaD[j]? = s.dmaD[j]?) ∧ t.seq = s.seq)
    ∧ exec (.dmaFetchErrorClear ch) s = becomes { c with
        err := c.err &&& ~~~4#5, state := if c.state = .error ∧ c.run = false then .stopped else c.state }
    ∧ (∀ high v, c.state ≠ .stopped → exec (.dmaRingBaseWrite ch high v) s = becomes { c with err := c.err ||| 8 })
    ∧ (∀ v : Word, c.state = .stopped →
        exec (.dmaRingBaseWrite ch false v) s = becomes { c with
          index := 0, ring := BitVec.ofNat 64 (c.ring.toNat / 2 ^ 32 * 2 ^ 32 + v.toNat / 4096 * 4096) }
        ∧ exec (.dmaRingBaseWrite ch true v) s = becomes { c with
          index := 0, ring := BitVec.ofNat 64 (c.ring.toNat % 2 ^ 32 + v.toNat * 2 ^ 32) })
    ∧ exec (.dmaOwnerWrite ch false) s = .next s
    ∧ ((s.ctl.dev ≠ .configured ∨ c.state ≠ .stopped) → exec (.dmaOwnerWrite ch true) s = .next (s.devErr 3))
    ∧ (s.ctl.dev = .configured → c.state = .stopped → exec (.dmaOwnerWrite ch true) s = becomes { c with firmware := true }))
  ∧ (∀ (s : State) (ch : Nat) (c : DmaD), s.hifOn = true → ch < 8 → s.dmaD[ch]? = some c → c.firmware = true → s.ctl.dev = .configured →
      c.state = .stopped →
    exec (.dmaOwnerWrite ch false) s = .next { s with
      dmaD := s.dmaD.set ch (if (s.dmaD.filter (·.firmware)).length ≤ 1 then { c with err := c.err ||| 16 } else { c with firmware := false }) })

/-- DMA_DESCRIPTOR_FETCH and DMA_BURST (03 R76-R79, R83-R85, R87, R88; Tables 3-2, 3-4, 3-5). -/
def Obligations.DmaTransfers : Prop :=
  (∀ (s : State) (i : Nat) (c : DmaD), s.running = true → i < 8 → s.dmaD[i]? = some c → c.firmware = false → c.desc = none →
      c.state = .active →
    exec (.dmaDescriptorFetch (.classD i) .error) s = .next
      ({ s with dmaD := s.dmaD.set i { c with err := c.err ||| 4, state := .error } }.signal (4 + i))
    ∧ (∀ ws sgl, wordAt ws 0 < 2 ^ 31 → exec (.dmaDescriptorFetch (.classD i) (.words ws sgl)) s = .next
        { s.hostRead 32 with dmaD := s.dmaD.set i { c with state := .idle } })
    ∧ (∀ ws sgl, wordAt ws 0 = 2 ^ 31 → c.irqBad = false → Completes (exec (.dmaDescriptorFetch (.classD i) (.words ws sgl)) s) fun t =>
        let base := c.ring.toNat + 32 * c.index
        t.out = s.out ++ hostBursts (base + 24) [0, 0x82000000] ++ hostBursts base [0]
        ∧ (∃ e, t.dmaD[i]? = some e ∧ e.desc = none ∧ e.index = (c.index + 1) % 2 ^ c.log2 ∧ e.badCount = wrapAdd c.badCount 1
            ∧ e.err = c.err ||| 2)
        ∧ (∀ j, j ≠ i → t.dmaD[j]? = s.dmaD[j]?))
    ∧ (∀ ws sgl es n, wordAt ws 0 = 2 ^ 31 + n → 0 < n → n < 4096 → word64 ws 3 = 0 → sglEntries n sgl = some es →
        Completes (exec (.dmaDescriptorFetch (.classD i) (.words ws sgl)) s) fun t =>
          t.dmaD[i]? = some { c with desc := some ws, sgl := es, entry := 0, offset := 0, done := 0 } ∧ t.out = s.out
          ∧ (∀ j, j ≠ i → t.dmaD[j]? = s.dmaD[j]?)))
  ∧ (∀ (s : State) (i : Nat) (c : DmaD) (ws : List Word) (bs : List Byte) (addr len : Nat), s.running = true → i < 8 →
      s.dmaD[i]? = some c → c.firmware = false → c.desc = some ws → wordAt ws 0 / 2 ^ 29 % 2 = 0 → c.paused = false → c.ended = false →
      c.sgl = [(addr, len)] → c.entry = 0 → c.offset < len → bs.length ≤ 4096 - (addr + c.offset) % 4096 →
      bs.length ≤ s.pcie.maxReadRequest → bs.length ≤ s.stageRoom c → 0 < s.stageRoom c →
    (bs.length < len - c.offset → Completes (exec (.dmaBurst (.classD i) (.bytes bs)) s) fun t =>
      t.dmaD[i]? = some { c with done := c.done + bs.length, offset := c.offset + bs.length } ∧ t.out = s.out
      ∧ t.areas = s.areas.map (fun a => if a.bound.isSome && a.bound == c.bound then { a with bytes := a.bytes ++ bs } else a)
      ∧ (∀ j, j ≠ i → t.dmaD[j]? = s.dmaD[j]?))
    ∧ (bs.length = len - c.offset → Completes (exec (.dmaBurst (.classD i) (.bytes bs)) s) fun t =>
      let base := c.ring.toNat + 32 * c.index
      (∃ es, t.out = s.out ++ hostBursts (base + 24) [BitVec.ofNat 32 (c.done + bs.length), 0x01000000]
          ++ hostBursts base [BitVec.ofNat 32 (wordAt ws 0 % 2 ^ 31)] ++ es)
      ∧ (∃ e, t.dmaD[i]? = some e ∧ e.desc = none ∧ e.index = (c.index + 1) % 2 ^ c.log2 ∧ e.badCount = c.badCount)
      ∧ (∀ j, j ≠ i → t.dmaD[j]? = s.dmaD[j]?)))
  ∧ (∀ (s : State) (i : Nat) (answer : BurstRead), s.running = true → i < 8 → (s.dmaChan i).desc = none →
      exec (.dmaBurst (.classD i) answer) s = .next s)
  ∧ (∀ (s : State) (d k : Nat) (ws : List Word) (bs : List Byte) (a b : DevAddr) (len : Nat), s.running = true → d < s.nDies → k < 4 →
      (s.moveChan d k).desc = some ws → moveReq ws = none → s.moveDesc ws = some (a, b, len) → a.sram = false → b.sram = false →
      b.bcast = false → a.die ≠ b.die → (s.moveChan d k).done < len →
    let c := s.moveChan d k
    let n := min (min (max 1 bs.length) 256) (len - c.done)
    let data := (List.range n).map fun i => sparseGet 0 (s.die a.die).mem.dram (a.off + c.done + i)
    exec (.dmaBurst (.move d k) (.bytes bs)) s = .next
      (((((s.linkAnswer a (.bytes bs)).devAccess { a with off := a.off + c.done } 0 n).devWrite { b with off := b.off + c.done } data)
        ).movedBytes d k len n)
    ∧ ∀ e, exec (.dmaBurst (.move d k) (.error e)) s = .next ((s.linkAnswer a (.error e)).completeMove d k 0x81))

/-- DMA_T_ENABLE, DMA_T_RDPTR_WRITE, CLASS_T_RECORD_WRITE (03 R89-R93). -/
def Obligations.ClassTStreams : Prop :=
  (∀ (s : State) (ch : Nat) (c : DmaT) (v : Word), s.hifOn = true → s.dmaT[ch]? = some c →
    let beyond := (c.wr + 2 ^ 32 - c.rd) % 2 ^ 32 < (v.toNat + 2 ^ 32 - c.rd) % 2 ^ 32
    exec (.dmaTEnable ch) s = .next
      { s with dmaT := s.dmaT.set ch (if c.enabled then c else { c with enabled := true, wr := 0, rd := 0 }) }
    ∧ exec (.dmaTRdptrWrite ch v) s = .next
      { s with dmaT := s.dmaT.set ch (if beyond then { c with rdRange := true } else { c with rd := v.toNat }) })
  ∧ (∀ (s : State) (ch : Nat) (v : Word), s.hifOn = false → exec (.dmaTEnable ch) s = .next s ∧ exec (.dmaTRdptrWrite ch v) s = .next s)
  ∧ (∀ (s : State) (ch : Nat) (c : DmaT) (r : List Word) (rest : List (List Word)), s.dmaT[ch]? = some c → c.waiting = r :: rest →
      s.running = true → c.enabled = true → r ≠ [] →
    let size := 2 ^ c.log2
    (size < (c.wr + 2 ^ 32 - c.rd) % 2 ^ 32 + 4 * r.length → exec (.classTRecordWrite ch) s = .next s)
    ∧ ((c.wr + 2 ^ 32 - c.rd) % 2 ^ 32 + 4 * r.length ≤ size → Completes (exec (.classTRecordWrite ch) s) fun t =>
        (c.wr % size + 4 * r.length ≤ size → ∃ es, t.out = s.out ++ hostBursts (c.buf.toNat + c.wr % size) r ++ es)
        ∧ (size < c.wr % size + 4 * r.length → ∃ es, t.out = s.out ++
            hostBursts (c.buf.toNat + c.wr % size) (r.take ((size - c.wr % size) / 4))
              ++ hostBursts c.buf.toNat (r.drop ((size - c.wr % size) / 4)) ++ es)
        ∧ (∃ e, t.dmaT[ch]? = some e ∧ e.waiting = rest ∧ e.wr = (c.wr + 4 * r.length) % 2 ^ 32 ∧ e.rd = c.rd ∧ e.enabled = true
            ∧ (c.half = true → e.half = true) ∧ (c.full = true → e.full = true))
        ∧ (∀ j, j ≠ ch → t.dmaT[j]? = s.dmaT[j]?) ∧ t.seq = s.seq))
  ∧ (∀ (s : State) (ch : Nat) (c : DmaT), s.dmaT[ch]? = some c → c.waiting = [] → exec (.classTRecordWrite ch) s = .next s)

/-- COMP_JOB_START, COMP_JOB_DONE, COMP_CONTEXT_SAVE, COMP_CONTEXT_RESTORE (14 R354, R357, R360-R362). -/
def Obligations.CompressionJobs : Prop :=
  ∀ (s : State) (d : Nat), s.running = true → d < s.nDies →
    let c := s.comp d
    (∀ v : Word, exec (.compJobStart d v) s = .next (s.modComp d fun c =>
        let c := { c with final := bit v.toNat 3, dynamic := bit v.toNat 2, dir := bit v.toNat 1 }
        if c.job = 1 ∨ c.job = 2 then { c with ctxBusy := true }
        else
          { c with
            job := 1, error := 0, fault := 0, inDone := false, out := [], inBytes := 0, outBytes := 0
            data := if c.restored then c.data else JobData.empty, restored := false }))
    ∧ (c.job = 1 → c.fault = 0 → c.inDone = true → c.out = [] → exec (.compJobDone d) s = .next (s.modComp d fun c => { c with job := 3 }))
    ∧ (c.job = 1 → c.fault ≠ 0 → exec (.compJobDone d) s = .next (s.modComp d fun c => { c with job := 4, error := c.fault, out := [] }))
    ∧ (c.job ≠ 1 → exec (.compJobDone d) s = .next s)
    ∧ (c.save = true → exec (.compContextSave d) s = .next (s.modComp d fun c => { c with ctxBusy := true }))
    ∧ (c.save = false → c.dir = false → c.data.input = [] → 10 < c.ctx →
        exec (.compContextSave d) s = .next (s.modComp d fun c => { c with job := 4, error := 8, save := false }))
    ∧ (c.save = false → c.dir = false → c.data.input = [] → c.ctx ≤ 10 → s.Inv → Completes (exec (.compContextSave d) s) fun t =>
        (t.comp d).save = false ∧ (∃ check, (t.comp d).saved.getLast? = some (c.ctx, check, c.data)) ∧ (t.comp d).job = c.job
        ∧ (t.comp d).data = c.data ∧ (∀ i, i ≠ d → t.dies[i]? = s.dies[i]?) ∧ t.seq = s.seq ∧ t.out = s.out)
    ∧ ((c.save = true ∨ c.job = 1 ∨ c.job = 2) →
        exec (.compContextRestore d) s = .next (s.modComp d fun c => { c with ctxBusy := true }))
    ∧ (c.save = false → c.job ≠ 1 → c.job ≠ 2 → 10 < c.ctx →
        exec (.compContextRestore d) s = .next (s.modComp d fun c => { c with job := 4, error := 8, save := false }))
    ∧ (∀ bs, c.save = false → c.job ≠ 1 → c.job ≠ 2 → c.ctx ≤ 10 → c.saved = [] →
        s.devRead { die := d, bcast := false, sram := true, off := 0x11A0000 + c.ctx * 0x8400 } 0 33792 = (some bs, s) →
        (bytesWords (bs.drop 33788)).getD 0 0
          = crc32c (0xFFFFFFFF ^^^ BitVec.ofNat 32 (0x11A0000 + c.ctx * 0x8400)) (bs.take 33788) →
        exec (.compContextRestore d) s = .next (s.modComp d fun c =>
          { c with data := { JobData.empty with hist := bs.take 32768 }, restored := true }))

/-- CRC_START, CRC_DATA, CRC_DATA8, CRC_VALUE_WRITE, CRC_BYTES_WRITE (14 R364-R367). -/
def Obligations.CrcUnitRows : Prop :=
  ∀ (s : State) (d u : Nat) (x : Die) (c : CrcUnit), s.domOn d 2 = true → d < s.nDies → u < 4 → s.dies[d]? = some x → x.crc[u]? = some c →
    let becomes := fun (c' : CrcUnit) => (.next { s with dies := s.dies.set d { x with crc := x.crc.set u c' } } : Res)
    (c.busy = true → ∀ (v : Word) (b : Byte),
      exec (.crcStart d u v) s = becomes { c with cfgLocked := true } ∧ exec (.crcData d u v) s = becomes { c with cfgLocked := true }
      ∧ exec (.crcData8 d u b) s = becomes { c with cfgLocked := true }
      ∧ exec (.crcValueWrite d u v) s = becomes { c with cfgLocked := true }
      ∧ exec (.crcBytesWrite d u v) s = becomes { c with cfgLocked := true })
    ∧ (c.busy = false → ∀ (v : Word) (b : Byte),
      (let w := v.toNat / 2 ^ 8 % 2 ^ 6
       let c' := { c with
         mode := if v.toNat / 2 ^ 16 % 4 < 3 then v.toNat / 2 ^ 16 % 4 else 0, width := if 1 ≤ w ∧ w ≤ 32 then w else 32
         refout := bit v.toNat 3, refin := bit v.toNat 2 }
       exec (.crcStart d u v) s = becomes
         (if ∀ y ∈ [c.poly, c.init, c.xorout, c.fold0, c.fold1, c.fold2], y.toNat < 2 ^ c'.width then
           { c' with value := c.init ^^^ c.fold0 ^^^ c.fold1 ^^^ c.fold2, bytes := 0 }
          else { c' with cfgErr := true }))
      ∧ exec (.crcValueWrite d u v) s = becomes { c with value := BitVec.ofNat 32 (v.toNat % 2 ^ c.width) }
      ∧ exec (.crcBytesWrite d u v) s = becomes { c with bytes := v.toNat }
      ∧ (Completes (exec (.crcData d u v) s) fun t =>
          t.crcUnit d u = { c with
            value := [v.extractLsb' 0 8, v.extractLsb' 8 8, v.extractLsb' 16 8, v.extractLsb' 24 8].foldl c.byteIn c.value
            bytes := wrapAdd c.bytes 4 }
          ∧ t.out = s.out ∧ t.seq = s.seq)
      ∧ (Completes (exec (.crcData8 d u b) s) fun t =>
          t.crcUnit d u = { c with value := c.byteIn c.value b, bytes := wrapAdd c.bytes 1 } ∧ t.out = s.out ∧ t.seq = s.seq))

/-- The general unit of R364 and R365 at Table 14-2's defaults is the reflected loop of R119 ("exactly as the loop of R119 does"). -/
def Obligations.CrcUnitIsCrc32c : Prop :=
  (∀ (seed : Word) (bs : List Byte), ({ CrcUnit.reset with value := seed }.feed bs).result = crc32c seed bs)
  ∧ ({ CrcUnit.reset with value := CrcUnit.reset.seed }.feed [0x31, 0x32, 0x33, 0x34, 0x35, 0x36, 0x37, 0x38, 0x39]).result = 0xE3069283

/-- REGISTER_WRITE and IRREGULAR_BAR0_READ (00 R15; 19 R458-R462, Table 19-2). -/
def Obligations.RegisterAccess : Prop :=
  (∀ (s : State) (a w n : Nat) (v : Word), s.hifOn = false →
    exec (.registerWrite a w v false) s = .next s ∧ exec (.irregularBar0Read a w n) s = .next s)
  ∧ (∀ (s : State) (a w : Nat) (v : Word), s.hifOn = true →
    ((w ≠ 4 ∨ a % 4 ≠ 0) → (s.reg (a / 4 * 4)).isSome = true → exec (.registerWrite a w v false) s = .next (s.devErr 1))
    ∧ ((w ≠ 4 ∨ a % 4 ≠ 0) → s.reg (a / 4 * 4) = none → exec (.registerWrite a w v false) s = .next ((s.devErr 1).devErr 0))
    ∧ (a % 4 = 0 → s.reg a = none → exec (.registerWrite a 4 v false) s = .next (s.devErr 0))
    ∧ (∃ t, exec (.registerWrite 0x40 4 v false) s = .next t ∧ t = { s with ctl.scratch := v } ∧ t.readBar0 0x40 = some v)
    ∧ exec (.registerWrite 0x30 4 v false) s = .next { s with ctl.err := s.ctl.err &&& ~~~(v.setWidth 4) }
    ∧ exec (.registerWrite 0x200 4 v false) s = .next { s with ctl.irqStat := s.ctl.irqStat &&& ~~~(v.setWidth 28) }
    ∧ exec (.registerWrite 0x108C 4 v false) s = .next { s with hif.coalUs := v.toNat / 65536, hif.coalCount := v.toNat % 256 }
    ∧ (s.ctl.dev ≠ .configured → exec (.registerWrite 0x5000 4 v false) s = .next (s.devErr 3))
    ∧ (s.ctl.dev = .configured → exec (.registerWrite 0x5000 4 v false) s = .next
        { s with perf.mirrorUs := max 100 (v.toNat / 65536), perf.userEn := bit v.toNat 0 })
    ∧ (s.hif.ncmd.enabled = true → exec (.registerWrite 0x1048 4 v false) s = .next (s.hifErr 1)))
  ∧ (∀ (s : State) (a w n : Nat), s.hifOn = true →
    ((w ≠ 4 ∨ a % 4 ≠ 0 ∨ 1 < n) → (s.reg (a / 4 * 4)).isSome = true → exec (.irregularBar0Read a w n) s = .next (s.devErr 1))
    ∧ ((w ≠ 4 ∨ a % 4 ≠ 0 ∨ 1 < n) → s.reg (a / 4 * 4) = none → exec (.irregularBar0Read a w n) s = .next ((s.devErr 1).devErr 0))
    ∧ (n ≤ 1 → a % 4 = 0 → s.reg a = none → exec (.irregularBar0Read a 4 n) s = .next (s.devErr 0)))

/-- STRIPE_RENDER_BEGIN, TESSERA_COARSE_BAND, TESSERA_FINE_BAND, LIBRARY_FETCH, FACET_TILE_RENDER (06 R150-R172; 07 R184, R185; 09
R221). -/
def Obligations.RenderRows : Prop :=
  (∀ s : State, s.nextRender = none → exec .stripeRenderBegin s = .next s)
  ∧ (∀ (s : State) (st : Stripe), s.nextRender = some st → s.stripe? st.id = some st → s.ctl.ready = true → s.active = true →
      (∀ d ∈ s.dies, d.retired = false → d.tess.work = none ∧ d.con.ringOf = none) → st.root.streamBlocks ≤ 2048 →
    Completes (exec .stripeRenderBegin s) fun t =>
      (∀ (i : Nat) (d : Die), s.dies[i]? = some d → d.retired = false → ∃ e, t.dies[i]? = some e
        ∧ e.tess.work = some (st.id, st.rendered) ∧ e.con.ringOf = some (st.id, st.rendered)
        ∧ e.tess.coarseRow = -(st.tables.lrK : Int) - 1 ∧ e.tess.fineRow = -1 ∧ e.con.ringLow = -(st.tables.lrK : Int)
        ∧ e.con.ring = [] ∧ e.con.factors = [] ∧ e.con.next = 0 ∧ e.con.ra = d.con.ra ∧ e.lanes = d.lanes ∧ e.mem = d.mem)
      ∧ (∃ x, t.stripe? st.id = some x ∧ x.rendered = st.rendered + 1 ∧ x.phase = (if st.phase = .queued then .prefill else st.phase))
      ∧ t.out = s.out ∧ t.perim = s.perim)
  ∧ (∀ (s : State) (die : Nat) (upset : Int) (a b : Bool), s.workOf die = none →
      exec (.tesseraCoarseBand die) s = .next s ∧ exec (.tesseraFineBand die) s = .next s ∧ exec (.libraryFetch die a a b) s = .next s
      ∧ ((s.die die).tess.queue = [] → exec (.facetTileRender die upset) s = .next s))
  ∧ (∀ (s : State) (die : Nat) (st : Stripe) (pass : Nat), s.workOf die = some (st, pass) → s.renders die = true → s.blockMissing st = false →
      st.root.streamBlocks ≤ 2048 →
    let d := s.die die
    let k : Int := st.tables.lrK
    let row := d.tess.coarseRow + 1
    let ty := d.tess.fineRow
    (d.con.ringOf = some (st.id, pass) → row ≤ (st.root.coarseRows : Int) - 1 + k → d.con.ringLow ≤ row - 128 →
      exec (.tesseraCoarseBand die) s = .next (s.modDie die fun d => { d with tess.waitRing := true }))
    ∧ (∀ ps seq, d.con.ringOf = some (st.id, pass) → row ≤ (st.root.coarseRows : Int) - 1 + k → row - 128 < d.con.ringLow →
        s.body st pass (st.root.segmentOf (32 * row + 31)) = .read ps seq → s.ownersOf die = [die] →
        let span := ownerSpan s.nDies st.tables.lrK die
        let region : Box := { x0 := 8192 * span.1, y0 := 8192 * row, x1 := 8192 * (span.1 + span.2), y1 := 8192 * (row + 1) }
        let pieces := (bodyInsts (s.cellsOf st) region (bandPlaces st.root ps)).map fun i => Piece.of (i.cls, i.shape)
        let cells := (List.range span.2).map fun (i : Nat) => cellDensity st.dose st.root.additive pieces (span.1 + i) row
        Completes (exec (.tesseraCoarseBand die) s) fun t =>
          (t.die die).tess.coarseRow = row ∧ (t.die die).tess.waitRing = false
          ∧ (t.die die).con.ring = addDensity row die d.con.ring ∧ (t.die die).con.expect = d.con.expect.set die (row + 1)
          ∧ (t.die die).sram = d.sram.writeHalves (ringAddr row span.1) cells
          ∧ t.seq = s.seq ∧ t.out = s.out ∧ t.perim = s.perim)
    ∧ (st.root.hasColumn (512 * die) = true → ty ≤ st.root.lastTile →
        d.tess.coarseRow < min (2 * ty + 1 + k) ((st.root.coarseRows : Int) - 1 + k) →
        exec (.tesseraFineBand die) s = .next (s.modDie die fun d => { d with tess.waitCoarse := true }))
    ∧ (∀ ps seq, st.root.hasColumn (512 * die) = true → ty ≤ st.root.lastTile →
        min (2 * ty + 1 + k) ((st.root.coarseRows : Int) - 1 + k) ≤ d.tess.coarseRow →
        s.body st pass (st.root.segmentOf (64 * ty + 63)) = .read ps seq →
        let insts := fun (b : Box) => (bodyInsts (s.cellsOf st) b (bandPlaces st.root ps)).filter fun i => i.box.meetsInside b
        let tiles := (List.range 10).map fun col =>
          ({ stripe := st.id, pass := pass, col := col, ty := ty,
             pieces := byClass ((insts (tileBox die st.root.rows col ty)).map fun i => (i.cls, i.shape)) } : Tile)
        (d.tess.takes tiles = false → exec (.tesseraFineBand die) s = .next (s.modDie die fun d =>
          { d with tess := { d.tess with waitQueue := true, waitCoarse := false } }))
        ∧ (d.tess.takes tiles = true → Completes (exec (.tesseraFineBand die) s) fun t =>
          (t.die die).tess.fineRow = ty + 1 ∧ (t.die die).tess.waitCoarse = false ∧ (t.die die).tess.waitQueue = false
          ∧ (t.die die).tess.queue = d.tess.queue ++ tiles ∧ (t.die die).con = d.con ∧ (t.die die).sram = d.sram
          ∧ t.seq = s.seq ∧ t.out = s.out)))
  ∧ (∀ (s : State) (die : Nat) (st : Stripe) (pass : Nat) (c b : Bool), s.workOf die = some (st, pass) → s.renders die = true →
      exec (.libraryFetch die c true b) s = .next
        (let t := (s.modDie die fun d => { d with tess.cacheMiss := satInc d.tess.cacheMiss }).count die 10 1
         if c = true then t.linkCe die 1 else t))
  ∧ (∀ (s : State) (die : Nat) (st : Stripe) (x : Tile) (rest : List Tile) (upset : Int), (s.die die).tess.queue = x :: rest →
      s.stripe? x.stripe = some st → s.renders die = true → (s.die die).facetFailed = false →
    let d := s.die die
    let span := tileSpan die st.root.rows x.col x.ty
    let sum := renderTile st.dose st.root.additive (x.pieces.map Piece.of) span
    d.tess.outBytes + 4 * (span.2.1 * span.2.2.2) ≤ 2 ^ 21 →
    ((sum.f + upset - sum.t).natAbs ≤ sum.tolerance → Completes (exec (.facetTileRender die upset) s) fun t =>
      (t.die die).tess.queue = rest ∧ (t.die die).tess.tiles = d.tess.tiles ++ [{ col := x.col, ty := x.ty, px := sum.px }]
      ∧ (t.die die).tess.passed = wrapAdd d.tess.passed 1 ∧ (t.die die).tess.rerender = false ∧ (t.die die).con = d.con
      ∧ t.seq = s.seq ∧ t.perim = s.perim ∧ t.out = s.out)
    ∧ (sum.tolerance < (sum.f + upset - sum.t).natAbs → d.facetCount = 0 → s.perim.active = none → s.perim.waiting = [] →
        Completes (exec (.facetTileRender die upset) s) fun t =>
          (t.die die).tess.queue = x :: rest ∧ (t.die die).tess.rerender = true ∧ (t.die die).tess.chkDiff = sum.f + upset - sum.t
          ∧ (t.die die).tess.tiles = d.tess.tiles ∧ (t.die die).facetFailed = false ∧ t.ctl.dev = s.ctl.dev ∧ t.seq = s.seq))

/-- DENSITY_PACKET_RX, STRIPE_PASS_STOP, LONG_RANGE_ROW, RENDER_BLOCK, RENDER_AHEAD_READ (07 R174, R179-R194; 01 R21). -/
def Obligations.DosePathRows : Prop :=
  (∀ (s : State) (die owner : Nat) (sent : Nat × List Word) (st : Stripe) (pass : Nat) (received : Option (List Word)),
      (s.die die).con.packet? die owner = some sent → s.ringOf die = some (st, pass) → s.renders die = true →
    let d := s.die die
    let ws := received.getD sent.2
    let row := signed 32 (wordAt ws 2)
    let span := ownerSpan s.nDies st.tables.lrK owner
    let hs := ((ws.drop 4).dropLast).flatMap fun w => [w.toNat % 65536, w.toNat / 65536]
    (s.packetCheck die owner st pass ws = .row →
      Completes (exec (.densityPacketRx die owner received) s) fun t =>
        (t.die die).con = { d.con with
          fabric := d.con.fabric.erase sent, waitDensity := false, expect := d.con.expect.set owner (row + 1)
          ring := addDensity row owner d.con.ring }
        ∧ (t.die die).sram = d.sram.writeHalves (ringAddr row span.1) (hs.take span.2)
        ∧ t.seq = s.seq ∧ t.out = s.out ∧ t.perim = s.perim)
    ∧ (s.packetCheck die owner st pass ws = .waits → exec (.densityPacketRx die owner received) s = .next
        (s.modDie die fun d => { d with con.fabric := d.con.fabric.map (fun f => if f = sent then (owner, ws) else f) }))
    ∧ (∀ kind, s.packetCheck die owner st pass ws = .fault kind → s.perim.active = none → s.perim.waiting = [] →
        Completes (exec (.densityPacketRx die owner received) s) fun t =>
          (t.die die).con.densFault = true ∧ (t.die die).con.faultKind = kind ∧ (t.die die).con.ring = d.con.ring
          ∧ (∀ (i : Nat) (x : Die), s.dies[i]? = some x → x.retired = false → ∃ e, t.dies[i]? = some e ∧ (st.id, pass) ∈ e.con.stops)
          ∧ (∃ r, t.perim.log.getLast? = some r ∧ r.cause = 0x0004 ∧ r.die = die) ∧ t.ctl.dev = s.ctl.dev))
  ∧ (∀ (s : State) (die id pass : Nat), (s.die die).con.stops.contains (id, pass) = false →
      exec (.stripePassStop die id pass) s = .next s)
  ∧ (∀ (s : State) (die id pass : Nat), (s.die die).con.stops.contains (id, pass) = true → die < s.dies.length →
      Completes (exec (.stripePassStop die id pass) s) fun t =>
        (t.die die).con.stops = (s.die die).con.stops.erase (id, pass) ∧ (t.die die).con.ringOf ≠ some (id, pass)
        ∧ (t.die die).tess.work ≠ some (id, pass) ∧ (∀ i, i ≠ die → t.die i = s.die i) ∧ t.seq = s.seq ∧ t.out = s.out)
  ∧ (∀ (s : State) (die : Nat) (st : Stripe) (pass : Nat), s.ringOf die = some (st, pass) → s.renders die = true →
      st.root.hasColumn (512 * die) = true → (s.die die).con.factors.length < 8 →
      (∀ c ∈ (s.die die).sram.cells, ∃ b, sramDecode c.2 = .clean b) → s.ctl.resetRequest ≠ some .sramError →
    let d := s.die die
    let k := st.tables.lrK
    let c := d.con.lrNext
    let whole := fun (j : Int) => ∃ r ∈ d.con.ring, r.row = j ∧ r.complete s.nDies = true
    let x0 := max (16 * (die : Int) - 1) 0
    let x1 := min (16 * (die : Int) + 16) (16 * (s.nDies : Int) - 1)
    let fs := (List.range (x1 + 1 - x0).toNat).map fun (i : Nat) =>
      (x0 + (i : Int), cellFactor st.tables (longRangeSum st.tables d.density (x0 + i) c))
    ((∃ i < 2 * k + 1, ¬whole ((c : Int) + i - k)) →
      exec (.longRangeRow die) s = .next (s.modDie die fun d => { d with con.waitDensity := true }))
    ∧ ((∀ i < 2 * k + 1, whole ((c : Int) + i - k)) → c + 1 < st.root.coarseRows → Completes (exec (.longRangeRow die) s) fun t =>
        (t.die die).con.factors = d.con.factors ++ [(c, fs)] ∧ (t.die die).con.lrNext = c + 1
        ∧ (t.die die).con.waitDensity = false ∧ (t.die die).con.waitFactor = false ∧ (t.die die).con.ringOf = d.con.ringOf
        ∧ (t.die die).con.ringLow = max ((c : Int) + 1 - k) d.con.ringLow ∧ t.seq = s.seq ∧ t.out = s.out ∧ t.perim = s.perim))
  ∧ (∀ (s : State) (die : Nat) (st : Stripe) (pass : Nat), s.workOf die = some (st, pass) → s.renders die = true →
      st.root.hasColumn (512 * die) = true → (s.die die).contourFailed = false → 64 * (s.die die).con.next < st.root.rows →
    let d := s.die die
    let ty := d.con.next
    ((d.blockReady st ty).1 = false → ∀ v, exec (.renderBlock die v) s = .next (s.modDie die fun d => { d with con.waitTile := true }))
    ∧ ((d.blockReady st ty).1 = true → (d.blockReady st ty).2 = false →
        ∀ v, exec (.renderBlock die v) s = .next (s.modDie die fun d => { d with con.waitFactor := true }))
    ∧ ((d.blockReady st ty).1 = true → (d.blockReady st ty).2 = true → d.con.compress = false →
        let n := min 64 (st.root.rows - 64 * ty)
        d.con.ringFree (d.con.raMib * 16384) (16 * n) = true → d.con.ra.length < d.con.raMib * 64 →
        let rows := (List.range n).map fun i => (List.range 512).map fun x =>
          min (correctedDose st.tables (baseDose die st.root.rows d.tess.tiles)
            (pixelFactor d.con.factors (16 * s.nDies) st.root.coarseRows (512 * die + x) (64 * ty + i))
            ((512 * die + x : Nat) : Int) ((64 * ty + i : Nat) : Int)).1 st.ceiling
        ∀ v, Completes (exec (.renderBlock die v) s) fun t =>
          (∃ b, (t.die die).con.ra = d.con.ra ++ [b] ∧ b.stripe = st.id ∧ b.pass = pass ∧ b.ty = ty ∧ b.rows = rows ∧ b.comp = false
            ∧ b.offset = d.con.raPut ∧ b.length = 1024 * n ∧ b.entryCrc = crcWords 0xFFFFFFFF b.words
            ∧ b.dataCrc = crc32c (0xFFFFFFFF ^^^ BitVec.ofNat 32 st.id ^^^ BitVec.ofNat 32 (ty % 2 ^ 29 + pass * 2 ^ 29))
                (rows.flatMap fun r => r.flatMap fun p => [BitVec.ofNat 8 p, BitVec.ofNat 8 (p / 256)]))
          ∧ (t.die die).con.next = ty + 1 ∧ t.seq = s.seq ∧ t.out = s.out ∧ t.perim = s.perim))
  ∧ (∀ (s : State) (die : Nat) (b : RaBlock) (rest : List RaBlock), s.passBlocks die = b :: rest → s.renders die = true →
      (s.die die).contourFailed = false →
    let d := s.die die
    let done := d.rowsPlaced b
    let n := min (s.fillLimit + 1 - (64 * b.ty + done)) (b.rows.length - done)
    (∀ a, d.con.checked.contains b.key = true → d.con.toRead (b :: rest) = none →
      (s.fillLimit < 64 * b.ty + done → exec (.renderAheadRead die a none) s = .next s)
      ∧ (64 * b.ty + done ≤ s.fillLimit → Completes (exec (.renderAheadRead die a none) s) fun t =>
        (t.die die).lat.window = d.lat.window ++ (List.range n).map (fun i =>
          { stripe := b.stripe, pass := b.pass, y := 64 * b.ty + done + i })
        ∧ (t.die die).sram = ((b.rows.drop done).take n).zipIdx.foldl
            (fun m r => m.writeHalves (windowAddr (64 * b.ty + done + r.2) 0) r.1) d.sram
        ∧ (t.die die).con.ra = (if done + n = b.rows.length then d.con.ra.erase b else d.con.ra) ∧ (t.die die).con.rdFail = d.con.rdFail
        ∧ t.seq = s.seq ∧ t.out = s.out))
    ∧ (∀ corrected, d.con.checked = [] → b.accepted (b.words ++ [b.entryCrc]) (some (blockBytes b.rows)) = some b.rows →
        s.fillLimit < 64 * b.ty + done → Completes (exec (.renderAheadRead die (.read corrected 0 none none) none) s) fun t =>
          (t.die die).con.checked = [b.key] ∧ (t.die die).con.ra = d.con.ra ∧ (t.die die).lat = d.lat ∧ (t.die die).sram = d.sram
          ∧ (t.die die).mem.linkCe = satAdd d.mem.linkCe corrected ∧ t.seq = s.seq ∧ t.out = s.out)
    ∧ (∀ answer, d.con.checked = [] → s.perim.active = none → s.perim.waiting = [] →
        (answer = .missing ∨ ∃ corrected entry data, answer = .read corrected 0 entry data
          ∧ b.accepted (entry.getD (b.words ++ [b.entryCrc])) (data.getD (some (blockBytes b.rows))) = none) →
        Completes (exec (.renderAheadRead die answer none) s) fun t =>
          (t.die die).con.ra = d.con.ra.erase b ∧ (t.die die).con.rdFail = satInc d.con.rdFail ∧ (t.die die).con.rdFault = true
          ∧ (t.die die).con.lost = d.con.lost ++ [(b.stripe, b.pass, b.ty, false)] ∧ (t.die die).lat.window = d.lat.window
          ∧ (answer = .missing → (t.die die).mem.linkUe = satInc (satInc d.mem.linkUe))
          ∧ (∃ r, t.perim.log.getLast? = some r ∧ r.cause = 0x0005 ∧ r.die = die) ∧ t.ctl.dev = s.ctl.dev ∧ t.seq = s.seq))

/-- No command stops: exec answers a next state for every command and state (00 R15, 02 R59; the opcode table). -/
def Obligations.EveryCommandAnswers : Prop := ∀ (c : Instr) (s : State), ∃ t, exec c s = .next t

/-- Checks 1 to 4 of 02 R59 for every command row: what a row does that may not start or that fails one (R42, R59, R64, R492). -/
def Obligations.SharedChecks : Prop :=
  (∀ (s : State) (p : Packet) (env : List Word), ∀ row ∈ ([
      (0x0000, Instr.nop), (0x0001, Instr.info), (0x0002, Instr.state), (0x0003, Instr.clear), (0x0004, Instr.reset),
      (0x0005, Instr.arm), (0x0006, Instr.disarm), (0x0100, Instr.cfgPixelPitch), (0x0101, Instr.cfgDeviceId),
      (0x0102, Instr.cfgRenderAhead), (0x0103, fun p => Instr.tableLoad p env), (0x0104, Instr.tableRead),
      (0x0200, fun p => Instr.libLoad p env), (0x0201, Instr.libDrop), (0x0202, Instr.geoBind),
      (0x0300, Instr.stripeSubmit), (0x0301, Instr.stripeAbort), (0x0302, Instr.makeupSubmit), (0x0303, Instr.ledgerRead),
      (0x0304, Instr.ledgerStream), (0x0305, Instr.ledgerRelease), (0x0400, Instr.axisConfig), (0x0401, Instr.axisParam),
      (0x0402, Instr.axisHome), (0x0403, Instr.axisMove), (0x0404, Instr.axisStop), (0x0405, Instr.locusConfig),
      (0x0406, Instr.compareSet), (0x0500, Instr.timeConfig), (0x0501, Instr.timeRead), (0x0502, Instr.timeTrigger),
      (0x0503, fun p => Instr.chordConfig p env), (0x0504, Instr.roleSet), (0x0505, Instr.chordSend),
      (0x0600, Instr.laneTrain), (0x0601, Instr.lanePower), (0x0602, Instr.laneRetire), (0x0603, Instr.laneStatus),
      (0x0604, Instr.headQuery), (0x0605, fun p => Instr.pulseTableLoad p env), (0x0700, Instr.calRun),
      (0x0701, Instr.calRead), (0x0702, fun p => Instr.calStore p env), (0x0800, Instr.faultRead),
      (0x0801, Instr.safeDarkReq), (0x0802, Instr.dieRetire), (0x0803, fun p => Instr.faultInject p env),
      (0x0900, Instr.updateStage), (0x0901, Instr.updateActivate), (0x0902, Instr.updateConfirm),
      (0x0903, Instr.updateFallback), (0x0A00, Instr.counterSnapshot), (0x0A01, Instr.counterStream),
      (0x0A02, Instr.scrubRun), (0x0B00, Instr.powerStandby), (0x0B01, fun p => Instr.thermalRead p env),
      (0x0B02, Instr.thermalConfig)] : List (Nat × (Packet → Instr))),
    (s.accepts (Packet.ofRow row.1 p) = false → exec (row.2 p) s = .next s)
    ∧ ∀ st, s.accepts (Packet.ofRow row.1 p) = true → s.preCheck (Packet.ofRow row.1 p) = some st →
        exec (row.2 p) s = .next (s.finish (s.cmd row.1 p) st []))
  ∧ (∀ (s : State) (p : Packet),
    (opRow p.opcode = none → s.preCheck p = some 0x8001)
    ∧ ∀ r, opRow p.opcode = some r →
      let exact := p.opcode = 0x0300 ∨ p.opcode = 0x0302
      (p.urgent = true → r.urgent = false → s.preCheck p = some 0x8001)
      ∧ ((p.urgent = true → r.urgent = true) →
          (14 < p.plen ∨ Packet.minPlen p r = none ∨ (∃ m, Packet.minPlen p r = some m ∧ p.plen < m) ∨ 8 ≤ p.flags ∨ (p.admitOnly = true ∧ ¬exact)
            ∨ s.targetOk r.target p.target = false) →
          s.preCheck p = some 0x8002)
      ∧ ((p.urgent = true → r.urgent = true) → s.packetOk p r = true →
          (r.states / s.ctl.dev.mask % 2 = 0 ∨ s.ctl.dev.mask = 0) →
          s.preCheck p = some (if s.ctl.dev = .safeDark then 0x80F0 else 0x8003))
      ∧ ((p.urgent = true → r.urgent = true) → s.packetOk p r = true → s.ctl.dev.mask ≠ 0 → r.states / s.ctl.dev.mask % 2 = 1 →
          ((r.target = .lane ∨ r.target = .laneOrDev) → p.isDev = false → (s.lane p.target).retired = true →
            s.preCheck p = some 0x8020)
          ∧ ((r.target = .die ∨ r.target = .dieOrDev) → p.isDev = false → (s.die p.target).retired = true →
            s.preCheck p = some 0x8021)))

/-- An entry of a command (02 R49, R54-R56, R60, Table 2-4). -/
def Obligations.StatusEntry : Prop :=
  ∀ (s : State) (c : Ctx) (status : Nat) (res : List Nat), c.held = none →
    let r := s.hif.stat
    let t := s.finish c status res
    let used := (r.tail + 2 ^ r.log2 - r.head) % 2 ^ r.log2
    (c.gen ≠ s.hif.gen → t = s)
    ∧ (r.enabled = false → t = s)
    ∧ (c.gen = s.hif.gen → r.enabled = true → s.ctl.d3hot = false → s.hif.holding = [] → used + r.reserved + 1 < 2 ^ r.log2 →
        r.tail < 2 ^ r.log2 →
      let base := r.base.toNat + 32 * r.tail
      let word := fun (n : Nat) => BitVec.ofNat 32 n
      (∃ es, t.out = s.out
        ++ [.entryHead base (word (c.tag % 65536 * 65536 + c.opcode % 65536))
              (word (c.slot % 4096) :: (List.range 5).map fun i => word (res.getD i 0)),
            .write (base + 4) [word ((if r.phase then 2 ^ 31 else 0) + (if c.urgent then 2 ^ 21 else 0) + min res.length 5 * 65536
              + status % 65536)]] ++ es)
      ∧ t.hif.stat.tail = (r.tail + 1) % 2 ^ r.log2
      ∧ t.hif.stat.phase = (if r.tail + 1 = 2 ^ r.log2 then !r.phase else r.phase)
      ∧ t.hif.stat.reserved = r.reserved ∧ t.hif.holding = [] ∧ t.hif.owing = s.hif.owing
      ∧ t.seq = s.seq ∧ t.perim = s.perim ∧ t.locus = s.locus ∧ t.arc = s.arc ∧ t.datum = s.datum ∧ t.libs = s.libs ∧ t.dmaD = s.dmaD)
    ∧ (c.gen = s.hif.gen → r.enabled = true → s.ctl.d3hot = false → 2 ^ r.log2 ≤ used + r.reserved + 1 →
        t = { s with hif.holding := s.hif.holding ++ [{ ctx := c, more := false, status := status, res := res }] })
end

