-- ==== Sys2Proof/Laws/Commands.lean ====
section
/-! SUPPORT. Commands of the opcode table: what a row does to its packet, and what it answers when its command runs, fails a
shared check, or is not taken. -/

namespace Sys2Proof.Machine

theorem Packet.ofRow_words (op : Nat) (p : Packet) (i : Nat) :
    (Packet.ofRow op p).words.getD (i + 1) 0 = p.words.getD (i + 1) 0 := by
  cases h : p.words <;> simp [Packet.ofRow, h]

/-- A row's opcode changes no other word of its packet. -/
@[simp] theorem Packet.ofRow_word (op : Nat) (p : Packet) (i : Nat) :
    Sys2Proof.Packet.word (Packet.ofRow op p) (i + 1) = Sys2Proof.Packet.word p (i + 1) := by
  unfold Sys2Proof.Packet.word; rw [Packet.ofRow_words]

@[simp] theorem Packet.ofRow_plen (op : Nat) (p : Packet) :
    Sys2Proof.Packet.plen (Packet.ofRow op p) = Sys2Proof.Packet.plen p := by
  unfold Sys2Proof.Packet.plen; rw [Packet.ofRow_word op p 0]

@[simp] theorem Packet.ofRow_flags (op : Nat) (p : Packet) :
    Sys2Proof.Packet.flags (Packet.ofRow op p) = Sys2Proof.Packet.flags p := by
  unfold Sys2Proof.Packet.flags; rw [Packet.ofRow_word op p 0]

@[simp] theorem Packet.ofRow_target (op : Nat) (p : Packet) :
    Sys2Proof.Packet.target (Packet.ofRow op p) = Sys2Proof.Packet.target p := by
  unfold Sys2Proof.Packet.target; rw [Packet.ofRow_word op p 0]

@[simp] theorem Packet.ofRow_isDev (op : Nat) (p : Packet) :
    Sys2Proof.Packet.isDev (Packet.ofRow op p) = Sys2Proof.Packet.isDev p := by
  simp [Sys2Proof.Packet.isDev]

@[simp] theorem Packet.ofRow_admitOnly (op : Nat) (p : Packet) :
    Sys2Proof.Packet.admitOnly (Packet.ofRow op p) = Sys2Proof.Packet.admitOnly p := by
  simp [Sys2Proof.Packet.admitOnly]

@[simp] theorem Packet.ofRow_param (op : Nat) (p : Packet) (i : Nat) :
    Sys2Proof.Packet.param (Packet.ofRow op p) i = Sys2Proof.Packet.param p i := by
  unfold Sys2Proof.Packet.param
  rw [Packet.ofRow_plen, Nat.add_comm 2 i, Packet.ofRow_word op p (i + 1)]

@[simp] theorem Packet.ofRow_param64 (op : Nat) (p : Packet) (i : Nat) :
    Sys2Proof.Packet.param64 (Packet.ofRow op p) i = Sys2Proof.Packet.param64 p i := by
  simp [Sys2Proof.Packet.param64]

@[simp] theorem Packet.ofRow_urgent (op : Nat) (p : Packet) : (Packet.ofRow op p).urgent = p.urgent := rfl
@[simp] theorem Packet.ofRow_slot (op : Nat) (p : Packet) : (Packet.ofRow op p).slot = p.slot := rfl

/-- A row whose command runs answers what its body makes of the packet. -/
theorem State.direct_takes {s : State} {op : Nat} {p : Packet} (h : s.Takes op p) (body : Packet → Ctx → State → State) :
    s.direct op p body = .next (body (Packet.ofRow op p) (s.cmd op p) s) := by
  have h1 : s.accepts (Packet.ofRow op p) = true := h.1
  have h2 : s.preCheck (Packet.ofRow op p) = none := h.2
  show Host.Outcome.next _ = _
  congr 1
  show (if s.accepts (Packet.ofRow op p) then s.checked (Packet.ofRow op p) (s.cmd op p) _ else s) = _
  rw [if_pos h1]
  unfold State.checked
  rw [h2]
  rfl

/-- A row whose command fails a shared check answers that check's status and nothing else (R59). -/
theorem State.direct_fails {s : State} {op : Nat} {p : Packet} {st : Nat} (ha : s.accepts (Packet.ofRow op p) = true)
    (h : s.preCheck (Packet.ofRow op p) = some st) (body : Packet → Ctx → State → State) :
    s.direct op p body = .next (s.finish (s.cmd op p) st []) := by
  show Host.Outcome.next _ = _
  congr 1
  show (if s.accepts (Packet.ofRow op p) then s.checked (Packet.ofRow op p) (s.cmd op p) _ else s) = _
  rw [if_pos ha]
  unfold State.checked
  rw [h]

/-- A row whose command the interpreter does not take changes nothing. -/
theorem State.direct_refused {s : State} {op : Nat} {p : Packet} (ha : s.accepts (Packet.ofRow op p) = false)
    (body : Packet → Ctx → State → State) : s.direct op p body = .next s := by
  show Host.Outcome.next _ = _
  congr 1
  show (if s.accepts (Packet.ofRow op p) then s.checked (Packet.ofRow op p) (s.cmd op p) _ else s) = _
  simp [ha]

end Sys2Proof.Machine
end

