-- ==== Sys2Proof/Laws/Flash.lean ====
section
/-! SUPPORT. Laws of flash images (18_boot_update.md R444, R446): blocks laid out by flashBlocks pass their CRC and give their data
back, so the set that the model's flash holds first verifies. -/

namespace Sys2Proof.Machine

/-- Block k of a layout of whole blocks: its data words and its check word. -/
theorem flashBlock_flashBlocks (ds : List (List Word)) (h : ∀ d ∈ ds, d.length = 1023) (a k : Nat) (d : List Word)
    (hk : ds[k]? = some d) : flashBlock (flashBlocks a ds) k = d ++ [blockCheck (a + 4096 * k) d] := by
  induction ds generalizing a k with
  | nil => simp at hk
  | cons e rest ih =>
    have he := h e (by simp)
    cases k with
    | zero =>
      obtain rfl : e = d := by simpa using hk
      simp [flashBlock, flashBlocks, he, List.take_append]
    | succ k =>
      have := ih (fun x hx => h x (by simp [hx])) (a + 4096) k (by simpa using hk)
      have hl : (e ++ [blockCheck a e]).length = 1024 := by simp [he]
      have hd : (flashBlocks a (e :: rest)).drop (1024 * (k + 1)) = (flashBlocks (a + 4096) rest).drop (1024 * k) := by
        rw [flashBlocks, List.drop_append, hl, List.drop_eq_nil_of_le (by omega), List.nil_append,
          show 1024 * (k + 1) - 1024 = 1024 * k by omega]
      rw [flashBlock, hd, ← flashBlock, this, show a + 4096 + 4096 * k = a + 4096 * (k + 1) by omega]

/-- Every block of the layout passes. -/
theorem blockPasses_flashBlocks (ds : List (List Word)) (h : ∀ d ∈ ds, d.length = 1023) (a k : Nat) (hk : k < ds.length) :
    blockPasses a (flashBlocks a ds) k = true := by
  have hd := h ds[k] (by simp)
  simp [blockPasses, flashBlock_flashBlocks ds h a k ds[k] (by simp [hk]), hd]

/-- The data words come back. -/
theorem flashData_flashBlocks (ds : List (List Word)) (h : ∀ d ∈ ds, d.length = 1023) (a n : Nat) (hn : n ≤ ds.length) :
    flashData (flashBlocks a ds) 0 n = (ds.take n).flatten := by
  induction n with
  | zero => simp [flashData]
  | succ n ih =>
    have hd := h ds[n] (by simp)
    have hn' : n < ds.length := by omega
    have := ih (by omega)
    simp only [flashData, Nat.zero_add] at this ⊢
    rw [List.range_succ, List.flatMap_append, this, List.flatMap_singleton,
      flashBlock_flashBlocks ds h a n ds[n] (List.getElem?_eq_getElem hn'), List.take_append_of_le_length (by omega),
      List.take_of_length_le (l := ds[n]) (by omega), List.take_succ_eq_append_getElem hn', List.flatten_append,
      List.flatten_singleton]

theorem flashBlocks_length (ds : List (List Word)) (h : ∀ d ∈ ds, d.length = 1023) (a : Nat) :
    (flashBlocks a ds).length = 1024 * ds.length := by
  induction ds generalizing a with
  | nil => rfl
  | cons e rest ih =>
    have := ih (fun x hx => h x (by simp [hx])) (a + 4096)
    simp [flashBlocks, this, h e (by simp)]
    omega

/-- The blocks of the set that both banks hold first. -/
def initialBlocks : List (List Word) :=
  (List.range 4).map (fun k => (initialManifest.drop (1023 * k)).take 1023) ++ List.replicate 10 (List.replicate 1023 0)

theorem initialBlocks_length : ∀ d ∈ initialBlocks, d.length = 1023 := by decide +kernel

/-- The manifest of the set that both banks hold first. -/
def initialSet : Manifest :=
  { variants := 7, settings := 1, version := 0x00010000, security := 0
    entries := (List.range 10).map fun k =>
      { kind := if k < 8 then 1 else k - 6, target := if k < 8 then k else 0xFF, version := 0x00010000, offset := 4096 * (4 + k)
        length := 4 } }

theorem bankManifest_initial (b : Nat) : bankManifest (BankImage.initial b) = some initialSet := by
  have : flashData (BankImage.initial b).content 0 4 = (initialBlocks.take 4).flatten :=
    flashData_flashBlocks initialBlocks initialBlocks_length _ 4 (by decide)
  rw [bankManifest, Manifest.parse, this]
  decide +kernel

/-- The set that both banks hold first verifies on every device whose minimum security version is 0. -/
theorem imageStatus_initial (s : State) (b : Nat) (h : s.fuses.minSecurity = 0) :
    s.imageStatus b (BankImage.initial b) = none := by
  have hb : ∀ k ∈ checkedBlocks (BankImage.initial b), blockPasses (bankBase b) (BankImage.initial b).content k = true := by
    intro k hk
    refine blockPasses_flashBlocks initialBlocks initialBlocks_length _ k ?_
    rw [checkedBlocks, bankManifest_initial] at hk
    revert k
    decide +kernel
  have hm : s.manifestOk (BankImage.initial b) = true := by
    rw [State.manifestOk, bankManifest_initial, h, State.nDies]
    cases s.fuses.variant <;> decide +kernel
  have hf : (checkedBlocks (BankImage.initial b)).find? (fun k => !blockPasses (bankBase b) (BankImage.initial b).content k) = none := by
    rw [List.find?_eq_none]
    intro k hk
    simp [hb k hk]
  have hr : (BankImage.initial b).keyOk = true ∧ (BankImage.initial b).signatureOk = true
      ∧ (BankImage.initial b).digestsOk = true := ⟨rfl, rfl, rfl⟩
  rw [State.imageStatus, hf]
  simp [hm, hr]

end Sys2Proof.Machine
end

