-- ==== Sys2Proof/Laws/PulseTable.lean ====
section
/-! SUPPORT. Reading an entry of a pulse table image (08 Table 8-4) from its own first byte on. -/

namespace Sys2Proof.Machine

theorem getD_drop (l : List Byte) (b j : Nat) : l.getD (b + j) 0 = (l.drop b).getD j 0 := by
  simp [List.getD_eq_getElem?_getD, List.getElem?_drop]

theorem subPulseFail_drop (l : List Byte) (b c f k stop : Nat) :
    subPulseFail l b c f k stop = (subPulseFail (l.drop b) 0 c f k stop).map (b + ·) := by
  induction f generalizing k stop with
  | zero => rfl
  | succ f ih =>
    simp only [subPulseFail, Nat.add_assoc, getD_drop l b, Nat.zero_add]
    (repeat' split) <;> first | rfl | exact ih ..

theorem nonzeroByte_drop (l : List Byte) (b lo hi : Nat) :
    nonzeroByte l (b + lo) (b + hi) = (nonzeroByte (l.drop b) lo hi).map (b + ·) := by
  simp only [nonzeroByte, Nat.add_sub_add_left, List.find?_map, Option.map_map]
  simp only [Function.comp_def, Nat.add_assoc, getD_drop l b]

/-- An entry of a pulse table is well laid out where it is so read from its own first byte on. -/
theorem pulseEntryFail_drop (l : List Byte) (q : Nat) (h : pulseEntryFail (l.drop (16 * q)) 0 = none) :
    pulseEntryFail l q = none := by
  have hs : pulseEntryFail l q = (pulseEntryFail (l.drop (16 * q)) 0).map (16 * q + ·) := by
    simp only [pulseEntryFail, Nat.mul_zero, Nat.zero_add, getD_drop l, nonzeroByte_drop l, subPulseFail_drop l (16 * q)]
    (repeat' split) <;> simp_all
  rw [hs, h]
  rfl

end Sys2Proof.Machine
end

