-- ==== Sys2Proof/Laws/Sparse.lean ====
section
/-! SUPPORT. Laws of the canonical sparse lists that memories, the beam table and the overlay are held in: a read after a
write, and that writing keeps the canonical form. -/

namespace Sys2Proof.Machine

variable {α : Type} [DecidableEq α]

/-- A key below every key of a canonical list holds the default. -/
theorem sparseGet_below (dflt : α) (m : List (Nat × α)) (a : Nat) (h : ∀ x ∈ m, a < x.1) : sparseGet dflt m a = dflt := by
  induction m with
  | nil => rfl
  | cons x m ih =>
    have hx := h x (by simp)
    have : x.1 ≠ a := by omega
    simp [sparseGet, this, ih fun y hy => h y (by simp [hy])]

/-- The canonical form, spelled out: values differ from the default, keys rise. -/
theorem sparseWf_iff (dflt : α) (m : List (Nat × α)) :
    sparseWf dflt m = true ↔ (∀ x ∈ m, x.2 ≠ dflt) ∧ m.Pairwise fun x y => x.1 < y.1 := by
  induction m with
  | nil => simp [sparseWf]
  | cons x m ih =>
    cases m with
    | nil => simp [sparseWf]
    | cons y m =>
      simp only [sparseWf, Bool.and_eq_true, decide_eq_true_eq, ih]
      constructor
      · rintro ⟨⟨h1, h2⟩, h3, h4⟩
        refine ⟨fun z hz => ?_, List.pairwise_cons.2 ⟨fun z hz => ?_, h4⟩⟩
        · rcases List.mem_cons.1 hz with rfl | hz
          · exact h1
          · exact h3 z hz
        · rcases List.mem_cons.1 hz with rfl | hz'
          · exact h2
          · exact lt_trans h2 ((List.pairwise_cons.1 h4).1 z hz')
      · rintro ⟨h1, h2⟩
        have h3 := List.pairwise_cons.1 h2
        exact ⟨⟨h1 x (by simp), h3.1 y (by simp)⟩, fun z hz => h1 z (by simp [hz]), h3.2⟩

/-- The keys after a write are the keys before and the key written. -/
theorem sparseSet_mem (dflt : α) (m : List (Nat × α)) (a : Nat) (v : α) (x : Nat × α) (h : x ∈ sparseSet dflt m a v) :
    x ∈ m ∨ (x = (a, v) ∧ v ≠ dflt) := by
  induction m with
  | nil =>
    by_cases hv : v = dflt
    · simp [sparseSet, hv] at h
    · simp only [sparseSet, hv, if_false, List.mem_singleton] at h; exact .inr ⟨h, hv⟩
  | cons y m ih =>
    rw [sparseSet] at h
    split at h
    · split at h
      · exact .inl h
      · rename_i hv
        rcases List.mem_cons.1 h with h | h
        · exact .inr ⟨h, hv⟩
        · exact .inl h
    · split at h
      · split at h
        · exact .inl (by simp [h])
        · rename_i hv
          rcases List.mem_cons.1 h with h | h
          · exact .inr ⟨h, hv⟩
          · exact .inl (by simp [h])
      · rcases List.mem_cons.1 h with h | h
        · exact .inl (by simp [h])
        · rcases ih h with h | h
          · exact .inl (by simp [h])
          · exact .inr h

/-- A write keeps the canonical form. -/
theorem sparseSet_wf (dflt : α) (m : List (Nat × α)) (a : Nat) (v : α) (h : sparseWf dflt m = true) :
    sparseWf dflt (sparseSet dflt m a v) = true := by
  rw [sparseWf_iff] at h ⊢
  refine ⟨fun x hx => ?_, ?_⟩
  · rcases sparseSet_mem dflt m a v x hx with hx | ⟨rfl, hv⟩
    · exact h.1 x hx
    · exact hv
  · obtain ⟨h1, h2⟩ := h
    induction m with
    | nil => by_cases hv : v = dflt <;> simp [sparseSet, hv]
    | cons y m ih =>
      have h3 := List.pairwise_cons.1 h2
      rw [sparseSet]
      split
      · rename_i ha
        split
        · exact h2
        · refine List.pairwise_cons.2 ⟨fun z hz => ?_, h2⟩
          rcases List.mem_cons.1 hz with rfl | hz
          · exact ha
          · exact lt_trans ha (h3.1 z hz)
      · split
        · rename_i ha
          split
          · exact h3.2
          · refine List.pairwise_cons.2 ⟨fun z hz => ?_, h3.2⟩
            rw [ha]; exact h3.1 z hz
        · rename_i ha hb
          refine List.pairwise_cons.2 ⟨fun z hz => ?_, ih (fun z hz => h1 z (by simp [hz])) h3.2⟩
          rcases sparseSet_mem dflt m a v z hz with hz | ⟨rfl, -⟩
          · exact h3.1 z hz
          · show y.1 < a
            omega

/-- A read of the key just written. -/
theorem sparseGet_set_same (dflt : α) (m : List (Nat × α)) (a : Nat) (v : α) (h : sparseWf dflt m = true) :
    sparseGet dflt (sparseSet dflt m a v) a = v := by
  rw [sparseWf_iff] at h
  obtain ⟨h1, h2⟩ := h
  induction m with
  | nil => by_cases hv : v = dflt <;> simp [sparseSet, sparseGet, hv]
  | cons y m ih =>
    have h3 := List.pairwise_cons.1 h2
    rw [sparseSet]
    split
    · rename_i ha
      split
      · rename_i hv
        rw [hv]
        refine sparseGet_below dflt _ a fun x hx => ?_
        rcases List.mem_cons.1 hx with rfl | hx
        · exact ha
        · exact lt_trans ha (h3.1 x hx)
      · simp [sparseGet]
    · split
      · rename_i ha
        split
        · rename_i hv
          rw [hv]
          refine sparseGet_below dflt _ a fun x hx => ?_
          rw [ha]; exact h3.1 x hx
        · simp [sparseGet]
      · rename_i ha hb
        have : y.1 ≠ a := fun e => hb e.symm
        simp only [sparseGet, this, if_false]
        exact ih (fun z hz => h1 z (by simp [hz])) h3.2

/-- A write leaves every other key alone. -/
theorem sparseGet_set_other (dflt : α) (m : List (Nat × α)) (a b : Nat) (v : α) (h : sparseWf dflt m = true) (hb : b ≠ a) :
    sparseGet dflt (sparseSet dflt m a v) b = sparseGet dflt m b := by
  rw [sparseWf_iff] at h
  obtain ⟨-, h2⟩ := h
  induction m with
  | nil => by_cases hv : v = dflt <;> simp [sparseSet, sparseGet, hv, hb.symm]
  | cons y m ih =>
    have h3 := List.pairwise_cons.1 h2
    rw [sparseSet]
    split
    · split
      · rfl
      · simp [sparseGet, hb.symm]
    · split
      · rename_i ha
        have : y.1 ≠ b := fun e => hb (by omega)
        split <;> simp [sparseGet, this, hb.symm]
      · by_cases hy : y.1 = b
        · simp [sparseGet, hy]
        · simp only [sparseGet, hy, if_false]
          exact ih h3.2

/-- Writing a run of values keeps the canonical form. -/
theorem sparseSetRange_wf (dflt : α) (vs : List α) (m : List (Nat × α)) (a : Nat) (h : sparseWf dflt m = true) :
    sparseWf dflt (sparseSetRange dflt m a vs) = true := by
  induction vs generalizing m a with
  | nil => exact h
  | cons v vs ih => exact ih _ _ (sparseSet_wf dflt m a v h)

end Sys2Proof.Machine
end

