-- ==== Sys2Proof/Laws/Shape.lean ====
section
/-! SUPPORT. The shape of a state (Safety.lean) under the named updates: changes of other fields keep it, and changes of one
die or of all of them keep what the invariant says where the change of a die does. -/

namespace Sys2Proof.Machine

variable {fz : Fuses} {qz : List Instr}

@[simp] theorem Fuses.lasting_mk (f : Fuses) (n : Nat) :
    Fuses.lasting ⟨f.variant, f.stepping, f.serial, f.mac, f.keySet, n⟩ = f.lasting := rfl

@[simp] theorem State.shape_mk (s : State) (fuses ctl pcie hif perim tables libs areas seq dmaD dmaT therm locus arc datum chord
    flash calRuns perf free out pending) (h : fuses.lasting = s.fuses.lasting) (hp : pending = s.pending) :
    State.shape ⟨fuses, ctl, pcie, hif, perim, tables, libs, areas, seq, s.dies, dmaD, dmaT, therm, locus, arc, datum, chord, flash,
      calRuns, perf, free, out, pending⟩ = s.shape := by
  simp [State.shape, h, hp]

@[simp] theorem State.shape_map (s : State) (f : Die → Die) (fuses ctl pcie hif perim tables libs areas seq dmaD dmaT therm locus
    arc datum chord flash calRuns perf free out pending) (h : fuses.lasting = s.fuses.lasting) (hp : pending = s.pending)
    (hf : ∀ d, (f d).shape = d.shape) :
    State.shape ⟨fuses, ctl, pcie, hif, perim, tables, libs, areas, seq, s.dies.map f, dmaD, dmaT, therm, locus, arc, datum, chord,
      flash, calRuns, perf, free, out, pending⟩ = s.shape := by
  simp [State.shape, h, hp, hf]

@[simp] theorem map_modify_same {α β : Type} (g : α → β) (f : α → α) (h : ∀ a, g (f a) = g a) (l : List α) (i : Nat) :
    (l.modify i f).map g = l.map g := by
  induction l generalizing i with
  | nil => cases i <;> rfl
  | cons a l ih => cases i with
    | zero => simp [h]
    | succ i => simp [ih]

@[simp] theorem State.shape_modify (s : State) (i : Nat) (f : Die → Die) (fuses ctl pcie hif perim tables libs areas seq dmaD dmaT
    therm locus arc datum chord flash calRuns perf free out pending) (h : fuses.lasting = s.fuses.lasting) (hp : pending = s.pending)
    (hf : ∀ d, (f d).shape = d.shape) :
    State.shape ⟨fuses, ctl, pcie, hif, perim, tables, libs, areas, seq, s.dies.modify i f, dmaD, dmaT, therm, locus, arc, datum,
      chord, flash, calRuns, perf, free, out, pending⟩ = s.shape := by
  simp [State.shape, h, hp, map_modify_same _ _ hf]

@[simp] theorem State.modDie_shape (s : State) (d : Nat) (f : Die → Die) (hf : ∀ d, (f d).shape = d.shape) :
    (s.modDie d f).shape = s.shape := by
  unfold State.modDie; exact State.shape_modify _ _ _ _ _ _ _ _ _ _ _ _ _ _ _ _ _ _ _ _ _ _ _ _ _ rfl rfl hf

@[simp] theorem State.modDies_shape (s : State) (f : Die → Die) (hf : ∀ d, (f d).shape = d.shape) :
    (s.modDies f).shape = s.shape := by
  simp [State.modDies, hf]

theorem Die.shape_lanes (d : Die) (f : Lane → Lane) (h : ∀ l, (f l).id = l.id) (i : Nat) :
    Die.shape { d with lanes := d.lanes.modify i f } = d.shape := by
  simp [Die.shape, map_modify_same _ _ h]

@[simp] theorem State.modLane_shape (s : State) (n : Nat) (f : Lane → Lane) (h : ∀ l, (f l).id = l.id) :
    (s.modLane n f).shape = s.shape := by
  unfold State.modLane; exact State.modDie_shape _ _ _ fun d => Die.shape_lanes d f h _

@[simp] theorem State.modLanes_shape (s : State) (f : Lane → Lane) (h : ∀ l, (f l).id = l.id) :
    (s.modLanes f).shape = s.shape := by
  unfold State.modLanes; refine State.modDies_shape _ _ fun d => ?_
  simp [Die.shape, h, Function.comp_def]

@[simp] theorem foldl_shape {α : Type} (g : State → α → State) (h : ∀ s a, (g s a).shape = s.shape) (l : List α) (s : State) :
    (l.foldl g s).shape = s.shape := by
  induction l generalizing s with
  | nil => rfl
  | cons a l ih => simp [ih, h]

/-- The outcome is a next state of the same shape. -/
def Res.Shaped (r : Res) (s : State) : Prop := ∃ t, r = .next t ∧ t.shape = s.shape

@[simp] theorem Res.shaped_next (t s : State) : Res.Shaped (.next t) s ↔ t.shape = s.shape := by
  constructor
  · rintro ⟨u, h, hu⟩; cases h; exact hu
  · exact fun h => ⟨t, rfl, h⟩

@[simp] theorem Die.shape_mk (d : Die) {retired facetFailed contourFailed latticeFailed memFailed crcFailed facetCount clampCount verifyCount apex imageOk
    tcm tb tbHi frozen pow mem sram tess con lat lanes comp crc moves cal perf}
    (hl : List.map Lane.id lanes = d.lanes.map Lane.id) (hm : Mem.dram mem = d.mem.dram) (hs : Sram.cells sram = d.sram.cells) :
    Die.shape ⟨d.id, retired, facetFailed, contourFailed, latticeFailed, memFailed, crcFailed, facetCount, clampCount, verifyCount, apex, imageOk, tcm, tb, tbHi, frozen, pow, mem, sram, tess, con, lat, lanes, comp, crc, moves, cal, perf⟩ = d.shape := by
  simp [Die.shape, hl, hm, hs]

@[simp] theorem map_map_same {α β : Type} (g : α → β) (f : α → α) (h : ∀ a, g (f a) = g a) (l : List α) :
    (l.map f).map g = l.map g := by simp [h, Function.comp_def]


/-- A change of one die that keeps what the invariant says of it. -/
@[simp] theorem State.modDie_ok (s : State) (d : Nat) (f : Die → Die) (h : ShapeOk fz qz s.shape)
    (hf : ∀ i x, dieShapeOk i (Die.shape x) → dieShapeOk i (f x).shape) : ShapeOk fz qz (s.modDie d f).shape := by
  obtain ⟨h0, h0', h1, h2⟩ := h
  refine ⟨h0, h0', by simpa [State.shape, State.modDie] using h1, fun i y hy => ?_⟩
  simp only [State.shape, State.modDie, List.getElem?_map, List.getElem?_modify] at hy h2
  specialize h2 i
  cases hz : s.dies[i]? with
  | none => simp [hz] at hy
  | some z =>
    have h3 := h2 z.shape (by simp [hz])
    simp only [hz, Option.map_some, Option.map_eq_map, Option.some.injEq] at hy
    rw [← hy]
    split
    · exact hf _ _ h3
    · exact h3

/-- A change of every die that keeps what the invariant says of it. -/
@[simp] theorem State.modDies_ok (s : State) (f : Die → Die) (h : ShapeOk fz qz s.shape)
    (hf : ∀ i x, dieShapeOk i (Die.shape x) → dieShapeOk i (f x).shape) : ShapeOk fz qz (s.modDies f).shape := by
  obtain ⟨h0, h0', h1, h2⟩ := h
  refine ⟨h0, h0', by simpa [State.shape, State.modDies] using h1, fun i y hy => ?_⟩
  simp only [State.shape, State.modDies, List.getElem?_map, Option.map_eq_some_iff] at hy h2
  obtain ⟨x, ⟨z, hz, rfl⟩, rfl⟩ := hy
  exact hf _ _ (h2 i z.shape ⟨z, hz, rfl⟩)

@[simp] theorem foldl_ok {α : Type} (g : State → α → State) (h : ∀ s a, ShapeOk fz qz s.shape → ShapeOk fz qz (g s a).shape) (l : List α)
    (s : State) (hs : ShapeOk fz qz s.shape) : ShapeOk fz qz (l.foldl g s).shape := by
  induction l generalizing s with
  | nil => exact hs
  | cons a l ih => exact ih _ (h _ _ hs)


@[simp] theorem State.map_ok (s : State) (f : Die → Die) (fuses ctl pcie hif perim tables libs areas seq dmaD dmaT therm locus
    arc datum chord flash calRuns perf free out pending) (h : fuses.lasting = s.fuses.lasting) (hp : pending = s.pending) (hs : ShapeOk fz qz s.shape)
    (hf : ∀ i x, dieShapeOk i (Die.shape x) → dieShapeOk i (f x).shape) :
    ShapeOk fz qz (State.shape ⟨fuses, ctl, pcie, hif, perim, tables, libs, areas, seq, s.dies.map f, dmaD, dmaT, therm, locus, arc, datum, chord,
      flash, calRuns, perf, free, out, pending⟩) := by
  have := State.modDies_ok s f hs hf
  simpa [State.shape, State.modDies, h, hp] using this

@[simp] theorem shapeOk_ite (c : Prop) [Decidable c] (a b) :
    ShapeOk fz qz (if c then a else b) ↔ if c then ShapeOk fz qz a else ShapeOk fz qz b := by split <;> rfl
@[simp] theorem dieShapeOk_ite (i : Nat) (c : Prop) [Decidable c] (a b) :
    dieShapeOk i (if c then a else b) ↔ if c then dieShapeOk i a else dieShapeOk i b := by split <;> rfl

/-- The outcome is a next state that keeps what the invariant says. -/
def Res.Ok (fz : Fuses) (qz : List Instr) (r : Res) : Prop := ∃ t, r = .next t ∧ ShapeOk fz qz t.shape
@[simp] theorem Res.ok_next (t : State) : Res.Ok fz qz (.next t) ↔ ShapeOk fz qz t.shape := by
  constructor
  · rintro ⟨u, h, hu⟩; cases h; exact hu
  · exact fun h => ⟨t, rfl, h⟩
theorem Res.Shaped.ok {r : Res} {s : State} (h : Res.Shaped r s) (hs : ShapeOk fz qz s.shape) : Res.Ok fz qz r := by
  obtain ⟨t, h, ht⟩ := h; exact ⟨t, h, ht ▸ hs⟩


theorem dieShapeOk_mk (d : Die) (i : Nat) (hs : dieShapeOk i d.shape) {retired facetFailed contourFailed latticeFailed memFailed
    crcFailed facetCount clampCount verifyCount apex imageOk tcm tb tbHi frozen pow mem sram tess con lat lanes comp crc moves cal perf}
    (hl : List.map Lane.id lanes = d.lanes.map Lane.id) (hm : Memory.wf (Mem.dram mem) = true)
    (hr : Sram.wf (Sram.cells sram) = true) :
    dieShapeOk i (Die.shape ⟨d.id, retired, facetFailed, contourFailed, latticeFailed, memFailed, crcFailed, facetCount,
      clampCount, verifyCount, apex, imageOk, tcm, tb, tbHi, frozen, pow, mem, sram, tess, con, lat, lanes, comp, crc, moves, cal,
      perf⟩) :=
  ⟨hs.1, hl.trans hs.2.1, hm, hr⟩


theorem State.modLane_ok (s : State) (n : Nat) (f : Lane → Lane) (hs : ShapeOk fz qz s.shape) (h : ∀ l, (f l).id = l.id) :
    ShapeOk fz qz (s.modLane n f).shape := by
  rw [State.modLane_shape s n f h]; exact hs

end Sys2Proof.Machine
end

