-- ==== Sys2Proof/Laws/ShapeCore.lean ====
section
/-! SUPPORT. Each operation keeps the shape of the state, or what the invariant says of it: the shared operations: completion, interrupts, the ledger, the lattice, compare units, reactions and retirement. -/

namespace Sys2Proof.Machine

variable {fz : Fuses} {qz : List Instr}

/-! ### Ops -/

@[simp] theorem State.emit_shape (s : State) (e : Emission) : (State.emit s e).shape = s.shape := by simp [State.emit]

@[simp] theorem State.emits_shape (s : State) (es : List Emission) : (State.emits s es).shape = s.shape := by
  simp [State.emits]

@[simp] theorem State.irqSeen_shape (s : State) (v : Nat) : (State.irqSeen s v).shape = s.shape := by
  simp [State.irqSeen]

@[simp] theorem State.message_shape (s : State) (v : Nat) : (State.message s v).shape = s.shape := by
  simp [State.message, apply_ite State.shape]

@[simp] theorem State.sendPending_shape (s : State) : (State.sendPending s).shape = s.shape := by
  simp [State.sendPending, apply_ite State.shape]

@[simp] theorem State.resetFunction_shape (s : State) : (State.resetFunction s).shape = s.shape := by
  simp [State.resetFunction]

@[simp] theorem State.signal_shape (s : State) (v : Nat) : (State.signal s v).shape = s.shape := by
  simp [State.signal, apply_ite State.shape]

@[simp] theorem State.count_shape (s : State) (d i n : Nat) : (State.count s d i n).shape = s.shape := by
  simp [State.count, apply_ite State.shape]

@[simp] theorem State.hostWrite_shape (s : State) (addr : Nat) (ws : List Word) : (State.hostWrite s addr ws).shape = s.shape := by
  simp [State.hostWrite]

@[simp] theorem State.hostRead_shape (s : State) (n : Nat) : (State.hostRead s n).shape = s.shape := by
  simp [State.hostRead]

@[simp] theorem State.draw_shape (s : State) : (State.draw s).2.shape = s.shape := by simp [State.draw]

@[simp] theorem State.devErr_shape (s : State) (i : Nat) : (State.devErr s i).shape = s.shape := by simp [State.devErr]

@[simp] theorem State.hifErr_shape (s : State) (i : Nat) : (State.hifErr s i).shape = s.shape := by simp [State.hifErr]

/-! ### Frames -/

@[simp] theorem Lane.addElem_id (l : Lane) (type : Nat) (arg : Word) (data : List Byte) (ack : Bool) : (Lane.addElem l type arg data ack).id = l.id := by
  simp [Lane.addElem]

@[simp] theorem State.sendFrame_shape (s : State) (n : Nat) (control : Bool) : (s.sendFrame n control).shape = s.shape := by
  unfold State.sendFrame
  extract_lets
  split
  exact (State.emit_shape _ _).trans ((State.count_shape _ _ _ _).trans ((State.count_shape _ _ _ _).trans
    ((State.count_shape _ _ _ _).trans (State.modLane_shape s n _ fun _ => rfl))))

@[simp] theorem Die.dropLaneEq_shape (d : Die) (lane : Nat) : (Die.dropLaneEq d lane).shape = d.shape := by
  simp [Die.dropLaneEq]

@[simp] theorem Lane.enterL0_id (l : Lane) (elems : List Elem) : (Lane.enterL0 l elems).id = l.id := by
  simp [Lane.enterL0]

@[simp] theorem Lane.hushed_id (l : Lane) : (Lane.hushed l).id = l.id := by simp [Lane.hushed]

@[simp] theorem Lane.leaveL1_id (l : Lane) : (Lane.leaveL1 l).id = l.id := by simp [Lane.leaveL1]

@[simp] theorem State.lanesToL2_shape (s : State) : (State.lanesToL2 s).shape = s.shape := by simp [State.lanesToL2]

@[simp] theorem State.startLane_shape (s : State) (n : Nat) : (State.startLane s n).shape = s.shape := by
  simp [State.startLane]

/-! ### Flags -/

@[simp] theorem State.updateReplace_shape (s : State) : (State.updateReplace s).shape = s.shape := by
  simp [State.updateReplace, apply_ite State.shape]

@[simp] theorem Die.calm_shape (d : Die) : (Die.calm d).shape = d.shape := by
  simp (maxDischargeDepth := 9) [Die.calm, apply_ite State.shape, apply_ite Die.shape, apply_ite Lane.id]

@[simp] theorem State.setDev_shape (s : State) (d : DevState) : (State.setDev s d).shape = s.shape := by
  simp [State.setDev, apply_ite State.shape]

/-! ### Completion -/

@[simp] theorem State.entryIrq_shape (s : State) (e : Entry) : (State.entryIrq s e).shape = s.shape := by
  simp [State.entryIrq, apply_ite State.shape]

@[simp] theorem State.putEntry_shape (s : State) (e : Entry) : (State.putEntry s e).shape = s.shape := by
  simp [State.putEntry]

@[simp] theorem State.drain_shape (s : State) (es : List Entry) : (s.drain es).shape = s.shape := by
  induction es generalizing s with
  | nil => simp [State.drain]
  | cons e es ih =>
    rw [State.drain]
    split
    · rw [ih]; simp
    · simp

@[simp] theorem State.drainHolding_shape (s : State) : (State.drainHolding s).shape = s.shape := by
  simp [State.drainHolding]

@[simp] theorem State.writeEntry_shape (s : State) (e : Entry) (release : Nat) : (State.writeEntry s e release).shape = s.shape := by
  simp [State.writeEntry, apply_ite State.shape]

@[simp] theorem State.finish_shape (s : State) (c : Ctx) (status : Nat) (res : List Nat) : (State.finish s c status res).shape = s.shape := by
  simp [State.finish]

@[simp] theorem State.interim_shape (s : State) (c : Ctx) (status : Nat) (res : List Nat) : (State.interim s c status res).shape = s.shape := by
  simp [State.interim, apply_ite State.shape]

@[simp] theorem State.final_shape (s : State) (c : Ctx) (status : Nat) (res : List Nat) : (State.final s c status res).shape = s.shape := by
  simp [State.final]

@[simp] theorem State.finalOpt_shape (s : State) (c : Option Ctx) (status : Nat) (res : List Nat) : (State.finalOpt s c status res).shape = s.shape := by
  unfold State.finalOpt; split <;> simp

/-! ### Motion -/

@[simp] theorem State.modAxis_shape (s : State) (a : Nat) (f : Axis → Axis) : (State.modAxis s a f).shape = s.shape := by
  simp [State.modAxis]

@[simp] theorem State.modLocusAxis_shape (s : State) (a : Nat) (f : LocusAxis → LocusAxis) : (State.modLocusAxis s a f).shape = s.shape := by
  simp [State.modLocusAxis]

@[simp] theorem State.modSource_shape (s : State) (n : Nat) (f : Source' → Source') : (State.modSource s n f).shape = s.shape := by
  simp [State.modSource]

@[simp] theorem State.stopAxis_shape (s : State) (a : Nat) (fault disable : Bool) (reason : Nat) : (State.stopAxis s a fault disable reason).shape = s.shape := by
  simp [State.stopAxis, apply_ite State.shape]

@[simp] theorem State.arcSafeDark_shape (s : State) : (State.arcSafeDark s).shape = s.shape := by
  simp [State.arcSafeDark]

@[simp] theorem State.releaseAxes_shape (s : State) : (State.releaseAxes s).shape = s.shape := by
  simp [State.releaseAxes, apply_ite State.shape]

@[simp] theorem State.arcOff_shape (s : State) : (State.arcOff s).shape = s.shape := by simp [State.arcOff]

@[simp] theorem State.slowTo_shape (s : State) (f : Nat) : (State.slowTo s f).shape = s.shape := by simp [State.slowTo]

/-! ### Operands -/

theorem State.checked_shape (s : State) (p : Packet) (c : Ctx) (body : State → State) (h : (body s).shape = s.shape) :
    (s.checked p c body).shape = s.shape := by
  unfold State.checked
  split
  · simp
  · exact h

@[simp] theorem State.direct_ok (s : State) (opcode : Nat) (p : Packet) (body : Packet → Ctx → State → State) (hs : ShapeOk fz qz s.shape)
    (h : ∀ p c s, ShapeOk fz qz s.shape → ShapeOk fz qz (body p c s).shape) : Res.Ok fz qz (s.direct opcode p body) := by
  unfold State.direct
  extract_lets
  rw [Res.ok_next]
  split
  · unfold State.checked
    split
    · simp [hs]
    · exact h _ _ _ hs
  · exact hs

@[simp] theorem State.direct_shape (s : State) (opcode : Nat) (p : Packet) (body : Packet → Ctx → State → State)
    (h : ∀ p c, (body p c s).shape = s.shape) : Res.Shaped (s.direct opcode p body) s := by
  unfold State.direct
  extract_lets
  rw [Res.shaped_next]
  split
  · exact State.checked_shape _ _ _ _ (h _ _)
  · rfl

/-! ### Beams -/

theorem assignLanes_id (ls : List Lane) (k m next : Nat) : (assignLanes ls k m next).map Lane.id = ls.map Lane.id := by
  induction ls generalizing k next with
  | nil => rfl
  | cons l ls ih =>
    rw [assignLanes]
    split <;> simp [ih]

@[simp] theorem Die.assign_shape (d : Die) : d.assign.shape = d.shape := by
  unfold Die.assign
  exact Die.shape_mk d (assignLanes_id _ _ _ _) rfl rfl

/-! ### Ledger -/

@[simp] theorem State.record_shape (s : State) (ch : Nat) (src : TSource) (ws : List Word) : (State.record s ch src ws).shape = s.shape := by
  simp [State.record, apply_ite State.shape]

@[simp] theorem State.bindT_shape (s : State) (ch : Nat) (src : TSource) : (State.bindT s ch src).shape = s.shape := by
  simp [State.bindT]

@[simp] theorem State.unbindT_shape (s : State) (src : TSource) : (State.unbindT s src).shape = s.shape := by
  simp [State.unbindT]

@[simp] theorem State.modStripe_shape (s : State) (id : Nat) (f : Stripe → Stripe) : (State.modStripe s id f).shape = s.shape := by
  simp [State.modStripe]

@[simp] theorem State.darkRect_shape (s : State) (st : Stripe) (cause pass : Nat) (r : Rect) (lane : Option Nat) : (State.darkRect s st cause pass r lane).shape = s.shape := by
  simp [State.darkRect]

@[simp] theorem State.darkRun_shape (s : State) (st : Stripe) (cause pass n epoch : Nat) (run : Nat × Nat) (lane : Option Nat) : (State.darkRun s st cause pass n epoch run lane).shape = s.shape := by
  simp [State.darkRun, apply_ite State.shape]

@[simp] theorem State.darkUnder_shape (s : State) (epoch : Nat) (st : Stripe) (cause pass n : Nat) (groups : List Nat) (lane : Option Nat) : (State.darkUnder s epoch st cause pass n groups lane).shape = s.shape := by
  simp [State.darkUnder]

@[simp] theorem State.dark_shape (s : State) (st : Stripe) (cause pass n : Nat) (groups : List Nat) (lane : Option Nat) : (State.dark s st cause pass n groups lane).shape = s.shape := by
  simp [State.dark]

@[simp] theorem State.darkRecs_shape (s : State) (st : Stripe) (cause : Nat) (rs : List Rec) (lane : Option Nat) : (State.darkRecs s st cause rs lane).shape = s.shape := by
  simp [State.darkRecs]

@[simp] theorem State.keepSource_shape (s : State) (st : Stripe) (epoch : Nat) : (State.keepSource s st epoch).shape = s.shape := by
  simp [State.keepSource, apply_ite State.shape]

@[simp] theorem State.writeLedger_shape (s : State) (e : LedgerEntry) : (State.writeLedger s e).shape = s.shape := by
  unfold State.writeLedger; dsimp only; repeat' split
  all_goals simp

@[simp] theorem State.closeEntries_shape (s : State) (p : LedgerEntry → Bool) : (State.closeEntries s p).shape = s.shape := by
  simp [State.closeEntries]

@[simp] theorem State.flushStripe_shape (s : State) (id : Nat) : (State.flushStripe s id).shape = s.shape := by
  simp [State.flushStripe]

@[simp] theorem State.closeAt_shape (s : State) (n : Nat) : (State.closeAt s n).shape = s.shape := by
  simp [State.closeAt]

@[simp] theorem State.darkRest_shape (s : State) (st : Stripe) (cause pass shot : Nat) : (State.darkRest s st cause pass shot).shape = s.shape := by
  simp [State.darkRest, apply_ite State.shape]

/-! ### Lattice -/

@[simp] theorem State.queueRecs_shape (s : State) (rs : List Rec) : (State.queueRecs s rs).shape = s.shape := by
  simp (maxDischargeDepth := 9) [State.queueRecs, apply_ite State.shape, apply_ite Die.shape, apply_ite Lane.id]

@[simp] theorem State.latticeShot_shape (s : State) (st : Stripe) (p n : Nat) (strikes : List Strike) : (State.latticeShot s st p n strikes).shape = s.shape := by
  simp [State.latticeShot, apply_ite State.shape]

@[simp] theorem State.countSlots_shape (s : State) (st : Stripe) (p n : Nat) : (State.countSlots s st p n).shape = s.shape := by
  simp [State.countSlots]

@[simp] theorem State.endSlots_shape (s : State) : (State.endSlots s).shape = s.shape := by
  unfold State.endSlots; repeat' split
  all_goals simp

/-! ### Compare -/

@[simp] theorem State.capture_shape (s : State) (kind unit info : Nat) (pos : Int) : (State.capture s kind unit info pos).shape = s.shape := by
  unfold State.capture; split <;> simp

@[simp] theorem State.locusIrq_shape (s : State) (b : Nat) : (State.locusIrq s b).shape = s.shape := by
  simp [State.locusIrq, apply_ite State.shape]

@[simp] theorem State.modCompare_shape (s : State) (u : Nat) (f : Compare → Compare) : (State.modCompare s u f).shape = s.shape := by
  simp [State.modCompare]

@[simp] theorem State.compareEnd_shape (s : State) (u : Nat) (st : CmpState) : (State.compareEnd s u st).shape = s.shape := by
  simp [State.compareEnd, apply_ite State.shape]

@[simp] theorem State.armCompare_shape (s : State) (u : Nat) : (State.armCompare s u).shape = s.shape := by
  simp [State.armCompare, apply_ite State.shape]

@[simp] theorem State.runCompares_shape (s : State) (axis : Nat) (before : Int) : (State.runCompares s axis before).shape = s.shape := by
  simp [State.runCompares, apply_ite State.shape]

@[simp] theorem State.cancelCompares_shape (s : State) (a : Nat) : (State.cancelCompares s a).shape = s.shape := by
  simp [State.cancelCompares, apply_ite State.shape]

@[simp] theorem State.shiftSource_shape (s : State) (n : Nat) (d : Int) : (State.shiftSource s n d).shape = s.shape := by
  simp [State.shiftSource]

@[simp] theorem State.applyDeferred_shape (s : State) : (State.applyDeferred s).shape = s.shape := by
  unfold State.applyDeferred; dsimp only; repeat' split
  all_goals simp

@[simp] theorem State.failHoming_shape (s : State) (a : Nat) (disable : Bool) : (State.failHoming s a disable).shape = s.shape := by
  simp [State.failHoming]

/-! ### Reaction -/

@[simp] theorem State.closeGates_shape (s : State) : (State.closeGates s).shape = s.shape := by simp [State.closeGates]

@[simp] theorem Die.dropStripe_shape (id : Nat) (d : Die) : (Die.dropStripe id d).shape = d.shape := by
  simp [Die.dropStripe]

@[simp] theorem State.freeArea_shape (s : State) (id : Nat) : (State.freeArea s id).shape = s.shape := by
  simp [State.freeArea]

@[simp] theorem State.pruneSources_shape (s : State) : (State.pruneSources s).shape = s.shape := by
  simp [State.pruneSources]

@[simp] theorem State.updateUncomp_shape (s : State) : (State.updateUncomp s).shape = s.shape := by
  simp [State.updateUncomp]

@[simp] theorem State.closeStripe_shape (s : State) (st : Stripe) : (State.closeStripe s st).shape = s.shape := by
  simp [State.closeStripe, apply_ite State.shape]

@[simp] theorem State.endStripe_shape (s : State) (id : Nat) (status : Option Nat) : (State.endStripe s id status).shape = s.shape := by
  unfold State.endStripe; dsimp only; repeat' split
  all_goals simp

@[simp] theorem State.endExecuting_shape (s : State) (cause : Nat) (status : Option Nat) : (State.endExecuting s cause status).shape = s.shape := by
  unfold State.endExecuting; split <;> simp

@[simp] theorem State.removeQueued_shape (s : State) (status : Nat) : (State.removeQueued s status).shape = s.shape := by
  simp [State.removeQueued]

@[simp] theorem State.interruptStripe_shape (s : State) : (State.interruptStripe s).shape = s.shape := by
  unfold State.interruptStripe; dsimp only; repeat' split
  all_goals simp

@[simp] theorem State.afterStripe_shape (s : State) : (State.afterStripe s).shape = s.shape := by
  simp [State.afterStripe, apply_ite State.shape]

@[simp] theorem State.cutStripe_shape (s : State) (cause : Nat) (status : Option Nat) : (State.cutStripe s cause status).shape = s.shape := by
  simp [State.cutStripe]

@[simp] theorem State.checkReserve_shape (s : State) : (State.checkReserve s).shape = s.shape := by
  simp [State.checkReserve, apply_ite State.shape]

@[simp] theorem State.enterSafeDark_shape (s : State) (cause : Nat) : (State.enterSafeDark s cause).shape = s.shape := by
  simp [State.enterSafeDark, apply_ite State.shape]

@[simp] theorem State.dropToConfigured_shape (s : State) : (State.dropToConfigured s).shape = s.shape := by
  simp [State.dropToConfigured, apply_ite State.shape]

@[simp] theorem Die.switchOff_ok (d : Die) (mask : BitVec 8) (i : Nat) (hs : dieShapeOk i d.shape) :
    dieShapeOk i (d.switchOff mask).shape := by
  have h1 : d.id = i := hs.1
  have h2 : d.lanes.map Lane.id = (List.range 12).map (12 * i + ·) := hs.2.1
  unfold Die.switchOff
  extract_lets off
  refine dieShapeOk_mk d i hs ?_ ?_ ?_
  · split
    · rw [List.map_map]
      refine List.map_congr_left fun l hl => ?_
      have h3 : l.id ∈ (List.range 12).map (12 * i + ·) := h2 ▸ List.mem_map_of_mem hl
      simp only [List.mem_map, List.mem_range] at h3
      simp only [Function.comp_def]
      split
      · rfl
      · show 12 * d.id + l.id % 12 = l.id
        omega
    · rfl
  · split
    · exact hs.2.2.1
    · exact hs.2.2.1
  · split
    · rfl
    · exact hs.2.2.2

@[simp] theorem State.resetDma_shape (s : State) : (State.resetDma s).shape = s.shape := by simp [State.resetDma]

@[simp] theorem State.enterHalted_ok (s : State) (hs : ShapeOk fz qz s.shape) : ShapeOk fz qz (State.enterHalted s).shape := by
  unfold State.enterHalted; repeat' split
  all_goals simp_all

@[simp] theorem State.logRecord_shape (s : State) (r : FaultRecord) : (State.logRecord s r).shape = s.shape := by
  simp [State.logRecord]

@[simp] theorem State.logNew_shape (s : State) (r : FaultRecord) : (State.logNew s r).shape = s.shape := by
  simp [State.logNew]

@[simp] theorem State.failUnit_shape (s : State) (cause die unit : Nat) (perm : Bool) : (State.failUnit s cause die unit perm).shape = s.shape := by
  simp [State.failUnit, apply_ite State.shape]

@[simp] theorem State.countCause_shape (s : State) (cause die : Nat) : (State.countCause s cause die).2.shape = s.shape := by
  simp [State.countCause]

@[simp] theorem State.react_ok (s : State) (cause die unit cls : Nat) (perm : Bool) (hs : ShapeOk fz qz s.shape) : ShapeOk fz qz (State.react s cause die unit cls perm).shape := by
  simp [State.react, apply_ite State.shape, hs]

@[simp] theorem State.enqueue_shape (s : State) (r : FaultRecord) : (State.enqueue s r).shape = s.shape := by
  simp [State.enqueue]

@[simp] theorem State.storm_shape (s : State) (b : Before) : (State.storm s b).shape = s.shape := by
  simp [State.storm, apply_ite State.shape]

@[simp] theorem State.supersedeActive_shape (s : State) : (State.supersedeActive s).shape = s.shape := by
  unfold State.supersedeActive; split <;> simp

@[simp] theorem State.detect_ok (s : State) (cause die unit : Nat) (d0 d1 : Word) (hs : ShapeOk fz qz s.shape) : ShapeOk fz qz (State.detect s cause die unit d0 d1).shape := by
  unfold State.detect; dsimp only; repeat' split
  all_goals simp [hs]

@[simp] theorem State.detectOpen_ok (s : State) (cause die unit : Nat) (d1 : Word) (hs : ShapeOk fz qz s.shape) : ShapeOk fz qz (State.detectOpen s cause die unit d1).shape := by
  simp [State.detectOpen, hs]

@[simp] theorem State.detectInjected_shape (s : State) (cause die unit : Nat) : (State.detectInjected s cause die unit).shape = s.shape := by
  simp [State.detectInjected, apply_ite State.shape]

@[simp] theorem State.rateFell_shape (s : State) : (State.rateFell s).shape = s.shape := by
  unfold State.rateFell; repeat' split
  all_goals simp

@[simp] theorem State.nextEpoch_shape (s : State) : (State.nextEpoch s).shape = s.shape := by simp [State.nextEpoch]

@[simp] theorem Die.reassign_shape (l : Nat) (d : Die) : (Die.reassign l d).shape = d.shape := by
  simp (maxDischargeDepth := 9) [Die.reassign, apply_ite State.shape, apply_ite Die.shape, apply_ite Lane.id]

@[simp] theorem State.retireLane_shape (s : State) (l : Nat) : (s.retireLane l).shape = s.shape := by
  unfold State.retireLane
  extract_lets old lost s1 s2 s3
  have h1 : s1.shape = s.shape := by simp [s1]
  have h2 : s2.shape = s.shape := by simp [s2, h1]
  have h3 : s3.shape = s.shape := by
    simp only [s3]; split
    · exact h2
    · simp [h2]
  split
  · rfl
  · simp [h3]

@[simp] theorem Die.stopPass_shape (id pass : Nat) (retired : Bool) (rows : Nat) (d : Die) : (Die.stopPass id pass retired rows d).shape = d.shape := by
  simp [Die.stopPass]

@[simp] theorem State.loseDie_shape (s : State) (d : Nat) : (State.loseDie s d).shape = s.shape := by
  unfold State.loseDie; split <;> simp

@[simp] theorem State.retireDie_ok (s : State) (d : Nat) (hs : ShapeOk fz qz s.shape) : ShapeOk fz qz (s.retireDie d).shape := by
  unfold State.retireDie
  extract_lets s1 s2 s3 s4
  have h2 : s2.shape = s.shape := by
    simp only [s2]; rw [foldl_shape _ (fun _ _ => by simp)]; simp [s1]
  have h3 : s3.shape = s.shape := (State.modDie_shape _ _ _ fun x => by simp [Die.shape, Function.comp_def]).trans h2
  have h4 : ShapeOk fz qz s4.shape := State.modDie_ok _ _ _ (h3 ▸ hs) fun i x h => x.switchOff_ok _ i h
  split
  · exact hs
  · simp [h4]

@[simp] theorem State.checkDie_ok (s : State) (d : Nat) (hs : ShapeOk fz qz s.shape) : ShapeOk fz qz (State.checkDie s d).shape := by
  simp [State.checkDie, apply_ite State.shape, hs]

end Sys2Proof.Machine
end

