-- ==== Sys2Proof/Laws/ShapeRender.lean ====
section
/-! SUPPORT. Each operation keeps the shape of the state, or what the invariant says of it: geometry, memory, rendering, tables, admission, captures and the sequencer. -/

namespace Sys2Proof.Machine

variable {fz : Fuses} {qz : List Instr}

/-! ### Dgs -/

@[simp] theorem State.failLoad_shape (s : State) (id : Nat) (c : Ctx) (status : Nat) (res : List Nat) : (State.failLoad s id c status res).shape = s.shape := by
  simp [State.failLoad]

@[simp] theorem State.endLoad_shape (s : State) (id : Nat) : (State.endLoad s id).shape = s.shape := by
  unfold State.endLoad; repeat' split
  all_goals simp

@[simp] theorem libLoadBody_shape (env : List Word) (p : Packet) (c : Ctx) (s : State) : (libLoadBody env p c s).shape = s.shape := by
  simp [libLoadBody, apply_ite State.shape]

@[simp] theorem execLibBlockReceived_shape (lib : Nat) (block : List Word) (s : State) : Res.Shaped (execLibBlockReceived lib block s) s := by
  unfold execLibBlockReceived; dsimp only; repeat' split
  all_goals simp

@[simp] theorem libDropBody_shape (p : Packet) (c : Ctx) (s : State) : (libDropBody p c s).shape = s.shape := by
  unfold libDropBody; dsimp only; repeat' split
  all_goals simp

@[simp] theorem cfgRenderAheadBody_shape (p : Packet) (c : Ctx) (s : State) : (cfgRenderAheadBody p c s).shape = s.shape := by
  simp (maxDischargeDepth := 9) [cfgRenderAheadBody, apply_ite State.shape, apply_ite Die.shape, apply_ite Lane.id]

@[simp] theorem geoBindBody_shape (p : Packet) (c : Ctx) (s : State) : (geoBindBody p c s).shape = s.shape := by
  unfold geoBindBody; dsimp only; repeat' split
  all_goals simp

@[simp] theorem State.putArea_shape (s : State) (i : Nat) (a : Area) : (State.putArea s i a).shape = s.shape := by
  simp (maxDischargeDepth := 9) [State.putArea, apply_ite State.shape, apply_ite Die.shape, apply_ite Lane.id]

@[simp] theorem execStagingBlockArrival_shape (area : Nat) (s : State) : Res.Shaped (execStagingBlockArrival area s) s := by
  unfold execStagingBlockArrival; repeat' split
  all_goals simp

@[simp] theorem State.releaseBlocks_shape (s : State) (i seq : Nat) : (State.releaseBlocks s i seq).shape = s.shape := by
  unfold State.releaseBlocks; dsimp only; repeat' split
  all_goals simp

@[simp] theorem execLibLoad_shape (p : Packet) (env : List Word) (s : State) : Res.Shaped (execLibLoad p env s) s := by
  simp [execLibLoad]

@[simp] theorem execLibDrop_shape (p : Packet) (s : State) : Res.Shaped (execLibDrop p s) s := by simp [execLibDrop]

@[simp] theorem execCfgRenderAhead_shape (p : Packet) (s : State) : Res.Shaped (execCfgRenderAhead p s) s := by
  simp [execCfgRenderAhead]

@[simp] theorem execGeoBind_shape (p : Packet) (s : State) : Res.Shaped (execGeoBind p s) s := by simp [execGeoBind]

/-! ### Memory -/

@[simp] theorem State.sramUe_shape (s : State) (die port addr : Nat) : (State.sramUe s die port addr).shape = s.shape := by
  simp [State.sramUe]

theorem Sram.write_wf (m : Sram) (a : Nat) (b : Byte) (h : Sram.wf m.cells = true) : Sram.wf (m.write a b).cells = true := by
  unfold Sram.write
  split
  · exact sparseSet_wf _ _ _ _ h
  · exact h

theorem Sram.upset_wf (m : Sram) (a : Nat) (x : Stored) (h : Sram.wf m.cells = true) : Sram.wf (m.upset a x).cells = true := by
  unfold Sram.upset
  split
  · exact sparseSet_wf _ _ _ _ h
  · exact h

theorem Sram.correct_wf (m : Sram) (a : Nat) (b : Byte) (h : Sram.wf m.cells = true) :
    Sram.wf (m.correct a b).cells = true := Sram.write_wf m a b h

/-- A change of a die's SRAM that keeps its canonical form. -/
theorem State.modSram_ok (s : State) (die : Nat) (f : Sram → Sram) (hs : ShapeOk fz qz s.shape)
    (hf : ∀ m, Sram.wf (Sram.cells m) = true → Sram.wf (f m).cells = true) :
    ShapeOk fz qz (s.modDie die fun d => { d with sram := f d.sram }).shape :=
  s.modDie_ok die _ hs fun i x h => dieShapeOk_mk x i h rfl h.2.2.1
    (hf _ h.2.2.2)

@[simp] theorem State.sramRead_ok (s : State) (die port a : Nat) (hs : ShapeOk fz qz s.shape) :
    ShapeOk fz qz (s.sramRead die port a).2.shape := by
  unfold State.sramRead
  split
  · exact hs
  · exact s.modSram_ok die _ hs fun m h => m.correct_wf _ _ h
  · simpa using hs

@[simp] theorem State.unitReads_ok (s : State) (die port : Nat) (reads : Nat → Bool) (hs : ShapeOk fz qz s.shape) : ShapeOk fz qz (State.unitReads s die port reads).shape := by
  unfold State.unitReads; repeat' split
  all_goals simp_all

@[simp] theorem State.updatePanic_shape (s : State) (die : Nat) : (State.updatePanic s die).shape = s.shape := by
  unfold State.updatePanic; dsimp only
  repeat' (first | split | (refine (foldl_shape _ (fun _ _ => ?_) _ _).trans ?_) | (refine (State.modDie_shape _ _ _ (fun _ => ?_)).trans ?_) | (refine (State.modDies_shape _ _ (fun _ => ?_)).trans ?_))
  all_goals simp (maxDischargeDepth := 9) [apply_ite State.shape, apply_ite Die.shape, apply_ite Lane.id]

@[simp] theorem execRefreshInterval_shape (die : Nat) (s : State) : Res.Shaped (execRefreshInterval die s) s := by
  unfold execRefreshInterval
  simp [apply_ite State.shape, apply_ite Mem.dram]

@[simp] theorem execMakeUpBurstRefresh_shape (die : Nat) (s : State) : Res.Shaped (execMakeUpBurstRefresh die s) s := by
  simp [execMakeUpBurstRefresh, apply_ite State.shape]

@[simp] theorem execPeriodicRetraining_shape (die : Nat) (s : State) : Res.Shaped (execPeriodicRetraining die s) s := by
  simp [execPeriodicRetraining, apply_ite State.shape]

@[simp] theorem execMaxDeferExpiry_shape (die : Nat) (s : State) : Res.Shaped (execMaxDeferExpiry die s) s := by
  simp [execMaxDeferExpiry, apply_ite State.shape]

@[simp] theorem State.dramAccess_shape (s : State) (die : Nat) (as : List (Nat × Nat)) : (State.dramAccess s die as).shape = s.shape := by
  simp [State.dramAccess]

@[simp] theorem State.linkCe_shape (s : State) (die n : Nat) : (State.linkCe s die n).shape = s.shape := by
  simp [State.linkCe]

@[simp] theorem State.linkUe_ok (s : State) (die : Nat) (hs : ShapeOk fz qz s.shape) : ShapeOk fz qz (State.linkUe s die).shape := by
  simp (maxDischargeDepth := 9) [State.linkUe, hs]

@[simp] theorem scrubRunBody_shape (p : Packet) (c : Ctx) (s : State) : (scrubRunBody p c s).shape = s.shape := by
  unfold scrubRunBody
  simp [apply_ite State.shape, apply_ite Sram.cells, Sram.begin]

@[simp] theorem State.scrubByte_ok (s : State) (die a : Nat) (hs : ShapeOk fz qz s.shape) : ShapeOk fz qz (s.scrubByte die a).shape := by
  unfold State.scrubByte
  split
  · simpa using hs
  · exact s.modDie_ok die _ hs fun i x h => dieShapeOk_mk x i h rfl
      h.2.2.1 (x.sram.correct_wf _ _ h.2.2.2)
  · refine State.detect_ok _ _ _ _ _ _ ?_
    simp [hs]

@[simp] theorem State.endScan_shape (s : State) (die : Nat) (x : Scan) : (s.endScan die x).shape = s.shape := by
  unfold State.endScan
  extract_lets m s1
  have h : s1.shape = s.shape := by
    refine State.modDie_shape _ _ _ fun d => ?_
    extract_lets rest done
    refine Die.shape_mk d rfl rfl ?_
    split <;> rfl
  simp [h]

theorem Sram.upsets_wf (us : List (Nat × Stored)) (m : Sram) (h : Sram.wf m.cells = true) :
    Sram.wf (us.foldl (fun m u => m.upset u.1 u.2) m).cells = true := by
  induction us generalizing m with
  | nil => exact h
  | cons u us ih => exact ih _ (m.upset_wf _ _ h)

@[simp] theorem execScrubRead_ok (die : Nat) (upsets : List (Nat × Stored)) (s : State) (hs : ShapeOk fz qz s.shape) :
    Res.Ok fz qz (execScrubRead die upsets s) := by
  unfold execScrubRead
  extract_lets s1 x s2
  have h1 : ShapeOk fz qz s1.shape := s.modSram_ok die _ hs fun m h => by
    exact Sram.upsets_wf upsets m h
  have h2 : ShapeOk fz qz s2.shape := by
    have : s2.shape = s1.shape := by
      refine State.modDie_shape _ _ _ fun d => ?_
      split <;> rfl
    rw [this]; exact h1
  rw [Res.ok_next]
  split
  · exact hs
  · split
    · exact h2
    · extract_lets n s3 s4
      have h3 : ShapeOk fz qz s3.shape := foldl_ok _ (fun _ _ h => by simp [h]) _ _ (by simpa using h2)
      have h4 : ShapeOk fz qz s4.shape := by
        have : s4.shape = s3.shape := by simp [s4]
        rw [this]; exact h3
      split
      · simp [h4]
      · exact h4

@[simp] theorem execScrubRun_shape (p : Packet) (s : State) : Res.Shaped (execScrubRun p s) s := by simp [execScrubRun]

@[simp] theorem State.devAccess_shape (s : State) (a : DevAddr) (i n : Nat) : (State.devAccess s a i n).shape = s.shape := by
  simp [State.devAccess, apply_ite State.shape]

theorem Sram.writes_wf (bs : List (Byte × Nat)) (base : Nat) (m : Sram) (h : Sram.wf m.cells = true) :
    Sram.wf (bs.foldl (fun m b => m.write (base + b.2) b.1) m).cells = true := by
  induction bs generalizing m with
  | nil => exact h
  | cons b bs ih => exact ih _ (m.write_wf _ _ h)

@[simp] theorem State.devWrite_ok (s : State) (a : DevAddr) (bs : List Byte) (hs : ShapeOk fz qz s.shape) :
    ShapeOk fz qz (s.devWrite a bs).shape := by
  unfold State.devWrite
  extract_lets put s1
  have hs : ShapeOk fz qz s1.shape := by simpa [s1] using hs
  have hp : ∀ i x, dieShapeOk i (Die.shape x) → dieShapeOk i (put x).shape := fun i x h => by
    simp only [put]
    split
    · exact dieShapeOk_mk x i h rfl h.2.2.1 (Sram.writes_wf _ _ _ h.2.2.2)
    · exact dieShapeOk_mk x i h rfl
        (sparseSetRange_wf _ _ _ _ h.2.2.1) h.2.2.2
  split
  · refine s1.modDies_ok _ hs fun i x h => ?_
    split
    · exact h
    · exact hp i x h
  · exact s1.modDie_ok _ _ hs hp

@[simp] theorem State.devByte_ok (s : State) (a : DevAddr) (i : Nat) (hs : ShapeOk fz qz s.shape) : ShapeOk fz qz (State.devByte s a i).2.shape := by
  unfold State.devByte; split <;> simp [hs]

@[simp] theorem State.devBytes_ok (s : State) (a : DevAddr) (i n : Nat) (hs : ShapeOk fz qz s.shape) :
    ShapeOk fz qz (s.devBytes a i n).2.shape := by
  induction n generalizing s i with
  | zero => exact hs
  | succ n ih =>
    rw [State.devBytes]
    have h1 := s.devByte_ok a i hs
    generalize s.devByte a i = r at h1
    obtain ⟨_ | b, t⟩ := r
    · exact h1
    · have h2 := ih t (i + 1) h1
      dsimp only
      generalize t.devBytes a (i + 1) n = r at h2
      obtain ⟨_ | bs, u⟩ := r
      · exact h2
      · exact h2

@[simp] theorem State.devRead_ok (s : State) (a : DevAddr) (i n : Nat) (hs : ShapeOk fz qz s.shape) :
    ShapeOk fz qz (s.devRead a i n).2.shape := by
  unfold State.devRead
  simp [hs]

theorem State.devRead_of {s : State} {a : DevAddr} {i n : Nat} {b : Option (List Byte)} {t : State} (h : s.devRead a i n = (b, t))
    (hs : ShapeOk fz qz s.shape) : ShapeOk fz qz t.shape := by
  have := s.devRead_ok a i n hs
  rw [h] at this
  exact this

/-! ### Render -/

@[simp] theorem Die.beginPass_shape (st : Stripe) (part : Bool) (d : Die) : (Die.beginPass st part d).shape = d.shape := by
  simp [Die.beginPass]

@[simp] theorem State.releasePasses_shape (s : State) (st : Stripe) (pass : Nat) : (State.releasePasses s st pass).shape = s.shape := by
  unfold State.releasePasses; repeat' split
  all_goals simp

@[simp] theorem State.resumeArea_shape (s : State) (st : Stripe) : (State.resumeArea s st).shape = s.shape := by
  simp [State.resumeArea]

@[simp] theorem execStripeRenderBegin_shape (s : State) : Res.Shaped (execStripeRenderBegin s) s := by
  unfold execStripeRenderBegin; dsimp only; repeat' split
  all_goals simp (maxDischargeDepth := 9) [apply_ite State.shape, apply_ite Die.shape, apply_ite Lane.id]

@[simp] theorem Die.endWork_shape (st : Stripe) (part : Bool) (d : Die) : (Die.endWork st part d).shape = d.shape := by
  simp (maxDischargeDepth := 9) [Die.endWork, apply_ite State.shape, apply_ite Die.shape, apply_ite Lane.id]

@[simp] theorem State.settle_shape (s : State) (id pass : Nat) : (State.settle s id pass).shape = s.shape := by
  unfold State.settle; repeat' split
  all_goals simp_all (maxDischargeDepth := 9) [apply_ite State.shape, apply_ite Die.shape, apply_ite Lane.id]

@[simp] theorem State.stopPassOn_shape (s : State) (die id pass : Nat) : (State.stopPassOn s die id pass).shape = s.shape := by
  simp [State.stopPassOn]

@[simp] theorem State.stopStripe_shape (s : State) (id pass : Nat) : (State.stopStripe s id pass).shape = s.shape := by
  unfold State.stopStripe; split <;> simp

@[simp] theorem State.waitBlock_shape (s : State) (st : Stripe) (seq : Nat) : (State.waitBlock s st seq).shape = s.shape := by
  simp (maxDischargeDepth := 9) [State.waitBlock, apply_ite State.shape, apply_ite Die.shape, apply_ite Lane.id]

@[simp] theorem State.geoFaultAt_ok (s : State) (st : Stripe) (die pass cause seq off : Nat) (hs : ShapeOk fz qz s.shape) : ShapeOk fz qz (State.geoFaultAt s st die pass cause seq off).shape := by
  simp (maxDischargeDepth := 9) [State.geoFaultAt, apply_ite State.shape, apply_ite Die.shape, apply_ite Lane.id, hs]

theorem Sram.writeHalves_wf (m : Sram) (a : Nat) (vs : List Nat) (h : Sram.wf m.cells = true) :
    Sram.wf (m.writeHalves a vs).cells = true := by
  induction vs generalizing m a with
  | nil => exact h
  | cons v vs ih => exact ih _ _ (Sram.write_wf _ _ _ (Sram.write_wf _ _ _ h))

@[simp] theorem Die.putDensity_ok (row : Int) (owner : Nat) (first : Int) (cells : List Nat) (d : Die) (i : Nat)
    (hs : dieShapeOk i d.shape) : dieShapeOk i (d.putDensity row owner first cells).shape :=
  dieShapeOk_mk d i hs rfl hs.2.2.1 (Sram.writeHalves_wf _ _ _ hs.2.2.2)

@[simp] theorem State.countFlits_shape (s : State) (src bytes : Nat) : (State.countFlits s src bytes).shape = s.shape := by
  simp [State.countFlits]

@[simp] theorem State.sendDensity_ok (s : State) (st : Stripe) (pass die owner : Nat) (row : Int) (ps : List Piece) (hs : ShapeOk fz qz s.shape) : ShapeOk fz qz (State.sendDensity s st pass die owner row ps).shape := by
  unfold State.sendDensity; repeat' split
  all_goals simp_all (maxDischargeDepth := 9) [apply_ite State.shape, apply_ite Die.shape, apply_ite Lane.id]

@[simp] theorem State.releaseRead_shape (s : State) (st : Stripe) (pass : Nat) : (State.releaseRead s st pass).shape = s.shape := by
  unfold State.releaseRead; repeat' split
  all_goals simp

@[simp] theorem execTesseraCoarseBand_ok (die : Nat) (s : State) (hs : ShapeOk fz qz s.shape) :
    Res.Ok fz qz (execTesseraCoarseBand die s) := by
  unfold execTesseraCoarseBand
  rw [Res.ok_next]
  split
  · exact hs
  · dsimp only
    split
    · exact hs
    · split
      · simp [hs]
      · split
        · simp [hs]
        · simp [hs]
        · rw [State.releaseRead_shape, State.shape_mk _ _ _ _ _ _ _ _ _ _ _ _ _ _ _ _ _ _ _ _ _ _ _ rfl rfl]
          simp only [State.count_shape]
          rw [State.modDie_shape _ _ _ (fun d => by simp)]
          exact foldl_ok _ (fun _ _ h => by simp [h]) _ _ hs

@[simp] theorem State.checkBounds_shape (s : State) (st : Stripe) (die seg : Nat) : (State.checkBounds s st die seg).shape = s.shape := by
  unfold State.checkBounds; dsimp only; repeat' split
  all_goals simp

@[simp] theorem execTesseraFineBand_ok (die : Nat) (s : State) (hs : ShapeOk fz qz s.shape) : Res.Ok fz qz (execTesseraFineBand die s) := by
  unfold execTesseraFineBand; dsimp only; repeat' split
  all_goals simp [hs]

@[simp] theorem execLibraryFetch_ok (die : Nat) (corrected ok1 ok2 : Bool) (s : State) (hs : ShapeOk fz qz s.shape) : Res.Ok fz qz (execLibraryFetch die corrected ok1 ok2 s) := by
  unfold execLibraryFetch; dsimp only; repeat' split
  all_goals simp (maxDischargeDepth := 9) [apply_ite State.shape, apply_ite Die.shape, apply_ite Lane.id, hs]

@[simp] theorem execFacetTileRender_ok (die : Nat) (upset : Int) (s : State) (hs : ShapeOk fz qz s.shape) : Res.Ok fz qz (execFacetTileRender die upset s) := by
  unfold execFacetTileRender; dsimp only; repeat' split
  all_goals simp (maxDischargeDepth := 9) [apply_ite State.shape, apply_ite Die.shape, apply_ite Lane.id, hs]

@[simp] theorem State.densityFault_ok (s : State) (die kind id pass : Nat) (ws : List Word) (hs : ShapeOk fz qz s.shape) : ShapeOk fz qz (State.densityFault s die kind id pass ws).shape := by
  simp (maxDischargeDepth := 9) [State.densityFault, apply_ite State.shape, apply_ite Die.shape, apply_ite Lane.id, hs]

@[simp] theorem execDensityPacketRx_ok (die owner : Nat) (received : Option (List Word)) (s : State) (hs : ShapeOk fz qz s.shape) :
    Res.Ok fz qz (execDensityPacketRx die owner received s) := by
  unfold execDensityPacketRx
  rw [Res.ok_next]
  split
  · split
    · exact hs
    · extract_lets ws take
      have ht : ∀ u : State, (take u).shape = u.shape := fun u => by simp [take]
      split
      · simp [ht, hs]
      · simp [hs]
      · exact State.modDie_ok _ _ _ (by simp [ht, hs]) fun i x h => Die.putDensity_ok _ _ _ _ x i h
  · exact hs

@[simp] theorem execStripePassStop_shape (die stripe pass : Nat) (s : State) : Res.Shaped (execStripePassStop die stripe pass s) s := by
  simp [execStripePassStop, apply_ite State.shape]

@[simp] theorem execLongRangeRow_ok (die : Nat) (s : State) (hs : ShapeOk fz qz s.shape) : Res.Ok fz qz (execLongRangeRow die s) := by
  unfold execLongRangeRow; dsimp only; repeat' split
  all_goals simp [hs]

@[simp] theorem execRenderBlock_ok (die : Nat) (verifyFails : Bool) (s : State) (hs : ShapeOk fz qz s.shape) : Res.Ok fz qz (execRenderBlock die verifyFails s) := by
  unfold execRenderBlock; dsimp only; repeat' split
  all_goals simp (maxDischargeDepth := 9) [apply_ite State.shape, apply_ite Die.shape, apply_ite Lane.id, hs]

@[simp] theorem State.skipBlock_ok (s : State) (die : Nat) (b : RaBlock) (hs : ShapeOk fz qz s.shape) : ShapeOk fz qz (State.skipBlock s die b).shape := by
  simp (maxDischargeDepth := 9) [State.skipBlock, hs]

@[simp] theorem Die.putRows_ok (b : RaBlock) (first : Nat) (rows : List (List Nat)) (d : Die) (i : Nat)
    (hs : dieShapeOk i d.shape) : dieShapeOk i (d.putRows b first rows).shape := by
  refine dieShapeOk_mk d i hs rfl hs.2.2.1 ?_
  generalize rows.zipIdx = rs
  have h := hs.2.2.2
  change Sram.wf d.sram.cells = true at h
  generalize d.sram = m at h
  induction rs generalizing m with
  | nil => exact h
  | cons r rs ih => exact ih _ (Sram.writeHalves_wf _ _ _ h)

@[simp] theorem State.placeRows_ok (s : State) (die : Nat) (b : RaBlock) (hs : ShapeOk fz qz s.shape) : ShapeOk fz qz (State.placeRows s die b).shape := by
  unfold State.placeRows; repeat' split
  all_goals simp_all

@[simp] theorem State.bufferRead_ok (s : State) (die : Nat) (upset : Option (Nat × Nat × Stored)) (hs : ShapeOk fz qz s.shape) :
    ShapeOk fz qz (s.bufferRead die upset).2.shape := by
  cases upset with
  | none => exact hs
  | some u => exact State.sramRead_ok _ _ _ _ (s.modSram_ok _ _ hs fun m h => m.upset_wf _ _ h)

@[simp] theorem State.blockAnswered_ok (s : State) (die : Nat) (b : RaBlock) (answer : RaRead) (hs : ShapeOk fz qz s.shape) : ShapeOk fz qz (State.blockAnswered s die b answer).shape := by
  unfold State.blockAnswered; repeat' split
  all_goals simp_all (maxDischargeDepth := 9) [apply_ite State.shape, apply_ite Die.shape, apply_ite Lane.id]

@[simp] theorem State.placeFirst_ok (s : State) (die : Nat) (hs : ShapeOk fz qz s.shape) : ShapeOk fz qz (State.placeFirst s die).shape := by
  unfold State.placeFirst; repeat' split
  all_goals simp [hs]

@[simp] theorem execRenderAheadRead_ok (die : Nat) (answer : RaRead) (upset : Option (Nat × Nat × Stored)) (s : State)
    (hs : ShapeOk fz qz s.shape) : Res.Ok fz qz (execRenderAheadRead die answer upset s) := by
  unfold execRenderAheadRead
  rw [Res.ok_next]
  split
  · exact hs
  · extract_lets r s1
    have h1 : ShapeOk fz qz r.2.shape := s.bufferRead_ok die upset hs
    split
    · exact h1
    · have h2 : ShapeOk fz qz s1.shape := h1
      clear_value s1
      refine State.placeFirst_ok _ _ ?_
      split
      · exact h2
      · refine State.blockAnswered_ok _ _ _ _ ?_
        split <;> simp [h2]

/-! ### Tables -/

@[simp] theorem tableLoadBody_shape (env : List Word) (p : Packet) (c : Ctx) (s : State) : (tableLoadBody env p c s).shape = s.shape := by
  unfold tableLoadBody; dsimp only; repeat' split
  all_goals simp

@[simp] theorem tableReadBody_shape (p : Packet) (c : Ctx) (s : State) : (tableReadBody p c s).shape = s.shape := by
  simp [tableReadBody, apply_ite State.shape]

@[simp] theorem execTableLoad_shape (p : Packet) (env : List Word) (s : State) : Res.Shaped (execTableLoad p env s) s := by
  simp [execTableLoad]

@[simp] theorem execTableRead_shape (p : Packet) (s : State) : Res.Shaped (execTableRead p s) s := by
  simp [execTableRead]

/-! ### Admission -/

@[simp] theorem State.queueStripe_shape (s : State) (a : Admitted) : (State.queueStripe s a).shape = s.shape := by
  simp [State.queueStripe]

@[simp] theorem submitBody_shape (makeup : Bool) (p : Packet) (c : Ctx) (s : State) : (submitBody makeup p c s).shape = s.shape := by
  unfold submitBody; dsimp only; repeat' split
  all_goals simp

@[simp] theorem execStripeSubmit_shape (p : Packet) (s : State) : Res.Shaped (execStripeSubmit p s) s := by
  simp [execStripeSubmit]

@[simp] theorem execMakeupSubmit_shape (p : Packet) (s : State) : Res.Shaped (execMakeupSubmit p s) s := by
  simp [execMakeupSubmit]

/-! ### Capture -/

@[simp] theorem State.loseLock_shape (s : State) : (State.loseLock s).shape = s.shape := by simp [State.loseLock]

@[simp] theorem State.loseReference_shape (s : State) (a : Nat) : (State.loseReference s a).shape = s.shape := by
  unfold State.loseReference; dsimp only; repeat' split
  all_goals simp

@[simp] theorem State.sendPassStart_shape (s : State) (st : Stripe) : (State.sendPassStart s st).shape = s.shape := by
  simp [State.sendPassStart]

@[simp] theorem State.passAnswered_shape (s : State) (lane : Nat) : (State.passAnswered s lane).shape = s.shape := by
  unfold State.passAnswered; split <;> simp

/-! ### Sequencer -/

@[simp] theorem State.removeStripe_shape (s : State) (st : Stripe) (status : Nat) : (State.removeStripe s st status).shape = s.shape := by
  simp [State.removeStripe, apply_ite State.shape]

@[simp] theorem State.pausesServed_shape (s : State) (st : Stripe) : (State.pausesServed s st).shape = s.shape := by
  simp [State.pausesServed]

@[simp] theorem execPrefillComplete_shape (s : State) : Res.Shaped (execPrefillComplete s) s := by
  unfold execPrefillComplete; dsimp only; repeat' split
  all_goals simp

@[simp] theorem execSeqPauseExpiry_shape (s : State) : Res.Shaped (execSeqPauseExpiry s) s := by
  unfold execSeqPauseExpiry; dsimp only; repeat' split
  all_goals simp

@[simp] theorem State.aimStart_shape (s : State) (st : Stripe) : (State.aimStart s st).shape = s.shape := by
  simp [State.aimStart]

@[simp] theorem State.armLate_shape (s : State) (st : Stripe) : (State.armLate s st).shape = s.shape := by
  simp [State.armLate, apply_ite State.shape]

@[simp] theorem State.buildShot_ok (s : State) (st : Stripe) (p n : Nat) (strikes : List Strike) (hs : ShapeOk fz qz s.shape) : ShapeOk fz qz (State.buildShot s st p n strikes).shape := by
  unfold State.buildShot; repeat' split
  all_goals simp_all (maxDischargeDepth := 9) [apply_ite State.shape, apply_ite Die.shape, apply_ite Lane.id]

@[simp] theorem State.armNow_ok (s : State) (st : Stripe) (hs : ShapeOk fz qz s.shape) : ShapeOk fz qz (State.armNow s st).shape := by
  unfold State.armNow; repeat' split
  all_goals simp_all (maxDischargeDepth := 9) [apply_ite State.shape, apply_ite Die.shape, apply_ite Lane.id]

@[simp] theorem State.armStart_ok (s : State) (st : Stripe) (hs : ShapeOk fz qz s.shape) : ShapeOk fz qz (State.armStart s st).shape := by
  simp [State.armStart, apply_ite State.shape, hs]

@[simp] theorem State.startWaiting_ok (s : State) (hs : ShapeOk fz qz s.shape) : ShapeOk fz qz (State.startWaiting s).shape := by
  unfold State.startWaiting; repeat' split
  all_goals simp [hs]

@[simp] theorem State.takeAxes_shape (s : State) (st : Stripe) (v : Nat) : (State.takeAxes s st v).shape = s.shape := by
  simp [State.takeAxes]

@[simp] theorem execApproachBegin_ok (strikes : List Strike) (s : State) (hs : ShapeOk fz qz s.shape) : Res.Ok fz qz (execApproachBegin strikes s) := by
  unfold execApproachBegin; dsimp only; repeat' split
  all_goals simp [hs]

@[simp] theorem State.laneEcho_shape (s : State) (st : Stripe) (n : Nat) : (State.laneEcho s st n).shape = s.shape := by
  simp [State.laneEcho]

@[simp] theorem State.skipShot_shape (s : State) (st : Stripe) (n : Nat) : (State.skipShot s st n).shape = s.shape := by
  simp [State.skipShot, apply_ite State.shape]

@[simp] theorem State.firstCrossing_shape (s : State) (st : Stripe) : (State.firstCrossing s st).shape = s.shape := by
  simp [State.firstCrossing]

@[simp] theorem State.dropOldRecs_shape (s : State) (n : Nat) : (State.dropOldRecs s n).shape = s.shape := by
  simp [State.dropOldRecs]

@[simp] theorem State.shotMark_shape (s : State) (strobes : Nat) : (State.shotMark s strobes).shape = s.shape := by
  simp [State.shotMark, apply_ite State.shape]

@[simp] theorem State.strobe_shape (s : State) (st : Stripe) (n : Nat) : (State.strobe s st n).shape = s.shape := by
  simp [State.strobe]

@[simp] theorem State.pulse_ok (s : State) (st : Stripe) (g : Gen) (t : Nat) (strikes : List Strike) (hs : ShapeOk fz qz s.shape) :
    ShapeOk fz qz (s.pulse st g t strikes).shape := by
  unfold State.pulse
  extract_lets n fires q u s1 s2 s3 s4 now s5 s6 s7 s8
  have h4 : s4.shape = s.shape := by simp [s4, s3, s2, s1, apply_ite State.shape]
  have h5 : s5.shape = s.shape := by simp [s5, apply_ite State.shape, h4]
  have h6 : ShapeOk fz qz s6.shape := by
    simp only [s6]
    split
    · exact State.buildShot_ok _ _ _ _ _ (h5 ▸ hs)
    · exact h5 ▸ hs
  have h8 : s8.shape = s6.shape := by simp [s8, s7, apply_ite State.shape]
  rw [foldl_shape _ (fun _ _ => by simp), h8]
  exact h6

@[simp] theorem execShotPulse_ok (t : Nat) (readbackFault : Bool) (strikes : List Strike) (s : State) (hs : ShapeOk fz qz s.shape) : Res.Ok fz qz (execShotPulse t readbackFault strikes s) := by
  unfold execShotPulse; repeat' split
  all_goals simp [hs]

@[simp] theorem State.runOut_shape (s : State) (st : Stripe) : (State.runOut s st).shape = s.shape := by
  simp [State.runOut, apply_ite State.shape]

@[simp] theorem execPassEnd_shape (s : State) : Res.Shaped (execPassEnd s) s := by
  unfold execPassEnd; repeat' split
  all_goals simp

@[simp] theorem execStripeComplete_shape (s : State) : Res.Shaped (execStripeComplete s) s := by
  unfold execStripeComplete; repeat' split
  all_goals simp

@[simp] theorem stripeAbortBody_shape (p : Packet) (c : Ctx) (s : State) : (stripeAbortBody p c s).shape = s.shape := by
  simp [stripeAbortBody, apply_ite State.shape]

@[simp] theorem ledgerReadBody_shape (p : Packet) (c : Ctx) (s : State) : (ledgerReadBody p c s).shape = s.shape := by
  simp [ledgerReadBody, apply_ite State.shape]

@[simp] theorem ledgerStreamBody_shape (p : Packet) (c : Ctx) (s : State) : (ledgerStreamBody p c s).shape = s.shape := by
  simp [ledgerStreamBody, apply_ite State.shape]

@[simp] theorem ledgerReleaseBody_shape (p : Packet) (c : Ctx) (s : State) : (ledgerReleaseBody p c s).shape = s.shape := by
  simp [ledgerReleaseBody, apply_ite State.shape]

@[simp] theorem execStripeAbort_shape (p : Packet) (s : State) : Res.Shaped (execStripeAbort p s) s := by
  simp [execStripeAbort]

@[simp] theorem execLedgerRead_shape (p : Packet) (s : State) : Res.Shaped (execLedgerRead p s) s := by
  simp [execLedgerRead]

@[simp] theorem execLedgerStream_shape (p : Packet) (s : State) : Res.Shaped (execLedgerStream p s) s := by
  simp [execLedgerStream]

@[simp] theorem execLedgerRelease_shape (p : Packet) (s : State) : Res.Shaped (execLedgerRelease p s) s := by
  simp [execLedgerRelease]

end Sys2Proof.Machine
end

