-- ==== Sys2Proof/Laws/ShapeUnits.lean ====
section
/-! SUPPORT. Each operation keeps the shape of the state, or what the invariant says of it: the axes, power, calibration, the host interface, boot, check values, compression and DMA. -/

namespace Sys2Proof.Machine

variable {fz : Fuses} {qz : List Instr}

/-! ### Arc -/

@[simp] theorem State.motionFault_ok (s : State) (a : Nat) (owned : Bool) (hs : ShapeOk fz qz s.shape) : ShapeOk fz qz (State.motionFault s a owned).shape := by
  simp [State.motionFault, hs]

@[simp] theorem State.driveLost_ok (s : State) (a : Nat) (hs : ShapeOk fz qz s.shape) : ShapeOk fz qz (State.driveLost s a).shape := by
  simp [State.driveLost, apply_ite State.shape, hs]

@[simp] theorem State.homeReference_shape (s : State) (a : Nat) (before : Int) : (State.homeReference s a before).shape = s.shape := by
  simp [State.homeReference]

@[simp] theorem State.homeDone_shape (s : State) (a : Nat) (h : Homing) : (State.homeDone s a h).shape = s.shape := by
  simp [State.homeDone, apply_ite State.shape]

@[simp] theorem State.homePhase_shape (s : State) (a : Nat) (p : HomePhase) : (State.homePhase s a p).shape = s.shape := by
  simp [State.homePhase]

@[simp] theorem State.homeTrip_shape (s : State) (a : Nat) (h : Homing) : (State.homeTrip s a h).shape = s.shape := by
  unfold State.homeTrip; repeat' split
  all_goals simp

@[simp] theorem State.homeInput_shape (s : State) (a d : Nat) (active : Bool) : (State.homeInput s a d active).shape = s.shape := by
  unfold State.homeInput; dsimp only; repeat' split
  all_goals simp

@[simp] theorem State.hardLimit_ok (s : State) (a : Nat) (positive : Bool) (hs : ShapeOk fz qz s.shape) : ShapeOk fz qz (State.hardLimit s a positive).shape := by
  simp [State.hardLimit, apply_ite State.shape, hs]

@[simp] theorem State.axisChatter_shape (s : State) (a : Nat) : (State.axisChatter s a).shape = s.shape := by
  simp [State.axisChatter, apply_ite State.shape]

@[simp] theorem State.homeAfterTick_shape (s : State) (a : Nat) : (State.homeAfterTick s a).shape = s.shape := by
  unfold State.homeAfterTick; dsimp only; repeat' split
  all_goals simp

@[simp] theorem State.axisSteps_shape (s : State) (a : Nat) (before : Int) : (State.axisSteps s a before).shape = s.shape := by
  simp [State.axisSteps, apply_ite State.shape]

@[simp] theorem axisConfigBody_ok (p : Packet) (c : Ctx) (s : State) (hs : ShapeOk fz qz s.shape) : ShapeOk fz qz (axisConfigBody p c s).shape := by
  unfold axisConfigBody; dsimp only; repeat' split
  all_goals simp [hs]

@[simp] theorem axisParamBody_shape (p : Packet) (c : Ctx) (s : State) : (axisParamBody p c s).shape = s.shape := by
  simp [axisParamBody, apply_ite State.shape]

@[simp] theorem axisHomeBody_shape (p : Packet) (c : Ctx) (s : State) : (axisHomeBody p c s).shape = s.shape := by
  simp [axisHomeBody, apply_ite State.shape]

@[simp] theorem axisMoveBody_shape (p : Packet) (c : Ctx) (s : State) : (axisMoveBody p c s).shape = s.shape := by
  simp [axisMoveBody, apply_ite State.shape]

@[simp] theorem State.axisStop_shape (s : State) (a : Nat) (fault enable : Bool) : (State.axisStop s a fault enable).1.shape = s.shape := by
  unfold State.axisStop; dsimp only; repeat' split
  all_goals simp

@[simp] theorem axisStopBody_shape (p : Packet) (c : Ctx) (s : State) : (axisStopBody p c s).shape = s.shape := by
  unfold axisStopBody
  extract_lets fault enable owned r r'
  have h : r.1.shape = s.shape := by
    have : ∀ (l : List Nat) (acc : State × Bool), (l.foldl (fun (acc : State × Bool) a =>
        if (acc.1.axis a).state = .absent then acc
        else let t := acc.1.axisStop a fault enable; (t.1, acc.2 || t.2)) acc).1.shape = acc.1.shape := by
      intro l
      induction l with
      | nil => intro acc; rfl
      | cons a l ih => intro acc; rw [List.foldl_cons, ih]; split <;> simp
    exact this _ _
  repeat' split
  all_goals simp [h, r']

@[simp] theorem execAxisConfig_ok (p : Packet) (s : State) (hs : ShapeOk fz qz s.shape) : Res.Ok fz qz (execAxisConfig p s) := by
  unfold execAxisConfig; repeat' split
  all_goals simp_all

@[simp] theorem execAxisParam_shape (p : Packet) (s : State) : Res.Shaped (execAxisParam p s) s := by
  simp [execAxisParam]

@[simp] theorem execAxisHome_shape (p : Packet) (s : State) : Res.Shaped (execAxisHome p s) s := by simp [execAxisHome]

@[simp] theorem execAxisMove_shape (p : Packet) (s : State) : Res.Shaped (execAxisMove p s) s := by simp [execAxisMove]

@[simp] theorem execAxisStop_shape (p : Packet) (s : State) : Res.Shaped (execAxisStop p s) s := by simp [execAxisStop]

@[simp] theorem State.returned_shape (s : State) : (State.returned s).shape = s.shape := by
  unfold State.returned; repeat' split
  all_goals simp

@[simp] theorem State.tickAxis_shape (s : State) (a : Nat) : (State.tickAxis s a).shape = s.shape := by
  simp [State.tickAxis]

@[simp] theorem execProfileTick_shape (s : State) : Res.Shaped (execProfileTick s) s := by
  simp [execProfileTick, apply_ite State.shape]

@[simp] theorem execSetpointPacketTx_shape (s : State) : Res.Shaped (execSetpointPacketTx s) s := by
  simp [execSetpointPacketTx, apply_ite State.shape]

@[simp] theorem State.badSetpointStatus_ok (s : State) (hs : ShapeOk fz qz s.shape) : ShapeOk fz qz (State.badSetpointStatus s).shape := by
  unfold State.badSetpointStatus; repeat' split
  all_goals simp_all (maxDischargeDepth := 9) [apply_ite State.shape, apply_ite Die.shape, apply_ite Lane.id]

@[simp] theorem execSetpointStatusRx_ok (words : List Word) (s : State) (hs : ShapeOk fz qz s.shape) : Res.Ok fz qz (execSetpointStatusRx words s) := by
  unfold execSetpointStatusRx; repeat' split
  all_goals simp_all (maxDischargeDepth := 9) [apply_ite State.shape, apply_ite Die.shape, apply_ite Lane.id]

@[simp] theorem execSetpointStatusTimeout_ok (s : State) (hs : ShapeOk fz qz s.shape) : Res.Ok fz qz (execSetpointStatusTimeout s) := by
  simp [execSetpointStatusTimeout, apply_ite State.shape, hs]

@[simp] theorem execStall_ok (axis : Nat) (s : State) (hs : ShapeOk fz qz s.shape) : Res.Ok fz qz (execStall axis s) := by
  simp [execStall, apply_ite State.shape, hs]

@[simp] theorem execMoveComplete_shape (axis : Nat) (s : State) : Res.Shaped (execMoveComplete axis s) s := by
  simp [execMoveComplete, apply_ite State.shape]

@[simp] theorem execHomingSearchLimit_shape (axis : Nat) (s : State) : Res.Shaped (execHomingSearchLimit axis s) s := by
  simp [execHomingSearchLimit, apply_ite State.shape]

/-! ### Power -/

@[simp] theorem State.enableStep_shape (s : State) (k : Nat) : (State.enableStep s k).shape = s.shape := by
  simp [State.enableStep]

@[simp] theorem State.railsOff_shape (s : State) (all : Bool) : (State.railsOff s all).shape = s.shape := by
  simp [State.railsOff]

@[simp] theorem State.domainsOn_shape (s : State) : (State.domainsOn s).shape = s.shape := by simp [State.domainsOn]

@[simp] theorem State.powerUp_shape (s : State) (record : List Word) : (State.powerUp s record).shape = s.shape := by
  unfold State.powerUp; repeat' split
  all_goals simp

@[simp] theorem execRailStepComplete_shape (s : State) : Res.Shaped (execRailStepComplete s) s := by
  unfold execRailStepComplete; repeat' split
  all_goals simp

@[simp] theorem State.railFails_shape (s : State) (entry : Nat) : (State.railFails s entry).shape = s.shape := by
  unfold State.railFails; split <;> simp

@[simp] theorem execRailFailure_shape (entry : Nat) (s : State) : Res.Shaped (execRailFailure entry s) s := by
  simp [execRailFailure]

@[simp] theorem execPmbusTransaction_shape (entry : Nat) (ok : Bool) (s : State) : Res.Shaped (execPmbusTransaction entry ok s) s := by
  unfold execPmbusTransaction; dsimp only; repeat' split
  all_goals simp

@[simp] theorem execPmbusAlert_shape (monitorFault : Bool) (s : State) : Res.Shaped (execPmbusAlert monitorFault s) s := by
  simp [execPmbusAlert, apply_ite State.shape]

@[simp] theorem execPmbusTelemetry_shape (pout : List Nat) (s : State) : Res.Shaped (execPmbusTelemetry pout s) s := by
  simp [execPmbusTelemetry, apply_ite State.shape]

@[simp] theorem Die.afterReset_ok (d : Die) (i : Nat) (hs : dieShapeOk i d.shape) : dieShapeOk i (Die.afterReset d).shape := by
  simp [Die.afterReset, hs]

@[simp] theorem State.resetCommon_ok (s : State) (software : Bool) (hs : ShapeOk fz qz s.shape) : ShapeOk fz qz (State.resetCommon s software).shape := by
  unfold State.resetCommon; repeat' split
  all_goals simp_all

@[simp] theorem State.enterStandby_ok (s : State) (hs : ShapeOk fz qz s.shape) : ShapeOk fz qz (State.enterStandby s).shape := by
  simp [State.enterStandby, hs]

@[simp] theorem execPerstAsserted_ok (s : State) (hs : ShapeOk fz qz s.shape) : Res.Ok fz qz (execPerstAsserted s) := by
  simp [execPerstAsserted, apply_ite State.shape, hs]

@[simp] theorem execPerstDeasserted_shape (record : List Word) (s : State) : Res.Shaped (execPerstDeasserted record s) s := by
  simp [execPerstDeasserted, apply_ite State.shape]

@[simp] theorem execWakeNLow_shape (record : List Word) (s : State) : Res.Shaped (execWakeNLow record s) s := by
  simp [execWakeNLow, apply_ite State.shape]

theorem State.powerOn_ok (f : Fuses) (m : Flash) : ShapeOk f.lasting [] (State.powerOn f m).shape := by
  refine ⟨rfl, rfl, by simp [State.shape, State.powerOn, Fuses.lasting], fun d y hy => ?_⟩
  simp only [State.shape, State.powerOn, List.map_map, List.getElem?_map, Option.map_eq_some_iff] at hy
  obtain ⟨k, hk, rfl⟩ := hy
  have : k = d := by
    rw [List.getElem?_eq_some_iff] at hk
    obtain ⟨h, hk⟩ := hk
    simpa using hk.symm
  subst this
  exact ⟨rfl, rfl, rfl, rfl⟩

@[simp] theorem execPowerOnReset_ok (record : List Word) (s : State) (hs : ShapeOk fz qz s.shape) :
    Res.Ok fz qz (execPowerOnReset record s) := by
  unfold execPowerOnReset
  rw [Res.ok_next]
  split
  · extract_lets z c u z1
    have h := State.powerOn_ok s.fuses s.flash
    have hz : ShapeOk fz qz z1.shape := ⟨hs.1, hs.2.1, hs.1 ▸ h.2.2.1, h.2.2.2⟩
    split
    · exact hz
    · simp [hz]
  · exact hs

@[simp] theorem execAonSupplyLost_ok (s : State) (hs : ShapeOk fz qz s.shape) : Res.Ok fz qz (execAonSupplyLost s) := by
  unfold execAonSupplyLost
  extract_lets z
  rw [Res.ok_next]
  have h := State.powerOn_ok s.fuses s.flash
  rw [show State.powerOn s.fuses s.flash = z from rfl] at h
  have h := State.modDies_ok z (fun d => { d with pow := { d.pow with on := 0x00, iso := 0xFF } }) h fun i x h => h
  exact ⟨hs.1, hs.2.1, hs.1 ▸ h.2.2.1, h.2.2.2⟩

@[simp] theorem powerStandbyBody_ok (x0 : Packet) (c : Ctx) (s : State) (hs : ShapeOk fz qz s.shape) : ShapeOk fz qz (powerStandbyBody x0 c s).shape := by
  simp [powerStandbyBody, hs]

@[simp] theorem execPowerStandby_ok (p : Packet) (s : State) (hs : ShapeOk fz qz s.shape) : Res.Ok fz qz (execPowerStandby p s) := by
  unfold execPowerStandby; repeat' split
  all_goals simp_all

@[simp] theorem State.excludeSensor_ok (s : State) (die n : Nat) (hs : ShapeOk fz qz s.shape) : ShapeOk fz qz (State.excludeSensor s die n).shape := by
  simp [State.excludeSensor, apply_ite State.shape, hs]

@[simp] theorem State.thermalStop_ok (s : State) (die n : Nat) (hs : ShapeOk fz qz s.shape) : ShapeOk fz qz (State.thermalStop s die n).shape := by
  simp (maxDischargeDepth := 9) [State.thermalStop, apply_ite State.shape, apply_ite Die.shape, apply_ite Lane.id, hs]

@[simp] theorem State.thermalLatch_ok (s : State) (die n : Nat) (hs : ShapeOk fz qz s.shape) : ShapeOk fz qz (State.thermalLatch s die n).shape := by
  simp [State.thermalLatch, apply_ite State.shape, hs]

@[simp] theorem State.checkBlind_ok (s : State) (hs : ShapeOk fz qz s.shape) : ShapeOk fz qz (State.checkBlind s).shape := by
  simp [State.checkBlind, apply_ite State.shape, hs]

@[simp] theorem execSensorConversion_ok (die sensor : Nat) (reading : Int) (failed : Bool) (s : State) (hs : ShapeOk fz qz s.shape) : Res.Ok fz qz (execSensorConversion die sensor reading failed s) := by
  simp [execSensorConversion, apply_ite State.shape, hs]

@[simp] theorem State.crossCheckDie_ok (s : State) (d : Nat) (hs : ShapeOk fz qz s.shape) : ShapeOk fz qz (State.crossCheckDie s d).shape := by
  unfold State.crossCheckDie; repeat' split
  all_goals simp_all (maxDischargeDepth := 9) [apply_ite State.shape, apply_ite Die.shape, apply_ite Lane.id]

@[simp] theorem State.thermalLevels_shape (s : State) : (State.thermalLevels s).shape = s.shape := by
  unfold State.thermalLevels; dsimp only; repeat' split
  all_goals simp

@[simp] theorem State.thermalStopEnd_shape (s : State) : (State.thermalStopEnd s).shape = s.shape := by
  simp [State.thermalStopEnd, apply_ite State.shape]

@[simp] theorem State.pauseRound_shape (s : State) : (State.pauseRound s).shape = s.shape := by
  simp [State.pauseRound, apply_ite State.shape]

@[simp] theorem State.avsRail_shape (s : State) (i : Nat) (r : Rail) : (State.avsRail s i r).shape = s.shape := by
  simp (maxDischargeDepth := 9) [State.avsRail, apply_ite State.shape]

@[simp] theorem State.avs_shape (s : State) : (s.avs).shape = s.shape := by
  unfold State.avs
  refine foldl_shape _ (fun s i => ?_) _ _
  repeat' split
  all_goals simp

@[simp] theorem execHousekeepingRoundEnd_ok (slack : List Nat) (s : State) (hs : ShapeOk fz qz s.shape) : Res.Ok fz qz (execHousekeepingRoundEnd slack s) := by
  unfold execHousekeepingRoundEnd; repeat' split
  all_goals simp_all (maxDischargeDepth := 9) [apply_ite State.shape, apply_ite Die.shape, apply_ite Lane.id]

@[simp] theorem execGuardRound_ok (die : Nat) (s : State) (hs : ShapeOk fz qz s.shape) : Res.Ok fz qz (execGuardRound die s) := by
  simp [execGuardRound, apply_ite State.shape, hs]

@[simp] theorem thermalReadBody_ok (env : List Word) (p : Packet) (c : Ctx) (s : State) (hs : ShapeOk fz qz s.shape) :
    ShapeOk fz qz (thermalReadBody env p c s).shape := by
  unfold thermalReadBody
  extract_lets d demand s1 x j ws
  have h : ShapeOk fz qz s1.shape := by
    simp only [s1]
    split
    · refine foldl_ok _ (fun s n h => ?_) _ _ hs
      obtain ⟨t, ht, hk⟩ := execSensorConversion_ok d n (signed 16 (wordAt env n)) (bit (wordAt env n) 16) s h
      rw [ht]; exact hk
    · exact hs
  simp [h]

@[simp] theorem execThermalRead_ok (p : Packet) (env : List Word) (s : State) (hs : ShapeOk fz qz s.shape) : Res.Ok fz qz (execThermalRead p env s) := by
  unfold execThermalRead; repeat' split
  all_goals simp_all

@[simp] theorem thermalConfigBody_shape (p : Packet) (c : Ctx) (s : State) : (thermalConfigBody p c s).shape = s.shape := by
  simp [thermalConfigBody, apply_ite State.shape]

@[simp] theorem execThermalConfig_shape (p : Packet) (s : State) : Res.Shaped (execThermalConfig p s) s := by
  simp [execThermalConfig]

/-! ### Calibration -/

@[simp] theorem execCalMeasurement_shape (die item index : Nat) (value : Int) (quality : Nat) (s : State) : Res.Shaped (execCalMeasurement die item index value quality s) s := by
  simp [execCalMeasurement, apply_ite State.shape]

@[simp] theorem execCalStep_shape (die item index : Nat) (s : State) : Res.Shaped (execCalStep die item index s) s := by
  simp [execCalStep, apply_ite State.shape]

@[simp] theorem calRunBody_shape (p : Packet) (c : Ctx) (s : State) : (calRunBody p c s).shape = s.shape := by
  simp (maxDischargeDepth := 9) [calRunBody, apply_ite State.shape, apply_ite Die.shape, apply_ite Lane.id]

@[simp] theorem execCalRunComplete_shape (s : State) : Res.Shaped (execCalRunComplete s) s := by
  unfold execCalRunComplete; dsimp only; repeat' split
  all_goals simp

@[simp] theorem execSensorCalComplete_shape (offsets : List (Nat × Nat × Int)) (s : State) : Res.Shaped (execSensorCalComplete offsets s) s := by
  simp (maxDischargeDepth := 9) [execSensorCalComplete, apply_ite State.shape, apply_ite Die.shape, apply_ite Lane.id]

@[simp] theorem calReadBody_shape (p : Packet) (c : Ctx) (s : State) : (calReadBody p c s).shape = s.shape := by
  simp [calReadBody, apply_ite State.shape]

@[simp] theorem calStoreBody_shape (env : List Word) (x0 : Packet) (c : Ctx) (s : State) : (calStoreBody env x0 c s).shape = s.shape := by
  simp [calStoreBody, apply_ite State.shape]

@[simp] theorem State.loadCal_shape (s : State) : (State.loadCal s).shape = s.shape := by
  unfold State.loadCal; repeat' split
  all_goals simp

@[simp] theorem execCalRun_shape (p : Packet) (s : State) : Res.Shaped (execCalRun p s) s := by simp [execCalRun]

@[simp] theorem execCalRead_shape (p : Packet) (s : State) : Res.Shaped (execCalRead p s) s := by simp [execCalRead]

@[simp] theorem execCalStore_shape (p : Packet) (env : List Word) (s : State) : Res.Shaped (execCalStore p env s) s := by
  simp [execCalStore]

@[simp] theorem State.snapshot_shape (s : State) : (State.snapshot s).shape = s.shape := by
  simp (maxDischargeDepth := 9) [State.snapshot, apply_ite State.shape, apply_ite Die.shape, apply_ite Lane.id]

@[simp] theorem counterSnapshotBody_shape (p : Packet) (c : Ctx) (s : State) : (counterSnapshotBody p c s).shape = s.shape := by
  simp [counterSnapshotBody]

@[simp] theorem counterStreamBody_shape (p : Packet) (c : Ctx) (s : State) : (counterStreamBody p c s).shape = s.shape := by
  simp [counterStreamBody, apply_ite State.shape]

@[simp] theorem execCounterSnapshot_shape (p : Packet) (s : State) : Res.Shaped (execCounterSnapshot p s) s := by
  simp [execCounterSnapshot]

@[simp] theorem execCounterStream_shape (p : Packet) (s : State) : Res.Shaped (execCounterStream p s) s := by
  simp [execCounterStream]

@[simp] theorem execCounterStreamPeriod_shape (s : State) : Res.Shaped (execCounterStreamPeriod s) s := by
  unfold execCounterStreamPeriod; repeat' split
  all_goals simp

@[simp] theorem execMirrorSnapshot_shape (s : State) : Res.Shaped (execMirrorSnapshot s) s := by
  simp [execMirrorSnapshot, apply_ite State.shape]

/-! ### HostIf -/

@[simp] theorem State.maskVector_shape (s : State) (v : Nat) (masked : Bool) : (State.maskVector s v masked).shape = s.shape := by
  simp [State.maskVector]

@[simp] theorem execHifDbNcmdWrite_shape (value : Word) (s : State) : Res.Shaped (execHifDbNcmdWrite value s) s := by
  simp [execHifDbNcmdWrite, apply_ite State.shape]

@[simp] theorem execHifDbUcmdWrite_shape (value : Word) (s : State) : Res.Shaped (execHifDbUcmdWrite value s) s := by
  simp [execHifDbUcmdWrite, apply_ite State.shape]

@[simp] theorem execHifDbStatWrite_shape (value : Word) (s : State) : Res.Shaped (execHifDbStatWrite value s) s := by
  simp [execHifDbStatWrite, apply_ite State.shape]

@[simp] theorem execNormalRingEnable_shape (s : State) : Res.Shaped (execNormalRingEnable s) s := by
  simp [execNormalRingEnable, apply_ite State.shape]

@[simp] theorem execUrgentRingEnable_shape (s : State) : Res.Shaped (execUrgentRingEnable s) s := by
  simp [execUrgentRingEnable, apply_ite State.shape]

@[simp] theorem execStatusRingEnable_shape (s : State) : Res.Shaped (execStatusRingEnable s) s := by
  simp [execStatusRingEnable, apply_ite State.shape]

@[simp] theorem execNormalRingDisable_shape (s : State) : Res.Shaped (execNormalRingDisable s) s := by
  simp [execNormalRingDisable, apply_ite State.shape]

@[simp] theorem execUrgentRingDisable_shape (s : State) : Res.Shaped (execUrgentRingDisable s) s := by
  simp [execUrgentRingDisable, apply_ite State.shape]

@[simp] theorem State.disableStatus_shape (s : State) : (State.disableStatus s).shape = s.shape := by
  simp [State.disableStatus]

@[simp] theorem execStatusRingDisable_shape (s : State) : Res.Shaped (execStatusRingDisable s) s := by
  simp [execStatusRingDisable, apply_ite State.shape]

@[simp] theorem execIrqCoalesceTimeout_shape (s : State) : Res.Shaped (execIrqCoalesceTimeout s) s := by
  simp [execIrqCoalesceTimeout, apply_ite State.shape]

/-! ### Flash -/

@[simp] theorem State.writeSelector_shape (s : State) (f : Selector → Selector) : (State.writeSelector s f).shape = s.shape := by
  simp [State.writeSelector]

/-! ### Boot -/

@[simp] theorem Die.train_shape (r : DramReport) (d : Die) : (Die.train r d).shape = d.shape := by simp [Die.train]

@[simp] theorem State.trainMemory_shape (s : State) (drams : List DramReport) : (s.trainMemory drams).shape = s.shape := by
  unfold State.trainMemory
  refine State.modDies_shape _ _ fun d => ?_
  split
  · rfl
  · split
    · rfl
    · simp

@[simp] theorem State.bootBank_shape (s : State) (bank : Nat) (drams : List DramReport) : (State.bootBank s bank drams).shape = s.shape := by
  simp [State.bootBank]

@[simp] theorem State.bootFails_ok (s : State) (hs : ShapeOk fz qz s.shape) : ShapeOk fz qz (State.bootFails s).shape := by
  simp [State.bootFails, hs]

@[simp] theorem execBootStart_ok (drams : List DramReport) (s : State) (hs : ShapeOk fz qz s.shape) : Res.Ok fz qz (execBootStart drams s) := by
  simp [execBootStart, apply_ite State.shape, hs]

@[simp] theorem State.trialCal_shape (s : State) : (State.trialCal s).shape = s.shape := by
  unfold State.trialCal; dsimp only; repeat' split
  all_goals simp

@[simp] theorem State.selfTests_ok (s : State) (compFail : List Nat) (crcFail : List (Nat × Nat)) (hs : ShapeOk fz qz s.shape) : ShapeOk fz qz (State.selfTests s compFail crcFail).shape := by
  unfold State.selfTests; repeat' split
  all_goals simp_all (maxDischargeDepth := 9) [apply_ite State.shape, apply_ite Die.shape, apply_ite Lane.id]

@[simp] theorem State.sramRecords_ok (s : State) (hs : ShapeOk fz qz s.shape) : ShapeOk fz qz (s.sramRecords).shape := by
  unfold State.sramRecords
  refine foldl_ok _ (fun s d h => ?_) _ _ hs
  split
  · exact h
  · refine State.modDie_ok _ _ _ (by simp [h]) fun i x h => h

@[simp] theorem State.interruptedEntries_shape (s : State) : (State.interruptedEntries s).shape = s.shape := by
  unfold State.interruptedEntries; split <;> simp

@[simp] theorem State.bootDark_ok (s : State) (hs : ShapeOk fz qz s.shape) : ShapeOk fz qz (State.bootDark s).shape := by
  simp [State.bootDark, apply_ite State.shape, hs]

@[simp] theorem execBootComplete_ok (compFail : List Nat) (crcFail : List (Nat × Nat)) (s : State) (hs : ShapeOk fz qz s.shape) : Res.Ok fz qz (execBootComplete compFail crcFail s) := by
  simp (maxDischargeDepth := 9) [execBootComplete, apply_ite State.shape, apply_ite Die.shape, apply_ite Lane.id, hs]

@[simp] theorem State.deviceReset_ok (s : State) (software : Bool) (cause : Nat) (hs : ShapeOk fz qz s.shape) : ShapeOk fz qz (State.deviceReset s software cause).shape := by
  simp [State.deviceReset, hs]

@[simp] theorem execWarmReset_ok (s : State) (hs : ShapeOk fz qz s.shape) : Res.Ok fz qz (execWarmReset s) := by
  simp [execWarmReset, apply_ite State.shape, hs]

@[simp] theorem execSoftwareReset_ok (s : State) (hs : ShapeOk fz qz s.shape) : Res.Ok fz qz (execSoftwareReset s) := by
  simp [execSoftwareReset, apply_ite State.shape, hs]

@[simp] theorem resetBody_shape (p : Packet) (c : Ctx) (s : State) : (resetBody p c s).shape = s.shape := by
  simp [resetBody, apply_ite State.shape]

@[simp] theorem execReset_shape (p : Packet) (s : State) : Res.Shaped (execReset p s) s := by simp [execReset]

@[simp] theorem State.linkReset_shape (s : State) : (State.linkReset s).shape = s.shape := by
  simp [State.linkReset, apply_ite State.shape]

@[simp] theorem execHotReset_shape (s : State) : Res.Shaped (execHotReset s) s := by simp [execHotReset]

@[simp] theorem execFunctionLevelReset_shape (s : State) : Res.Shaped (execFunctionLevelReset s) s := by
  simp [execFunctionLevelReset]

@[simp] theorem execLinkDown_shape (s : State) : Res.Shaped (execLinkDown s) s := by simp [execLinkDown]

@[simp] theorem execD3hotEntry_shape (s : State) : Res.Shaped (execD3hotEntry s) s := by
  simp [execD3hotEntry, apply_ite State.shape]

@[simp] theorem execD3hotExit_shape (s : State) : Res.Shaped (execD3hotExit s) s := by
  simp [execD3hotExit, apply_ite State.shape]

/-! ### Check -/

@[simp] theorem State.modCrc_shape (s : State) (die u : Nat) (f : CrcUnit → CrcUnit) : (State.modCrc s die u f).shape = s.shape := by
  simp [State.modCrc]

@[simp] theorem State.feedCrc_shape (s : State) (die u : Nat) (bs : List Byte) : (State.feedCrc s die u bs).shape = s.shape := by
  simp [State.feedCrc]

@[simp] theorem State.crcPort_shape (s : State) (die u : Nat) (f : CrcUnit → CrcUnit) : Res.Shaped (State.crcPort s die u f) s := by
  simp [State.crcPort, apply_ite State.shape]

@[simp] theorem State.crcBytes_shape (s : State) (die u : Nat) (bs : List Byte) : Res.Shaped (State.crcBytes s die u bs) s := by
  simp [State.crcBytes, apply_ite State.shape]

@[simp] theorem execCrcStart_shape (die unit : Nat) (control : Word) (s : State) : Res.Shaped (execCrcStart die unit control s) s := by
  simp [execCrcStart]

@[simp] theorem execCrcData_shape (die unit : Nat) (value : Word) (s : State) : Res.Shaped (execCrcData die unit value s) s := by
  simp [execCrcData]

@[simp] theorem execCrcData8_shape (die unit : Nat) (value : Byte) (s : State) : Res.Shaped (execCrcData8 die unit value s) s := by
  simp [execCrcData8]

@[simp] theorem execCrcValueWrite_shape (die unit : Nat) (value : Word) (s : State) : Res.Shaped (execCrcValueWrite die unit value s) s := by
  simp [execCrcValueWrite]

@[simp] theorem execCrcBytesWrite_shape (die unit : Nat) (value : Word) (s : State) : Res.Shaped (execCrcBytesWrite die unit value s) s := by
  simp [execCrcBytesWrite]

/-! ### Compress -/

@[simp] theorem State.modComp_shape (s : State) (die : Nat) (f : Comp → Comp) : (State.modComp s die f).shape = s.shape := by
  simp [State.modComp]

@[simp] theorem State.saveContext_ok (s : State) (die : Nat) (hs : ShapeOk fz qz s.shape) : ShapeOk fz qz (s.saveContext die).shape := by
  unfold State.saveContext
  extract_lets c bs data data2 check all s1
  have h1 : ShapeOk fz qz s1.shape := by simp [s1, hs]
  split
  · simp [hs]
  · exact h1

@[simp] theorem State.saveIf_ok (s : State) (die : Nat) (boundary : Bool) (hs : ShapeOk fz qz s.shape) : ShapeOk fz qz (State.saveIf s die boundary).shape := by
  simp [State.saveIf, apply_ite State.shape, hs]

@[simp] theorem State.loadContext_ok (s : State) (die : Nat) (hs : ShapeOk fz qz s.shape) : ShapeOk fz qz (s.loadContext die).shape := by
  unfold State.loadContext
  extract_lets slot
  have h1 := s.devRead_ok { die := die, bcast := false, sram := true, off := ctxAddr slot } 0 33792 hs
  split
  · simp [hs]
  · generalize s.devRead { die := die, bcast := false, sram := true, off := ctxAddr slot } 0 33792 = r at h1
    obtain ⟨_ | bs, t⟩ := r
    · simp [show ShapeOk fz qz t.shape from h1]
    · dsimp only
      split <;> simp [show ShapeOk fz qz t.shape from h1]

@[simp] theorem execCompContextSave_ok (die : Nat) (s : State) (hs : ShapeOk fz qz s.shape) : Res.Ok fz qz (execCompContextSave die s) := by
  simp [execCompContextSave, apply_ite State.shape, hs]

@[simp] theorem execCompContextRestore_ok (die : Nat) (s : State) (hs : ShapeOk fz qz s.shape) : Res.Ok fz qz (execCompContextRestore die s) := by
  simp [execCompContextRestore, apply_ite State.shape, hs]

@[simp] theorem execCompJobStart_shape (die : Nat) (control : Word) (s : State) : Res.Shaped (execCompJobStart die control s) s := by
  simp [execCompJobStart, apply_ite State.shape]

@[simp] theorem State.codeJob_ok (s : State) (die : Nat) (segment : List Byte) (last : Bool) (hs : ShapeOk fz qz s.shape) : ShapeOk fz qz (State.codeJob s die segment last).shape := by
  simp [State.codeJob, apply_ite State.shape, hs]

@[simp] theorem State.codeAll_ok (s : State) (die n : Nat) (hs : ShapeOk fz qz s.shape) : ShapeOk fz qz (s.codeAll die n).shape := by
  induction n generalizing s with
  | zero => exact hs
  | succ n ih =>
    rw [State.codeAll]
    dsimp only
    split
    · exact hs
    · exact ih _ (by simp [hs])

@[simp] theorem State.decodeJob_ok (s : State) (die : Nat) (hs : ShapeOk fz qz s.shape) : ShapeOk fz qz (State.decodeJob s die).shape := by
  simp [State.decodeJob, hs]

@[simp] theorem State.jobInput_ok (s : State) (die : Nat) (bs : List Byte) (last : Bool) (hs : ShapeOk fz qz s.shape) : ShapeOk fz qz (State.jobInput s die bs last).shape := by
  simp [State.jobInput, apply_ite State.shape, hs]

@[simp] theorem State.jobOutput_shape (s : State) (die n : Nat) : (State.jobOutput s die n).2.shape = s.shape := by
  simp [State.jobOutput, apply_ite State.shape]

@[simp] theorem execCompJobDone_shape (die : Nat) (s : State) : Res.Shaped (execCompJobDone die s) s := by
  simp [execCompJobDone, apply_ite State.shape]

/-! ### Dma -/

@[simp] theorem State.modDma_shape (s : State) (i : Nat) (f : DmaD → DmaD) : (State.modDma s i f).shape = s.shape := by
  simp [State.modDma]

theorem State.hostDma_ok (s : State) (ch : Nat) (f : State → State) (hs : ShapeOk fz qz s.shape)
    (h : ∀ s, ShapeOk fz qz s.shape → ShapeOk fz qz (f s).shape) : Res.Ok fz qz (s.hostDma ch f) := by
  unfold State.hostDma
  rw [Res.ok_next]
  repeat' split
  · exact hs
  · simp [hs]
  · exact h _ hs

@[simp] theorem State.hostDma_shape (s : State) (ch : Nat) (f : State → State) (h : ∀ s, (f s).shape = s.shape) :
    Res.Shaped (s.hostDma ch f) s := by
  unfold State.hostDma
  rw [Res.shaped_next]
  repeat' split
  · rfl
  · simp
  · exact h _

@[simp] theorem execDmaDoorbell_shape (ch : Nat) (s : State) : Res.Shaped (execDmaDoorbell ch s) s := by
  simp [execDmaDoorbell]

@[simp] theorem execDmaRunSet_shape (ch : Nat) (s : State) : Res.Shaped (execDmaRunSet ch s) s := by
  simp [execDmaRunSet]

@[simp] theorem execDmaRunClear_shape (ch : Nat) (s : State) : Res.Shaped (execDmaRunClear ch s) s := by
  simp [execDmaRunClear]

@[simp] theorem State.partBlock_shape (s : State) (c : DmaD) : (State.partBlock s c).shape = s.shape := by
  simp [State.partBlock]

@[simp] theorem State.completeD_ok (s : State) (i result index : Nat) (hs : ShapeOk fz qz s.shape) : ShapeOk fz qz (State.completeD s i result index).shape := by
  unfold State.completeD; dsimp only; repeat' split
  all_goals simp [hs]

@[simp] theorem execDmaAbort_ok (ch : Nat) (s : State) (hs : ShapeOk fz qz s.shape) : Res.Ok fz qz (execDmaAbort ch s) := by
  unfold execDmaAbort
  refine s.hostDma_ok _ _ hs fun s h => ?_
  dsimp only
  split <;> simp [h]

@[simp] theorem execDmaOwnerWrite_shape (ch : Nat) (firmware : Bool) (s : State) : Res.Shaped (execDmaOwnerWrite ch firmware s) s := by
  simp [execDmaOwnerWrite, apply_ite State.shape]

@[simp] theorem execDmaFetchErrorClear_ok (ch : Nat) (s : State) (hs : ShapeOk fz qz s.shape) :
    Res.Ok fz qz (execDmaFetchErrorClear ch s) := by
  unfold execDmaFetchErrorClear
  exact s.hostDma_ok _ _ hs fun s h => by simp [h]

@[simp] theorem execDmaRingBaseWrite_shape (ch : Nat) (high : Bool) (value : Word) (s : State) : Res.Shaped (execDmaRingBaseWrite ch high value s) s := by
  simp [execDmaRingBaseWrite]

@[simp] theorem State.fetchD_ok (s : State) (i : Nat) (answer : DescRead) (hs : ShapeOk fz qz s.shape) : ShapeOk fz qz (State.fetchD s i answer).shape := by
  unfold State.fetchD; dsimp only; repeat' split
  all_goals simp [hs]

@[simp] theorem State.advanceD_ok (s : State) (i n : Nat) (hs : ShapeOk fz qz s.shape) : ShapeOk fz qz (State.advanceD s i n).shape := by
  simp [State.advanceD, apply_ite State.shape, hs]

@[simp] theorem State.stageBytes_shape (s : State) (c : DmaD) (bs : List Byte) : (State.stageBytes s c bs).shape = s.shape := by
  simp [State.stageBytes]

@[simp] theorem State.deliver_ok (s : State) (i at_ : Nat) (bs : List Byte) (hs : ShapeOk fz qz s.shape) : ShapeOk fz qz (State.deliver s i at_ bs).shape := by
  unfold State.deliver; dsimp only; repeat' split
  all_goals simp [hs]

@[simp] theorem State.linkAnswer_ok (s : State) (a : DevAddr) (answer : BurstRead) (hs : ShapeOk fz qz s.shape) :
    ShapeOk fz qz (s.linkAnswer a answer).shape := by
  unfold State.linkAnswer
  split
  · exact hs
  · split <;> simp [hs]

@[simp] theorem State.burstData_ok (s : State) (i : Nat) (ws : List Word) (bs : List Byte) (hs : ShapeOk fz qz s.shape) :
    ShapeOk fz qz (s.burstData i ws bs).shape := by
  unfold State.burstData
  dsimp only
  split
  · split
    · exact hs
    · split <;> (rename_i h; have h := State.devRead_of h hs; simp [h])
  · exact State.advanceD_ok _ _ _ (State.deliver_ok _ _ _ _ (by simp [hs]))

@[simp] theorem State.burstD_ok (s : State) (i : Nat) (answer : BurstRead) (hs : ShapeOk fz qz s.shape) :
    ShapeOk fz qz (s.burstD i answer).shape := by
  unfold State.burstD
  extract_lets c
  split
  · exact hs
  · split
    · exact hs
    · extract_lets s1
      have h1 : ShapeOk fz qz s1.shape := by
        simp only [s1]
        split
        · exact hs
        · exact State.linkAnswer_ok _ _ _ hs
      clear_value s1
      split <;> simp [h1]

@[simp] theorem State.modMove_shape (s : State) (die k : Nat) (f : DmaD → DmaD) : (State.modMove s die k f).shape = s.shape := by
  simp [State.modMove]

@[simp] theorem State.releaseCrc_shape (s : State) (die : Nat) (c : DmaD) : (State.releaseCrc s die c).shape = s.shape := by
  unfold State.releaseCrc; repeat' split
  all_goals simp

@[simp] theorem State.completeMove_ok (s : State) (die k result : Nat) (hs : ShapeOk fz qz s.shape) : ShapeOk fz qz (State.completeMove s die k result).shape := by
  simp [State.completeMove, hs]

@[simp] theorem State.fetchMove_ok (s : State) (die k : Nat) (answer : DescRead) (hs : ShapeOk fz qz s.shape) : ShapeOk fz qz (State.fetchMove s die k answer).shape := by
  unfold State.fetchMove; dsimp only; repeat' split
  all_goals simp [hs]

@[simp] theorem State.movedBytes_ok (s : State) (die k len n : Nat) (hs : ShapeOk fz qz s.shape) : ShapeOk fz qz (State.movedBytes s die k len n).shape := by
  simp [State.movedBytes, apply_ite State.shape, hs]

@[simp] theorem State.crcEnd_ok (s : State) (die u : Nat) (b : DevAddr) (len : Nat) (tail : Option (List Byte))
    (hs : ShapeOk fz qz s.shape) : ShapeOk fz qz (s.crcEnd die u b len tail).shape := by
  unfold State.crcEnd
  dsimp only
  split
  · simp [hs]
  · split
    · split
      · exact hs
      · simp [hs]
    · exact hs

@[simp] theorem State.moveBytes_ok (s : State) (c : DmaD) (a : DevAddr) (i n : Nat) (hs : ShapeOk fz qz s.shape) :
    ShapeOk fz qz (s.moveBytes c a i n).2.shape := by
  unfold State.moveBytes
  split
  · exact s.devRead_ok _ _ _ hs
  · exact hs

@[simp] theorem State.moveTail_ok (s : State) (c : DmaD) (u die : Nat) (a : DevAddr) (len : Nat) (hs : ShapeOk fz qz s.shape) :
    ShapeOk fz qz (s.moveTail c u die a len).2.shape := by
  unfold State.moveTail
  dsimp only
  split
  · exact hs
  · exact s.moveBytes_ok _ _ _ _ hs

@[simp] theorem State.burstCrc_ok (s : State) (die k u : Nat) (a b : DevAddr) (len n : Nat) (hs : ShapeOk fz qz s.shape) :
    ShapeOk fz qz (s.burstCrc die k u a b len n).shape := by
  unfold State.burstCrc
  extract_lets c x payload
  split
  · exact hs
  · have h1 := s.moveBytes_ok c a c.done n hs
    generalize s.moveBytes c a c.done n = r at h1
    obtain ⟨_ | data, t⟩ := r
    · simp [show ShapeOk fz qz t.shape from h1]
    · have h2 : ShapeOk fz qz t.shape := h1
      clear h1
      dsimp only
      split
      · have h3 := State.moveTail_ok (fz := fz) (qz := qz) (((t.devWrite { b with off := b.off + c.done } (data.take (payload - c.done))).feedCrc die u
            (data.take (payload - c.done))).modCrc die u fun x => { x with busy := true }) c u die a len (by simp [h2])
        generalize State.moveTail _ c u die a len = r at h3
        obtain ⟨tail, v⟩ := r
        simp [show ShapeOk fz qz v.shape from h3]
      · simp [h2]

@[simp] theorem State.fillBuffer_ok (s : State) (die k u : Nat) (a : DevAddr) (len : Nat) (hs : ShapeOk fz qz s.shape) :
    ShapeOk fz qz (s.fillBuffer die k u a len).2.shape := by
  unfold State.fillBuffer
  dsimp only
  split
  · exact hs
  · split <;> (rename_i h; have h := State.devRead_of h hs; simp [h])

@[simp] theorem State.burstMove_ok (s : State) (die k : Nat) (answer : BurstRead) (hs : ShapeOk fz qz s.shape) :
    ShapeOk fz qz (s.burstMove die k answer).shape := by
  have paced : ∀ (a b : DevAddr) (len n u : Nat) (down : Bool), ShapeOk fz qz (State.shape (
      let (read, t) := if down then (s.linkAnswer a answer).fillBuffer die k u a len else (true, s.linkAnswer a answer)
      if read then t.burstCrc die k u a b len n else t.completeMove die k 0x81)) := fun a b len n u down => by
    have h1 : ShapeOk fz qz (if down then (s.linkAnswer a answer).fillBuffer die k u a len
        else (true, s.linkAnswer a answer)).2.shape := by
      split
      · exact State.fillBuffer_ok _ _ _ _ _ _ (by simp [hs])
      · simp [hs]
    generalize (if down then (s.linkAnswer a answer).fillBuffer die k u a len else (true, s.linkAnswer a answer)) = r at h1
    obtain ⟨read, t⟩ := r
    dsimp only at h1 ⊢
    split <;> simp [h1]
  have hl : ∀ a, ShapeOk fz qz (s.linkAnswer a answer).shape := fun a => State.linkAnswer_ok _ _ _ hs
  unfold State.burstMove
  dsimp only
  split
  · exact hs
  · split
    all_goals first
      | (simp [hs]; done)
      | (split
         · split
           · exact hl _
           · split <;> (rename_i h; have h := State.devRead_of h (hl _); simp [h])
         · split
           · exact hl _
           · simp [hl]
         · exact paced _ _ _ _ _ _
         · split <;> (rename_i h; have h := State.devRead_of h (hl _); simp [h]))

@[simp] theorem execDmaDescriptorFetch_ok (ch : DmaChan) (answer : DescRead) (s : State) (hs : ShapeOk fz qz s.shape) : Res.Ok fz qz (execDmaDescriptorFetch ch answer s) := by
  unfold execDmaDescriptorFetch; repeat' split
  all_goals simp [hs]

@[simp] theorem execDmaBurst_ok (ch : DmaChan) (answer : BurstRead) (s : State) (hs : ShapeOk fz qz s.shape) : Res.Ok fz qz (execDmaBurst ch answer s) := by
  unfold execDmaBurst; repeat' split
  all_goals simp [hs]

@[simp] theorem execDmaTEnable_shape (ch : Nat) (s : State) : Res.Shaped (execDmaTEnable ch s) s := by
  simp [execDmaTEnable, apply_ite State.shape]

@[simp] theorem execDmaTRdptrWrite_shape (ch : Nat) (value : Word) (s : State) : Res.Shaped (execDmaTRdptrWrite ch value s) s := by
  simp [execDmaTRdptrWrite, apply_ite State.shape]

@[simp] theorem execClassTRecordWrite_shape (ch : Nat) (s : State) : Res.Shaped (execClassTRecordWrite ch s) s := by
  unfold execClassTRecordWrite; dsimp only; repeat' split
  all_goals simp

end Sys2Proof.Machine
end

