-- ==== Sys2Proof/Laws/ShapeMotion.lean ====
section
/-! SUPPORT. Each operation keeps the shape of the state, or what the invariant says of it: Locus, time and Chord. -/

namespace Sys2Proof.Machine

variable {fz : Fuses} {qz : List Instr}

/-! ### Locus -/

@[simp] theorem State.axisLost_shape (s : State) (a : Nat) (unlock : Bool) : (State.axisLost s a unlock).shape = s.shape := by
  simp [State.axisLost, apply_ite State.shape]

@[simp] theorem State.sourceFault_ok (s : State) (n b : Nat) (hs : ShapeOk fz qz s.shape) : ShapeOk fz qz (State.sourceFault s n b).shape := by
  unfold State.sourceFault; dsimp only; repeat' split
  all_goals simp [hs]

@[simp] theorem State.indexMismatch_ok (s : State) (n : Nat) (hs : ShapeOk fz qz s.shape) : ShapeOk fz qz (State.indexMismatch s n).shape := by
  unfold State.indexMismatch; dsimp only; repeat' split
  all_goals simp [hs]

@[simp] theorem State.checkMissing_ok (s : State) (n : Nat) (before : Int) (hs : ShapeOk fz qz s.shape) : ShapeOk fz qz (State.checkMissing s n before).shape := by
  unfold State.checkMissing; dsimp only; repeat' split
  all_goals simp [hs]

@[simp] theorem State.direction_shape (s : State) (n : Nat) : (State.direction s n).shape = s.shape := by
  simp [State.direction, apply_ite State.shape]

@[simp] theorem State.moveSource_ok (s : State) (n : Nat) (delta : Int) (hs : ShapeOk fz qz s.shape) : ShapeOk fz qz (State.moveSource s n delta).shape := by
  unfold State.moveSource; dsimp only; repeat' split
  all_goals simp [hs]

@[simp] theorem execAbEdge_ok (src : Nat) (a b z : Bool) (t : Nat) (s : State) (hs : ShapeOk fz qz s.shape) : Res.Ok fz qz (execAbEdge src a b z t s) := by
  simp [execAbEdge, apply_ite State.shape, hs]

@[simp] theorem execSincosSample_ok (src : Nat) (sin cos : Int) (t : Nat) (s : State) (hs : ShapeOk fz qz s.shape) : Res.Ok fz qz (execSincosSample src sin cos t s) := by
  simp [execSincosSample, apply_ite State.shape, hs]

@[simp] theorem execBissCycleStart_shape (src t : Nat) (s : State) : Res.Shaped (execBissCycleStart src t s) s := by
  simp [execBissCycleStart, apply_ite State.shape]

@[simp] theorem execBissDataReceived_ok (src : Nat) (bits : List Bool) (delay : Nat) (s : State) (hs : ShapeOk fz qz s.shape) : Res.Ok fz qz (execBissDataReceived src bits delay s) := by
  simp [execBissDataReceived, apply_ite State.shape, hs]

@[simp] theorem execBissTimeout_ok (src : Nat) (s : State) (hs : ShapeOk fz qz s.shape) : Res.Ok fz qz (execBissTimeout src s) := by
  simp [execBissTimeout, apply_ite State.shape, hs]

@[simp] theorem execLineFault_ok (src : Nat) (s : State) (hs : ShapeOk fz qz s.shape) : Res.Ok fz qz (execLineFault src s) := by
  simp [execLineFault, apply_ite State.shape, hs]

@[simp] theorem execZStuck_ok (src : Nat) (s : State) (hs : ShapeOk fz qz s.shape) : Res.Ok fz qz (execZStuck src s) := by
  simp [execZStuck, apply_ite State.shape, hs]

@[simp] theorem execSourceRevalid_shape (src : Nat) (s : State) : Res.Shaped (execSourceRevalid src s) s := by
  simp [execSourceRevalid, apply_ite State.shape]

@[simp] theorem State.correctIndex_shape (s : State) (n : Nat) (d : Int) : (State.correctIndex s n d).shape = s.shape := by
  unfold State.correctIndex; dsimp only; repeat' split
  all_goals simp

@[simp] theorem State.indexAt_ok (s : State) (n : Nat) (count : Int) (hs : ShapeOk fz qz s.shape) : ShapeOk fz qz (State.indexAt s n count).shape := by
  unfold State.indexAt; dsimp only; repeat' split
  all_goals simp [hs]

@[simp] theorem State.toothByGap_ok (s : State) (n : Nat) (count : Int) (hs : ShapeOk fz qz s.shape) : ShapeOk fz qz (State.toothByGap s n count).shape := by
  unfold State.toothByGap; dsimp only; repeat' split
  all_goals simp [hs]

@[simp] theorem State.toothMissing_ok (s : State) (n : Nat) (ref count : Int) (hs : ShapeOk fz qz s.shape) : ShapeOk fz qz (State.toothMissing s n ref count).shape := by
  simp [State.toothMissing, apply_ite State.shape, hs]

@[simp] theorem State.toothExtra_ok (s : State) (n : Nat) (ref count : Int) (hs : ShapeOk fz qz s.shape) : ShapeOk fz qz (State.toothExtra s n ref count).shape := by
  simp [State.toothExtra, apply_ite State.shape, hs]

@[simp] theorem State.tooth_ok (s : State) (n : Nat) (count : Int) (hs : ShapeOk fz qz s.shape) : ShapeOk fz qz (State.tooth s n count).shape := by
  unfold State.tooth; dsimp only; repeat' split
  all_goals simp [hs]

@[simp] theorem execIndexEvent_ok (src : Nat) (count : Int) (s : State) (hs : ShapeOk fz qz s.shape) : Res.Ok fz qz (execIndexEvent src count s) := by
  simp [execIndexEvent, apply_ite State.shape, hs]

@[simp] theorem execSpeedWindowEnd_shape (src : Nat) (s : State) : Res.Shaped (execSpeedWindowEnd src s) s := by
  simp [execSpeedWindowEnd, apply_ite State.shape]

@[simp] theorem execDeviation_ok (axis : Nat) (s : State) (hs : ShapeOk fz qz s.shape) : Res.Ok fz qz (execDeviation axis s) := by
  simp [execDeviation, apply_ite State.shape, hs]

@[simp] theorem State.track_shape (s : State) (t : Nat) : (State.track s t).shape = s.shape := by
  unfold State.track; dsimp only; repeat' split
  all_goals simp

@[simp] theorem execTrackingMeasurement_shape (src : Nat) (s : State) : Res.Shaped (execTrackingMeasurement src s) s := by
  unfold execTrackingMeasurement; repeat' split
  all_goals simp

@[simp] theorem execRestMeasurement_shape (src : Nat) (s : State) : Res.Shaped (execRestMeasurement src s) s := by
  simp [execRestMeasurement, apply_ite State.shape]

@[simp] theorem State.setDin_ok (s : State) (d : Nat) (v : Bool) (hs : ShapeOk fz qz s.shape) : ShapeOk fz qz (State.setDin s d v).shape := by
  unfold State.setDin; dsimp only; repeat' split
  all_goals simp [hs]

@[simp] theorem execDinChange_ok (din : Nat) (level : Bool) (s : State) (hs : ShapeOk fz qz s.shape) : Res.Ok fz qz (execDinChange din level s) := by
  unfold execDinChange; dsimp only; repeat' split
  all_goals simp [hs]

@[simp] theorem execDinDebounce_ok (din : Nat) (s : State) (hs : ShapeOk fz qz s.shape) : Res.Ok fz qz (execDinDebounce din s) := by
  simp [execDinDebounce, apply_ite State.shape, hs]

@[simp] theorem execDinStuck_shape (din : Nat) (s : State) : Res.Shaped (execDinStuck din s) s := by
  simp [execDinStuck, apply_ite State.shape]

@[simp] theorem State.clearDin_ok (s : State) (d flags : Nat) (hs : ShapeOk fz qz s.shape) : ShapeOk fz qz (State.clearDin s d flags).shape := by
  simp [State.clearDin, apply_ite State.shape, hs]

@[simp] theorem execLocusDinFlagClear_ok (din : Nat) (flags : Nat) (s : State) (hs : ShapeOk fz qz s.shape) : Res.Ok fz qz (execLocusDinFlagClear din flags s) := by
  simp [execLocusDinFlagClear, apply_ite State.shape, hs]

@[simp] theorem compareSetBody_shape (p : Packet) (c : Ctx) (s : State) : (compareSetBody p c s).shape = s.shape := by
  simp [compareSetBody, apply_ite State.shape]

@[simp] theorem State.armTimed_shape (s : State) (trig : Nat) : (State.armTimed s trig).shape = s.shape := by
  simp [State.armTimed, apply_ite State.shape]

@[simp] theorem State.setSource_shape (s : State) (n : Nat) (c : SrcCfg) : (State.setSource s n c).shape = s.shape := by
  unfold State.setSource; dsimp only; repeat' split
  all_goals simp

@[simp] theorem State.setAxis_shape (s : State) (a : Nat) (y : LocusAxis) : (State.setAxis s a y).shape = s.shape := by
  unfold State.setAxis; dsimp only; repeat' split
  all_goals simp

@[simp] theorem locusConfigBody_shape (p : Packet) (c : Ctx) (s : State) : (locusConfigBody p c s).shape = s.shape := by
  unfold locusConfigBody; dsimp only; repeat' split
  all_goals simp

@[simp] theorem execLocusConfig_shape (p : Packet) (s : State) : Res.Shaped (execLocusConfig p s) s := by
  simp [execLocusConfig]

@[simp] theorem execCompareSet_shape (p : Packet) (s : State) : Res.Shaped (execCompareSet p s) s := by
  simp [execCompareSet]

/-! ### Clock -/

@[simp] theorem State.tick_shape (s : State) : (State.tick s).shape = s.shape := by
  simp (maxDischargeDepth := 9) [State.tick, apply_ite State.shape, apply_ite Die.shape, apply_ite Lane.id]

/-! ### Datum -/

@[simp] theorem State.datumCapture_shape (s : State) (kind unit info : Nat) : (State.datumCapture s kind unit info).shape = s.shape := by
  unfold State.datumCapture; split <;> simp

@[simp] theorem State.datumIrq_shape (s : State) (b : Nat) : (State.datumIrq s b).shape = s.shape := by
  simp [State.datumIrq, apply_ite State.shape]

@[simp] theorem State.modTrigger_shape (s : State) (t : Nat) (f : Trigger → Trigger) : (State.modTrigger s t f).shape = s.shape := by
  simp [State.modTrigger]

@[simp] theorem State.syncFires_shape (s : State) (t : Nat) : (State.syncFires s t).shape = s.shape := by
  unfold State.syncFires; repeat' split
  all_goals simp

@[simp] theorem State.fireTrigger_ok (s : State) (t : Nat) (late : Bool) (hs : ShapeOk fz qz s.shape) : ShapeOk fz qz (State.fireTrigger s t late).shape := by
  simp [State.fireTrigger, hs]

@[simp] theorem State.armTrigger_ok (s : State) (t ns frac : Nat) (hs : ShapeOk fz qz s.shape) : ShapeOk fz qz (State.armTrigger s t ns frac).shape := by
  simp [State.armTrigger, apply_ite State.shape, hs]

@[simp] theorem timeTriggerBody_ok (p : Packet) (c : Ctx) (s : State) (hs : ShapeOk fz qz s.shape) : ShapeOk fz qz (timeTriggerBody p c s).shape := by
  simp [timeTriggerBody, apply_ite State.shape, hs]

@[simp] theorem execTimeTrigger_ok (p : Packet) (s : State) (hs : ShapeOk fz qz s.shape) : Res.Ok fz qz (execTimeTrigger p s) := by
  unfold execTimeTrigger; repeat' split
  all_goals simp_all

@[simp] theorem execTriggerFire_ok (trigger : Nat) (s : State) (hs : ShapeOk fz qz s.shape) : Res.Ok fz qz (execTriggerFire trigger s) := by
  simp [execTriggerFire, apply_ite State.shape, hs]

@[simp] theorem State.modDomain_shape (s : State) (d : Nat) (f : Domain → Domain) : (State.modDomain s d f).shape = s.shape := by
  simp [State.modDomain]

@[simp] theorem State.formResidue_shape (s : State) : (State.formResidue s).shape = s.shape := by
  simp [State.formResidue]

@[simp] theorem State.pastTriggers_ok (s : State) (hs : ShapeOk fz qz s.shape) : ShapeOk fz qz (State.pastTriggers s).shape := by
  unfold State.pastTriggers; repeat' split
  all_goals simp_all (maxDischargeDepth := 9) [apply_ite State.shape, apply_ite Die.shape, apply_ite Lane.id]

@[simp] theorem State.stepTime_ok (s : State) (time : Nat) (hs : ShapeOk fz qz s.shape) : ShapeOk fz qz (State.stepTime s time).shape := by
  simp [State.stepTime, apply_ite State.shape, hs]

@[simp] theorem State.stepToEstimate_ok (s : State) (hs : ShapeOk fz qz s.shape) : ShapeOk fz qz (State.stepToEstimate s).shape := by
  simp [State.stepToEstimate, hs]

@[simp] theorem execDeviceTimeStep_ok (s : State) (hs : ShapeOk fz qz s.shape) : Res.Ok fz qz (execDeviceTimeStep s) := by
  simp [execDeviceTimeStep, apply_ite State.shape, hs]

@[simp] theorem State.selectDomain_shape (s : State) (d : Nat) : (State.selectDomain s d).shape = s.shape := by
  simp [State.selectDomain]

@[simp] theorem State.reselect_shape (s : State) : (State.reselect s).shape = s.shape := by
  simp [State.reselect, apply_ite State.shape]

@[simp] theorem State.domainLocked_ok (s : State) (d : Nat) (hs : ShapeOk fz qz s.shape) : ShapeOk fz qz (State.domainLocked s d).shape := by
  simp [State.domainLocked, apply_ite State.shape, hs]

@[simp] theorem State.loseDomain_shape (s : State) (d : Nat) : (State.loseDomain s d).shape = s.shape := by
  simp [State.loseDomain]

@[simp] theorem State.sample_ok (s : State) (d : Nat) (lead : Int) (hs : ShapeOk fz qz s.shape) : ShapeOk fz qz (State.sample s d lead).shape := by
  simp [State.sample, apply_ite State.shape, hs]

@[simp] theorem State.modPort_shape (s : State) (p : Nat) (f : EthPort → EthPort) : (State.modPort s p f).shape = s.shape := by
  simp [State.modPort]

@[simp] theorem State.syncDone_ok (s : State) (d : Nat) (origin received : Int) (hs : ShapeOk fz qz s.shape) : ShapeOk fz qz (State.syncDone s d origin received).shape := by
  simp [State.syncDone, hs]

@[simp] theorem execSync_ok (port : Nat) (m : PtpMsg) (s : State) (hs : ShapeOk fz qz s.shape) : Res.Ok fz qz (execSync port m s) := by
  unfold execSync; repeat' split
  all_goals simp_all (maxDischargeDepth := 9) [apply_ite State.shape, apply_ite Die.shape, apply_ite Lane.id]

@[simp] theorem execFollowUp_ok (port : Nat) (m : PtpMsg) (s : State) (hs : ShapeOk fz qz s.shape) :
    Res.Ok fz qz (execFollowUp port m s) := by
  unfold execFollowUp
  rw [Res.ok_next]
  refine foldl_ok _ (fun s d hs => ?_) _ _ hs
  repeat' split
  all_goals simp [hs]

@[simp] theorem State.takeTxts_shape (s : State) (port seq type : Nat) : (State.takeTxts s port seq type).shape = s.shape := by
  simp [State.takeTxts]

@[simp] theorem State.sendEvent_shape (s : State) (port type seq domain : Nat) : (State.sendEvent s port type seq domain).2.shape = s.shape := by
  unfold State.sendEvent; dsimp only; repeat' split
  all_goals simp

@[simp] theorem execDelayReqSend_shape (port : Nat) (domain : Nat) (s : State) : Res.Shaped (execDelayReqSend port domain s) s := by
  unfold execDelayReqSend; dsimp only; repeat' split
  all_goals simp

@[simp] theorem execDelayResp_shape (port : Nat) (m : PtpMsg) (s : State) : Res.Shaped (execDelayResp port m s) s := by
  unfold execDelayResp
  rw [Res.shaped_next]
  refine foldl_shape _ (fun s d => ?_) _ _
  try dsimp only
  repeat' split
  all_goals simp

@[simp] theorem execPdelayReq_shape (port : Nat) (m : PtpMsg) (s : State) : Res.Shaped (execPdelayReq port m s) s := by
  unfold execPdelayReq; dsimp only; repeat' split
  all_goals simp

@[simp] theorem execPdelayResp_shape (port : Nat) (m : PtpMsg) (s : State) : Res.Shaped (execPdelayResp port m s) s := by
  unfold execPdelayResp
  rw [Res.shaped_next]
  refine foldl_shape _ (fun s d => ?_) _ _
  try dsimp only
  repeat' split
  all_goals simp

@[simp] theorem execPdelayRespFollowUp_shape (port : Nat) (m : PtpMsg) (s : State) : Res.Shaped (execPdelayRespFollowUp port m s) s := by
  unfold execPdelayRespFollowUp
  rw [Res.shaped_next]
  refine foldl_shape _ (fun s d => ?_) _ _
  try dsimp only
  repeat' split
  all_goals simp

@[simp] theorem execAnnounce_shape (port : Nat) (m : PtpMsg) (dataset : List Nat) (s : State) : Res.Shaped (execAnnounce port m dataset s) s := by
  simp [execAnnounce]

@[simp] theorem execSyncTimeout_shape (domain : Nat) (s : State) : Res.Shaped (execSyncTimeout domain s) s := by
  simp [execSyncTimeout, apply_ite State.shape]

@[simp] theorem execAnnounceReceiptTimeout_shape (domain : Nat) (s : State) : Res.Shaped (execAnnounceReceiptTimeout domain s) s := by
  simp [execAnnounceReceiptTimeout, apply_ite State.shape]

@[simp] theorem execArpRequest_shape (port : Nat) (mac ip target : Nat) (s : State) : Res.Shaped (execArpRequest port mac ip target s) s := by
  simp [execArpRequest, apply_ite State.shape]

@[simp] theorem execIcmpEchoRequest_shape (port : Nat) (words : List Word) (s : State) : Res.Shaped (execIcmpEchoRequest port words s) s := by
  simp [execIcmpEchoRequest, apply_ite State.shape]

@[simp] theorem execEthernetLinkChange_shape (port : Nat) (up : Bool) (rate : Nat) (s : State) : Res.Shaped (execEthernetLinkChange port up rate s) s := by
  simp [execEthernetLinkChange, apply_ite State.shape]

@[simp] theorem State.configPort_shape (s : State) (p : Packet) (c : Ctx) (i : Nat) : (State.configPort s p c i).shape = s.shape := by
  simp [State.configPort, apply_ite State.shape]

@[simp] theorem State.configDomain_shape (s : State) (p : Packet) (c : Ctx) (i : Nat) : (State.configDomain s p c i).shape = s.shape := by
  simp [State.configDomain, apply_ite State.shape]

@[simp] theorem timeConfigBody_ok (p : Packet) (c : Ctx) (s : State) (hs : ShapeOk fz qz s.shape) : ShapeOk fz qz (timeConfigBody p c s).shape := by
  simp [timeConfigBody, apply_ite State.shape, hs]

@[simp] theorem execTimeConfig_ok (p : Packet) (s : State) (hs : ShapeOk fz qz s.shape) : Res.Ok fz qz (execTimeConfig p s) := by
  unfold execTimeConfig; repeat' split
  all_goals simp_all

@[simp] theorem execDatumTimeLatch_shape (s : State) : Res.Shaped (execDatumTimeLatch s) s := by
  simp [execDatumTimeLatch, apply_ite State.shape]

@[simp] theorem execDevTimeLatch_shape (s : State) : Res.Shaped (execDevTimeLatch s) s := by
  simp [execDevTimeLatch, apply_ite State.shape]

/-! ### Chord -/

@[simp] theorem State.modPeer_shape (s : State) (id : Nat) (f : Peer → Peer) : (State.modPeer s id f).shape = s.shape := by
  simp [State.modPeer]

@[simp] theorem State.chordEmit_shape (s : State) (p : Peer) (type : Nat) (role : Option Nat) (epoch seq ref : Nat) (payload : List Word) : (State.chordEmit s p type role epoch seq ref payload).shape = s.shape := by
  simp [State.chordEmit]

@[simp] theorem State.sendMsg_shape (s : State) (p : Peer) (m : ChordMsg) : (State.sendMsg s p m).shape = s.shape := by
  simp [State.sendMsg]

@[simp] theorem State.pumpFuel_shape (id fuel : Nat) (s : State) : (State.pumpFuel id fuel s).shape = s.shape := by
  induction fuel generalizing s with
  | zero => rfl
  | succ fuel ih =>
    rw [State.pumpFuel]
    split
    · rfl
    · split
      · rfl
      · split
        · rfl
        · simp [ih]

@[simp] theorem State.pump_shape (s : State) (id : Nat) : (State.pump s id).shape = s.shape := by simp [State.pump]

@[simp] theorem State.undelivered_shape (s : State) (m : ChordMsg) (status : Nat) : (State.undelivered s m status).shape = s.shape := by
  unfold State.undelivered; dsimp only; repeat' split
  all_goals simp

@[simp] theorem State.post_shape (s : State) (dst : Nat) (m : ChordMsg) : (State.post s dst m).shape = s.shape := by
  simp [State.post, apply_ite State.shape]

@[simp] theorem State.chordRecord_shape (s : State) (type src seq epoch : Nat) (payload : List Word) : (State.chordRecord s type src seq epoch payload).shape = s.shape := by
  unfold State.chordRecord; split <;> simp

@[simp] theorem State.syncGoIn_ok (s : State) (payload : List Word) (hs : ShapeOk fz qz s.shape) : ShapeOk fz qz (State.syncGoIn s payload).shape := by
  unfold State.syncGoIn; repeat' split
  all_goals simp [hs]

@[simp] theorem State.sendGo_ok (s : State) (member : Nat) (payload : List Word) (hs : ShapeOk fz qz s.shape) : ShapeOk fz qz (State.sendGo s member payload).shape := by
  simp [State.sendGo, apply_ite State.shape, hs]

@[simp] theorem State.putGroup_shape (s : State) (g : SyncGroup) : (State.putGroup s g).shape = s.shape := by
  simp [State.putGroup]

@[simp] theorem State.dropGroup_shape (s : State) (group : Nat) : (State.dropGroup s group).shape = s.shape := by
  simp [State.dropGroup]

@[simp] theorem State.syncReadyIn_ok (s : State) (member group : Nat) (failed : Bool) (hs : ShapeOk fz qz s.shape) : ShapeOk fz qz (State.syncReadyIn s member group failed).shape := by
  unfold State.syncReadyIn; repeat' split
  all_goals simp_all (maxDischargeDepth := 9) [apply_ite State.shape, apply_ite Die.shape, apply_ite Lane.id]

@[simp] theorem State.postRole_ok (s : State) (r : Nat) (m : ChordMsg) (hs : ShapeOk fz qz s.shape) : ShapeOk fz qz (State.postRole s r m).shape := by
  simp [State.postRole, apply_ite State.shape, hs]

@[simp] theorem State.takeRole_shape (s : State) (r : Nat) : (State.takeRole s r).2.shape = s.shape := by
  simp [State.takeRole]

@[simp] theorem State.resolveAgain_ok (s : State) (r : Nat) (m : ChordMsg) (hs : ShapeOk fz qz s.shape) : ShapeOk fz qz (State.resolveAgain s r m).shape := by
  simp [State.resolveAgain, apply_ite State.shape, hs]

@[simp] theorem State.adoptRole_ok (s : State) (r epoch holder : Nat) (hs : ShapeOk fz qz s.shape) :
    ShapeOk fz qz (s.adoptRole r epoch holder).shape := by
  unfold State.adoptRole
  split
  · exact hs
  · extract_lets c s1
    have h1 : ShapeOk fz qz (s1.takeRole r).2.shape := by simpa [s1] using hs
    generalize s1.takeRole r = x at h1
    obtain ⟨ms, t⟩ := x
    have h2 : ShapeOk fz qz (ms.foldl (fun s m => s.resolveAgain r m) t).shape := foldl_ok _ (fun _ _ h => by simp [h]) _ _ h1
    dsimp only
    generalize ms.foldl (fun s m => s.resolveAgain r m) t = u at h2
    split
    · split <;> simp [h2]
    · exact h2

@[simp] theorem State.answer_shape (s : State) (src type ref : Nat) (payload : List Word) : (State.answer s src type ref payload).shape = s.shape := by
  unfold State.answer; split <;> simp

theorem State.receive_shape (s : State) (port type : Nat) (ws : List Word) (act : ChordHdr → List Word → State → State)
    (h : ∀ a b s, (act a b s).shape = s.shape) : (s.receive port type ws act).shape = s.shape := by
  unfold State.receive
  dsimp only
  repeat' split
  all_goals simp [h, apply_ite State.shape]

theorem State.receive_ok (s : State) (port type : Nat) (ws : List Word) (act : ChordHdr → List Word → State → State)
    (h : ∀ a b s, ShapeOk fz qz s.shape → ShapeOk fz qz (act a b s).shape) (hs : ShapeOk fz qz s.shape) :
    ShapeOk fz qz (s.receive port type ws act).shape := by
  unfold State.receive
  dsimp only
  repeat' split
  all_goals first
    | simp [hs]; done
    | (refine h _ _ _ ?_; simp [hs]; done)
    | (rw [shapeOk_ite]; split; all_goals first | (simp [hs]; done) | (refine h _ _ _ ?_; simp [hs]))

@[simp] theorem execData_shape (port : Nat) (words : List Word) (s : State) : Res.Shaped (execData port words s) s := by
  unfold execData
  rw [Res.shaped_next]
  refine State.receive_shape _ _ _ _ _ fun a b s => ?_
  try dsimp only
  repeat' split
  all_goals simp

@[simp] theorem State.acked_shape (s : State) (src : Nat) (m : ChordMsg) : (State.acked s src m).shape = s.shape := by
  simp [State.acked, apply_ite State.shape]

@[simp] theorem execAck_shape (port : Nat) (words : List Word) (s : State) : Res.Shaped (execAck port words s) s := by
  unfold execAck
  rw [Res.shaped_next]
  refine State.receive_shape _ _ _ _ _ fun a b s => ?_
  try dsimp only
  repeat' split
  all_goals simp

@[simp] theorem execStaleRole_ok (port : Nat) (words : List Word) (s : State) (hs : ShapeOk fz qz s.shape) :
    Res.Ok fz qz (execStaleRole port words s) := by
  unfold execStaleRole
  rw [Res.ok_next]
  refine State.receive_ok _ _ _ _ _ (fun a b s hs => ?_) hs
  try dsimp only
  repeat' split
  all_goals simp [hs]

@[simp] theorem execRoleAnnounce_ok (port : Nat) (words : List Word) (s : State) (hs : ShapeOk fz qz s.shape) :
    Res.Ok fz qz (execRoleAnnounce port words s) := by
  unfold execRoleAnnounce
  rw [Res.ok_next]
  refine State.receive_ok _ _ _ _ _ (fun a b s hs => ?_) hs
  try dsimp only
  repeat' split
  all_goals simp [hs]

@[simp] theorem execSyncReady_ok (port : Nat) (words : List Word) (s : State) (hs : ShapeOk fz qz s.shape) :
    Res.Ok fz qz (execSyncReady port words s) := by
  unfold execSyncReady
  rw [Res.ok_next]
  refine State.receive_ok _ _ _ _ _ (fun a b s hs => ?_) hs
  try dsimp only
  repeat' split
  all_goals simp [hs]

@[simp] theorem execSyncGo_ok (port : Nat) (words : List Word) (s : State) (hs : ShapeOk fz qz s.shape) :
    Res.Ok fz qz (execSyncGo port words s) := by
  unfold execSyncGo
  rw [Res.ok_next]
  refine State.receive_ok _ _ _ _ _ (fun a b s hs => ?_) hs
  try dsimp only
  repeat' split
  all_goals simp [hs]

@[simp] theorem execLedgerBatch_shape (port : Nat) (words : List Word) (s : State) : Res.Shaped (execLedgerBatch port words s) s := by
  unfold execLedgerBatch
  rw [Res.shaped_next]
  refine State.receive_shape _ _ _ _ _ fun a b s => ?_
  try dsimp only
  repeat' split
  all_goals simp

@[simp] theorem execStitchOffer_shape (port : Nat) (words : List Word) (s : State) : Res.Shaped (execStitchOffer port words s) s := by
  unfold execStitchOffer
  rw [Res.shaped_next]
  refine State.receive_shape _ _ _ _ _ fun a b s => ?_
  try dsimp only
  repeat' split
  all_goals simp

@[simp] theorem State.sendOffers_ok (s : State) (st : Stripe) (hs : ShapeOk fz qz s.shape) : ShapeOk fz qz (State.sendOffers s st).shape := by
  simp [State.sendOffers, apply_ite State.shape, hs]

@[simp] theorem execSyncReadySend_ok (s : State) (hs : ShapeOk fz qz s.shape) : Res.Ok fz qz (execSyncReadySend s) := by
  unfold execSyncReadySend; dsimp only; repeat' split
  all_goals simp [hs]

@[simp] theorem execLedgerBatchSend_ok (s : State) (hs : ShapeOk fz qz s.shape) : Res.Ok fz qz (execLedgerBatchSend s) := by
  unfold execLedgerBatchSend; dsimp only; repeat' split
  all_goals simp [hs]

@[simp] theorem execChordRetransmit_shape (dest : Nat) (s : State) : Res.Shaped (execChordRetransmit dest s) s := by
  unfold execChordRetransmit; repeat' split
  all_goals simp

@[simp] theorem chordSendBody_shape (p : Packet) (c : Ctx) (s : State) : (chordSendBody p c s).shape = s.shape := by
  simp [chordSendBody, apply_ite State.shape]

@[simp] theorem roleSetBody_shape (p : Packet) (c : Ctx) (s : State) : (roleSetBody p c s).shape = s.shape := by
  simp [roleSetBody, apply_ite State.shape]

@[simp] theorem chordConfigBody_shape (env : List Word) (p : Packet) (c : Ctx) (s : State) : (chordConfigBody env p c s).shape = s.shape := by
  unfold chordConfigBody; dsimp only; repeat' split
  all_goals simp

@[simp] theorem execChordSend_shape (p : Packet) (s : State) : Res.Shaped (execChordSend p s) s := by
  simp [execChordSend]

@[simp] theorem execRoleSet_shape (p : Packet) (s : State) : Res.Shaped (execRoleSet p s) s := by simp [execRoleSet]

@[simp] theorem execChordConfig_shape (p : Packet) (env : List Word) (s : State) : Res.Shaped (execChordConfig p env s) s := by
  simp [execChordConfig]

end Sys2Proof.Machine
end

