-- ==== Sys2Proof/Laws/ShapeLanes.lean ====
section
/-! SUPPORT. Each operation keeps the shape of the state, or what the invariant says of it: the interpreter, Perimeter, lanes and heads, updates, register writes and command fetches. -/

namespace Sys2Proof.Machine

variable {fz : Fuses} {qz : List Instr}

/-! ### Interp -/

@[simp] theorem nopBody_shape (x0 : Packet) (c : Ctx) (s : State) : (nopBody x0 c s).shape = s.shape := by
  simp [nopBody]

@[simp] theorem infoBody_shape (x0 : Packet) (c : Ctx) (s : State) : (infoBody x0 c s).shape = s.shape := by
  simp [infoBody]

@[simp] theorem stateBody_shape (x0 : Packet) (c : Ctx) (s : State) : (stateBody x0 c s).shape = s.shape := by
  simp [stateBody]

@[simp] theorem clearBody_shape (x0 : Packet) (c : Ctx) (s : State) : (clearBody x0 c s).shape = s.shape := by
  simp [clearBody, apply_ite State.shape]

@[simp] theorem armBody_shape (x0 : Packet) (c : Ctx) (s : State) : (armBody x0 c s).shape = s.shape := by
  simp [armBody, apply_ite State.shape]

@[simp] theorem disarmBody_shape (x0 : Packet) (c : Ctx) (s : State) : (disarmBody x0 c s).shape = s.shape := by
  simp [disarmBody]

@[simp] theorem cfgPixelPitchBody_shape (p : Packet) (c : Ctx) (s : State) : (cfgPixelPitchBody p c s).shape = s.shape := by
  simp [cfgPixelPitchBody, apply_ite State.shape]

@[simp] theorem cfgDeviceIdBody_shape (p : Packet) (c : Ctx) (s : State) : (cfgDeviceIdBody p c s).shape = s.shape := by
  simp [cfgDeviceIdBody]

@[simp] theorem timeReadBody_shape (x0 : Packet) (c : Ctx) (s : State) : (timeReadBody x0 c s).shape = s.shape := by
  simp [timeReadBody]

@[simp] theorem execNop_shape (p : Packet) (s : State) : Res.Shaped (execNop p s) s := by simp [execNop]

@[simp] theorem execInfo_shape (p : Packet) (s : State) : Res.Shaped (execInfo p s) s := by simp [execInfo]

@[simp] theorem execState_shape (p : Packet) (s : State) : Res.Shaped (execState p s) s := by simp [execState]

@[simp] theorem execClear_shape (p : Packet) (s : State) : Res.Shaped (execClear p s) s := by simp [execClear]

@[simp] theorem execArm_shape (p : Packet) (s : State) : Res.Shaped (execArm p s) s := by simp [execArm]

@[simp] theorem execDisarm_shape (p : Packet) (s : State) : Res.Shaped (execDisarm p s) s := by simp [execDisarm]

@[simp] theorem execCfgPixelPitch_shape (p : Packet) (s : State) : Res.Shaped (execCfgPixelPitch p s) s := by
  simp [execCfgPixelPitch]

@[simp] theorem execCfgDeviceId_shape (p : Packet) (s : State) : Res.Shaped (execCfgDeviceId p s) s := by
  simp [execCfgDeviceId]

@[simp] theorem execTimeRead_shape (p : Packet) (s : State) : Res.Shaped (execTimeRead p s) s := by simp [execTimeRead]

/-! ### Perimeter -/

@[simp] theorem execHeadTripNAsserted_ok (s : State) (hs : ShapeOk fz qz s.shape) : Res.Ok fz qz (execHeadTripNAsserted s) := by
  simp [execHeadTripNAsserted, apply_ite State.shape, hs]

@[simp] theorem execHeadTripNDeasserted_shape (s : State) : Res.Shaped (execHeadTripNDeasserted s) s := by
  simp [execHeadTripNDeasserted]

@[simp] theorem execDarkNAsserted_ok (s : State) (hs : ShapeOk fz qz s.shape) : Res.Ok fz qz (execDarkNAsserted s) := by
  simp [execDarkNAsserted, apply_ite State.shape, hs]

@[simp] theorem execDarkNDeasserted_shape (s : State) : Res.Shaped (execDarkNDeasserted s) s := by
  simp [execDarkNDeasserted]

@[simp] theorem State.report_ok (s : State) (cause die unit : Nat) (d0 d1 : Word) (hs : ShapeOk fz qz s.shape) : ShapeOk fz qz (State.report s cause die unit d0 d1).shape := by
  simp [State.report, apply_ite State.shape, hs]

@[simp] theorem State.reportOpen_ok (s : State) (cause die unit : Nat) (d1 : Word) (hs : ShapeOk fz qz s.shape) : ShapeOk fz qz (State.reportOpen s cause die unit d1).shape := by
  simp [State.reportOpen, hs]

@[simp] theorem execFaultReport_ok (cause die unit : Nat) (detail0 detail1 : Word) (s : State) (hs : ShapeOk fz qz s.shape) : Res.Ok fz qz (execFaultReport cause die unit detail0 detail1 s) := by
  simp [execFaultReport, apply_ite State.shape, hs]

@[simp] theorem execWatchdogTimeout_ok (die : Nat) (s : State) (hs : ShapeOk fz qz s.shape) : Res.Ok fz qz (execWatchdogTimeout die s) := by
  simp [execWatchdogTimeout, hs]

@[simp] theorem execLockstepMismatch_ok (die : Nat) (s : State) (hs : ShapeOk fz qz s.shape) : Res.Ok fz qz (execLockstepMismatch die s) := by
  simp [execLockstepMismatch, hs]

@[simp] theorem execClockMonitorFault_ok (die clock : Nat) (s : State) (hs : ShapeOk fz qz s.shape) : Res.Ok fz qz (execClockMonitorFault die clock s) := by
  simp [execClockMonitorFault, hs]

@[simp] theorem execVoltageMonitorFault_ok (die rail : Nat) (status : List Nat) (s : State) (hs : ShapeOk fz qz s.shape) : Res.Ok fz qz (execVoltageMonitorFault die rail status s) := by
  simp [execVoltageMonitorFault, apply_ite State.shape, hs]

@[simp] theorem execFabricHopFault_ok (die port : Nat) (s : State) (hs : ShapeOk fz qz s.shape) : Res.Ok fz qz (execFabricHopFault die port s) := by
  simp [execFabricHopFault, hs]

@[simp] theorem State.closeRecord_shape (s : State) (r : FaultRecord) (superseded : Bool) : (State.closeRecord s r superseded).shape = s.shape := by
  simp [State.closeRecord]

@[simp] theorem State.pickRecord_shape (rs : List FaultRecord) (s : State) : (State.pickRecord rs s).shape = s.shape := by
  induction rs generalizing s with
  | nil => rfl
  | cons r rs ih =>
    rw [State.pickRecord]
    split
    · simp [ih]
    · rfl

@[simp] theorem State.preempt_shape (s : State) : (State.preempt s).shape = s.shape := by
  unfold State.preempt; repeat' split
  all_goals simp

@[simp] theorem State.act_ok (s : State) (r : FaultRecord) (hs : ShapeOk fz qz s.shape) : ShapeOk fz qz (State.act s r).shape := by
  simp (maxDischargeDepth := 9) [State.act, apply_ite State.shape, hs]

@[simp] theorem State.policyStep_ok (s : State) (hs : ShapeOk fz qz s.shape) : ShapeOk fz qz (State.policyStep s).shape := by
  unfold State.policyStep; repeat' split
  all_goals simp [hs]

@[simp] theorem State.stormEnd_shape (s : State) : (State.stormEnd s).shape = s.shape := by
  simp [State.stormEnd, apply_ite State.shape]

@[simp] theorem execFaultPolicyStep_ok (s : State) (hs : ShapeOk fz qz s.shape) : Res.Ok fz qz (execFaultPolicyStep s) := by
  simp [execFaultPolicyStep, apply_ite State.shape, hs]

@[simp] theorem faultReadBody_shape (p : Packet) (c : Ctx) (s : State) : (faultReadBody p c s).shape = s.shape := by
  simp [faultReadBody, apply_ite State.shape]

@[simp] theorem safeDarkReqBody_ok (x0 : Packet) (c : Ctx) (s : State) (hs : ShapeOk fz qz s.shape) : ShapeOk fz qz (safeDarkReqBody x0 c s).shape := by
  simp [safeDarkReqBody, hs]

@[simp] theorem dieRetireBody_ok (p : Packet) (c : Ctx) (s : State) (hs : ShapeOk fz qz s.shape) : ShapeOk fz qz (dieRetireBody p c s).shape := by
  simp [dieRetireBody, apply_ite State.shape, hs]

@[simp] theorem State.gateTest_ok (s : State) (c : Ctx) (die time : Nat) (hs : ShapeOk fz qz s.shape) : ShapeOk fz qz (State.gateTest s c die time).shape := by
  simp [State.gateTest, apply_ite State.shape, hs]

@[simp] theorem faultInjectBody_ok (env : List Word) (p : Packet) (c : Ctx) (s : State) (hs : ShapeOk fz qz s.shape) : ShapeOk fz qz (faultInjectBody env p c s).shape := by
  unfold faultInjectBody; dsimp only; repeat' split
  all_goals simp (maxDischargeDepth := 9) [apply_ite State.shape, apply_ite Die.shape, apply_ite Lane.id, hs]

@[simp] theorem execFaultRead_shape (p : Packet) (s : State) : Res.Shaped (execFaultRead p s) s := by
  simp [execFaultRead]

@[simp] theorem execSafeDarkReq_ok (p : Packet) (s : State) (hs : ShapeOk fz qz s.shape) : Res.Ok fz qz (execSafeDarkReq p s) := by
  unfold execSafeDarkReq; repeat' split
  all_goals simp_all

@[simp] theorem execDieRetire_ok (p : Packet) (s : State) (hs : ShapeOk fz qz s.shape) : Res.Ok fz qz (execDieRetire p s) := by
  unfold execDieRetire; repeat' split
  all_goals simp_all

@[simp] theorem execFaultInject_ok (p : Packet) (env : List Word) (s : State) (hs : ShapeOk fz qz s.shape) : Res.Ok fz qz (execFaultInject p env s) := by
  unfold execFaultInject; repeat' split
  all_goals simp_all

/-! ### Heads -/

@[simp] theorem State.laneFault_ok (s : State) (cause n : Nat) (hs : ShapeOk fz qz s.shape) : ShapeOk fz qz (State.laneFault s cause n).shape := by
  simp [State.laneFault, apply_ite State.shape, hs]

@[simp] theorem Lane.setErr_id (l : Lane) (i : Nat) : (Lane.setErr l i).id = l.id := by simp [Lane.setErr]

@[simp] theorem State.retireNow_ok (s : State) (n : Nat) (hs : ShapeOk fz qz s.shape) : ShapeOk fz qz (State.retireNow s n).shape := by
  simp [State.retireNow, apply_ite State.shape, hs]

@[simp] theorem State.retrain_ok (s : State) (n : Nat) (hs : ShapeOk fz qz s.shape) : ShapeOk fz qz (State.retrain s n).shape := by
  simp [State.retrain, apply_ite State.shape, hs]

@[simp] theorem State.burst_ok (s : State) (n : Nat) (hs : ShapeOk fz qz s.shape) : ShapeOk fz qz (State.burst s n).shape := by
  simp (maxDischargeDepth := 9) [State.burst, apply_ite State.shape, hs]

@[simp] theorem State.errorEvent_ok (s : State) (n : Nat) (hs : ShapeOk fz qz s.shape) : ShapeOk fz qz (State.errorEvent s n).shape := by
  unfold State.errorEvent; dsimp only; repeat' split
  all_goals simp [hs]

@[simp] theorem State.headEval_ok (s : State) (n : Nat) (hs : ShapeOk fz qz s.shape) : ShapeOk fz qz (State.headEval s n).shape := by
  simp [State.headEval, apply_ite State.shape, hs]

@[simp] theorem State.laneDown_shape (s : State) (n : Nat) (answers : Bool) : (State.laneDown s n answers).shape = s.shape := by
  simp [State.laneDown]

@[simp] theorem State.switchRate_shape (s : State) (n rate step : Nat) : (State.switchRate s n rate step).shape = s.shape := by
  simp [State.switchRate]

@[simp] theorem State.nextRate_shape (s : State) (n : Nat) : (State.nextRate s n).shape = s.shape := by
  unfold State.nextRate; dsimp only; repeat' split
  all_goals simp

@[simp] theorem State.helloDone_shape (s : State) (n : Nat) : (State.helloDone s n).shape = s.shape := by
  unfold State.helloDone; dsimp only; repeat' split
  all_goals simp

@[simp] theorem Lane.beginTrain_id (l : Lane) (target : Nat) : (Lane.beginTrain l target).id = l.id := by
  simp [Lane.beginTrain]

@[simp] theorem State.enterLane_shape (s : State) (n : Nat) : (State.enterLane s n).shape = s.shape := by
  unfold State.enterLane; dsimp only; repeat' split
  all_goals simp

@[simp] theorem State.trainStep_shape (s : State) (n : Nat) : (State.trainStep s n).shape = s.shape := by
  unfold State.trainStep; dsimp only; repeat' split
  all_goals simp

@[simp] theorem State.rateChecked_shape (s : State) (n failed : Nat) (eyeRet : Nat × Nat) : (State.rateChecked s n failed eyeRet).shape = s.shape := by
  unfold State.rateChecked; dsimp only; repeat' split
  all_goals simp

@[simp] theorem State.sendElems_shape (s : State) (ns : List Nat) (type : Nat) (arg : Word) (data : List Byte) : (State.sendElems s ns type arg data).shape = s.shape := by
  simp [State.sendElems]

@[simp] theorem State.dropElems_shape (s : State) (ns types : List Nat) : (State.dropElems s ns types).shape = s.shape := by
  simp [State.dropElems]

@[simp] theorem State.busyFail_shape (s : State) (status : Nat) : (State.busyFail s status).shape = s.shape := by
  unfold State.busyFail; split <;> simp

@[simp] theorem State.activateDone_shape (s : State) (c : Ctx) : (State.activateDone s c).shape = s.shape := by
  simp [State.activateDone]

@[simp] theorem State.busyCheck_shape (s : State) : (State.busyCheck s).shape = s.shape := by
  unfold State.busyCheck; dsimp only; repeat' split
  all_goals simp

@[simp] theorem State.busyDone_shape (s : State) (n : Nat) : (State.busyDone s n).shape = s.shape := by
  unfold State.busyDone; split <;> simp

@[simp] theorem State.headAnswer_shape (s : State) (n : Nat) (accepts last : Bool) : (State.headAnswer s n accepts last).shape = s.shape := by
  simp [State.headAnswer, apply_ite State.shape]

@[simp] theorem State.elemAnswered_shape (s : State) (n : Nat) (e : Elem) (result : Nat) (value : Word) : (State.elemAnswered s n e result value).shape = s.shape := by
  unfold State.elemAnswered; dsimp only; repeat' split
  all_goals simp

@[simp] theorem State.elemFailed_ok (s : State) (n : Nat) (e : Elem) (hs : ShapeOk fz qz s.shape) : ShapeOk fz qz (State.elemFailed s n e).shape := by
  simp [State.elemFailed, apply_ite State.shape, hs]

/-! ### Lanes -/

@[simp] theorem laneTrainBody_shape (p : Packet) (c : Ctx) (s : State) : (laneTrainBody p c s).shape = s.shape := by
  simp [laneTrainBody, apply_ite State.shape]

@[simp] theorem State.lanePowerTo_shape (s : State) (want n : Nat) : (State.lanePowerTo s want n).shape = s.shape := by
  simp [State.lanePowerTo, apply_ite State.shape]

@[simp] theorem lanePowerBody_shape (p : Packet) (c : Ctx) (s : State) : (lanePowerBody p c s).shape = s.shape := by
  simp [lanePowerBody, apply_ite State.shape]

@[simp] theorem laneRetireBody_ok (p : Packet) (c : Ctx) (s : State) (hs : ShapeOk fz qz s.shape) : ShapeOk fz qz (laneRetireBody p c s).shape := by
  simp [laneRetireBody, hs]

@[simp] theorem laneStatusBody_shape (p : Packet) (c : Ctx) (s : State) : (laneStatusBody p c s).shape = s.shape := by
  simp [laneStatusBody]

@[simp] theorem headQueryBody_shape (p : Packet) (c : Ctx) (s : State) : (headQueryBody p c s).shape = s.shape := by
  simp [headQueryBody]

@[simp] theorem pulseTableLoadBody_shape (env : List Word) (p : Packet) (c : Ctx) (s : State) :
    (pulseTableLoadBody env p c s).shape = s.shape := by
  unfold pulseTableLoadBody
  extract_lets len image s1 cd ls s2 _ s3
  have h1 : s1.shape = s.shape := by simp [s1, apply_ite State.shape]
  have h2 : s2.shape = s.shape := (foldl_shape _ (fun _ _ => by simp) _ _).trans h1
  split
  · simp [h1]
  · split
    · simp [h1]
    · split
      · simp [h1]
      · simp [h2]

@[simp] theorem execLaneTrain_shape (p : Packet) (s : State) : Res.Shaped (execLaneTrain p s) s := by
  simp [execLaneTrain]

@[simp] theorem execLanePower_shape (p : Packet) (s : State) : Res.Shaped (execLanePower p s) s := by
  simp [execLanePower]

@[simp] theorem execLaneRetire_ok (p : Packet) (s : State) (hs : ShapeOk fz qz s.shape) : Res.Ok fz qz (execLaneRetire p s) := by
  unfold execLaneRetire; repeat' split
  all_goals simp_all

@[simp] theorem execLaneStatus_shape (p : Packet) (s : State) : Res.Shaped (execLaneStatus p s) s := by
  simp [execLaneStatus]

@[simp] theorem execHeadQuery_shape (p : Packet) (s : State) : Res.Shaped (execHeadQuery p s) s := by
  simp [execHeadQuery]

@[simp] theorem execPulseTableLoad_shape (p : Packet) (env : List Word) (s : State) : Res.Shaped (execPulseTableLoad p env s) s := by
  simp [execPulseTableLoad]

@[simp] theorem State.selectLane_shape (s : State) (v : Word) : (State.selectLane s v).shape = s.shape := by
  simp [State.selectLane]

@[simp] theorem execLaneSelWrite_shape (value : Word) (s : State) : Res.Shaped (execLaneSelWrite value s) s := by
  simp [execLaneSelWrite, apply_ite State.shape]

@[simp] theorem State.windowWrite_shape (s : State) (f : Nat → State → State) (h : ∀ n s, (f n s).shape = s.shape) :
    (s.windowWrite f).shape = s.shape := by
  unfold State.windowWrite
  dsimp only
  repeat' split
  · rfl
  · rfl
  · exact h _ _

@[simp] theorem State.windowWrite_ok (s : State) (f : Nat → State → State) (hs : ShapeOk fz qz s.shape)
    (h : ∀ n s, ShapeOk fz qz s.shape → ShapeOk fz qz (f n s).shape) : ShapeOk fz qz (s.windowWrite f).shape := by
  unfold State.windowWrite
  dsimp only
  repeat' split
  · exact hs
  · exact hs
  · exact h _ _ hs

@[simp] theorem execLaneRetrainRequest_ok (s : State) (hs : ShapeOk fz qz s.shape) : Res.Ok fz qz (execLaneRetrainRequest s) := by
  unfold execLaneRetrainRequest; repeat' split
  all_goals simp_all

@[simp] theorem execLaneErrorInject_shape (s : State) : Res.Shaped (execLaneErrorInject s) s := by
  simp [execLaneErrorInject]

@[simp] theorem execForwardFrameTx_shape (lane : Nat) (control : Bool) (s : State) : Res.Shaped (execForwardFrameTx lane control s) s := by
  simp [execForwardFrameTx, apply_ite State.shape]

@[simp] theorem State.echoIn_ok (s : State) (n : Nat) (good : Bool) (hs : ShapeOk fz qz s.shape) : ShapeOk fz qz (State.echoIn s n good).shape := by
  unfold State.echoIn; repeat' split
  all_goals simp [hs]

@[simp] theorem State.ackIn_shape (s : State) (n v : Nat) : (State.ackIn s n v).shape = s.shape := by simp [State.ackIn]

@[simp] theorem State.reportDark_shape (s : State) (n cause : Nat) (rs : List Rec) : (State.reportDark s n cause rs).shape = s.shape := by
  unfold State.reportDark; dsimp only; repeat' split
  all_goals simp

@[simp] theorem State.firedMask_shape (s : State) (n shot par mask : Nat) : (State.firedMask s n shot par mask).shape = s.shape := by
  simp [State.firedMask]

@[simp] theorem State.firedIn_ok (s : State) (n v : Nat) (hs : ShapeOk fz qz s.shape) : ShapeOk fz qz (State.firedIn s n v).shape := by
  unfold State.firedIn; dsimp only; repeat' split
  all_goals simp [hs]

@[simp] theorem State.tempIn_ok (s : State) (n v : Nat) (hs : ShapeOk fz qz s.shape) : ShapeOk fz qz (State.tempIn s n v).shape := by
  simp [State.tempIn, hs]

@[simp] theorem State.loseBeam_shape (s : State) (b : Nat) : (State.loseBeam s b).shape = s.shape := by
  simp [State.loseBeam]

@[simp] theorem State.beamIn_ok (s : State) (n v : Nat) (hs : ShapeOk fz qz s.shape) : ShapeOk fz qz (State.beamIn s n v).shape := by
  unfold State.beamIn; repeat' split
  all_goals simp_all (maxDischargeDepth := 9) [apply_ite State.shape, apply_ite Die.shape, apply_ite Lane.id]

@[simp] theorem Lane.helloIn_id (l : Lane) (v : Nat) : (Lane.helloIn l v).id = l.id := by simp [Lane.helloIn]

@[simp] theorem State.eyeLow_shape (s : State) (n : Nat) (low : Bool) : (State.eyeLow s n low).shape = s.shape := by
  simp [State.eyeLow, apply_ite State.shape]

@[simp] theorem State.eyeIn_shape (s : State) (n v : Nat) : (State.eyeIn s n v).shape = s.shape := by simp [State.eyeIn]

@[simp] theorem State.returnEye_shape (s : State) (n : Nat) (eye : Option (Nat × Nat)) : (State.returnEye s n eye).shape = s.shape := by
  unfold State.returnEye; split <;> simp

@[simp] theorem State.ffeIn_shape (s : State) (n v : Nat) : (State.ffeIn s n v).shape = s.shape := by
  simp [State.ffeIn, apply_ite State.shape]

@[simp] theorem State.ctrlAckIn_shape (s : State) (n v : Nat) : (State.ctrlAckIn s n v).shape = s.shape := by
  unfold State.ctrlAckIn; split <;> simp

@[simp] theorem State.reportIn_ok (s : State) (n v : Nat) (hs : ShapeOk fz qz s.shape) : ShapeOk fz qz (s.reportIn n v).shape := by
  unfold State.reportIn
  split <;> simp [hs]

@[simp] theorem State.headerIn_ok (s : State) (n h : Nat) (hs : ShapeOk fz qz s.shape) : ShapeOk fz qz (State.headerIn s n h).shape := by
  simp (maxDischargeDepth := 9) [State.headerIn, apply_ite State.shape, hs]

@[simp] theorem State.returnGood_ok (s : State) (n v : Nat) (hs : ShapeOk fz qz s.shape) : ShapeOk fz qz (s.returnGood n v).shape := by
  unfold State.returnGood
  extract_lets h s1 s2 s3 s4
  have h2 : ShapeOk fz qz s2.shape := by
    refine foldl_ok _ (fun s i hs => ?_) _ _ (by simp [s1, hs])
    split
    · exact hs
    · dsimp only
      split <;> simp [hs]
  have h4 : ShapeOk fz qz s4.shape := by
    refine State.reportIn_ok _ _ _ ?_
    simp only [s3]
    rw [foldl_shape _ (fun _ _ => by simp)]
    exact h2
  split
  · exact h4
  · simp [h4]

@[simp] theorem State.lockLost_ok (s : State) (n : Nat) (hs : ShapeOk fz qz s.shape) : ShapeOk fz qz (State.lockLost s n).shape := by
  simp [State.lockLost, hs]

@[simp] theorem execReturnFrameRx_ok (lane : Nat) (bits_ : List Bool) (eye : Option (Nat × Nat)) (s : State) (hs : ShapeOk fz qz s.shape) : Res.Ok fz qz (execReturnFrameRx lane bits_ eye s) := by
  simp (maxDischargeDepth := 9) [execReturnFrameRx, apply_ite State.shape, hs]

@[simp] theorem execReturnFrameMissing_ok (lane : Nat) (s : State) (hs : ShapeOk fz qz s.shape) : Res.Ok fz qz (execReturnFrameMissing lane s) := by
  simp [execReturnFrameMissing, apply_ite State.shape, hs]

@[simp] theorem execEchoTimeout_ok (lane : Nat) (s : State) (hs : ShapeOk fz qz s.shape) : Res.Ok fz qz (execEchoTimeout lane s) := by
  simp [execEchoTimeout, apply_ite State.shape, hs]

@[simp] theorem execFiredReportMissing_ok (lane : Nat) (shot : Nat) (s : State) (hs : ShapeOk fz qz s.shape) : Res.Ok fz qz (execFiredReportMissing lane shot s) := by
  unfold execFiredReportMissing; dsimp only; repeat' split
  all_goals simp (maxDischargeDepth := 9) [apply_ite State.shape, apply_ite Die.shape, apply_ite Lane.id, hs]

@[simp] theorem execControlElementResend_ok (lane : Nat) (s : State) (hs : ShapeOk fz qz s.shape) : Res.Ok fz qz (execControlElementResend lane s) := by
  unfold execControlElementResend; repeat' split
  all_goals simp [hs]

@[simp] theorem execTempReportTimeout_ok (lane : Nat) (s : State) (hs : ShapeOk fz qz s.shape) : Res.Ok fz qz (execTempReportTimeout lane s) := by
  simp [execTempReportTimeout, apply_ite State.shape, hs]

@[simp] theorem execLaneTrainStepDone_ok (lane : Nat) (s : State) (hs : ShapeOk fz qz s.shape) : Res.Ok fz qz (execLaneTrainStepDone lane s) := by
  simp [execLaneTrainStepDone, apply_ite State.shape, hs]

@[simp] theorem execRateCheckDone_ok (lane : Nat) (failed : Nat) (eyeRet : Nat × Nat) (s : State) (hs : ShapeOk fz qz s.shape) : Res.Ok fz qz (execRateCheckDone lane failed eyeRet s) := by
  simp [execRateCheckDone, apply_ite State.shape, hs]

@[simp] theorem execLaneTrainTimeout_ok (lane : Nat) (s : State) (hs : ShapeOk fz qz s.shape) : Res.Ok fz qz (execLaneTrainTimeout lane s) := by
  simp [execLaneTrainTimeout, apply_ite State.shape, hs]

@[simp] theorem State.passStartAgain_shape (s : State) (n : Nat) : (State.passStartAgain s n).shape = s.shape := by
  unfold State.passStartAgain; dsimp only; repeat' split
  all_goals simp

@[simp] theorem execRetrainComplete_ok (lane : Nat) (s : State) (hs : ShapeOk fz qz s.shape) : Res.Ok fz qz (execRetrainComplete lane s) := by
  simp [execRetrainComplete, apply_ite State.shape, hs]

@[simp] theorem execRetrainBoundExpiry_ok (lane : Nat) (s : State) (hs : ShapeOk fz qz s.shape) : Res.Ok fz qz (execRetrainBoundExpiry lane s) := by
  simp [execRetrainBoundExpiry, apply_ite State.shape, hs]

@[simp] theorem execLaneDrainEnd_shape (lane : Nat) (s : State) : Res.Shaped (execLaneDrainEnd lane s) s := by
  simp [execLaneDrainEnd, apply_ite State.shape]

/-! ### Update -/

@[simp] theorem updateStageBody_shape (p : Packet) (c : Ctx) (s : State) : (updateStageBody p c s).shape = s.shape := by
  simp [updateStageBody, apply_ite State.shape]

@[simp] theorem execUpdateStageComplete_shape (flashFail : Option Nat) (image : BankImage) (s : State) : Res.Shaped (execUpdateStageComplete flashFail image s) s := by
  unfold execUpdateStageComplete; dsimp only; repeat' split
  all_goals simp

@[simp] theorem State.sendFirmware_shape (s : State) (ns : List Nat) (image : List Byte) (version : Word) : (State.sendFirmware s ns image version).shape = s.shape := by
  simp [State.sendFirmware]

@[simp] theorem updateActivateBody_shape (x0 : Packet) (c : Ctx) (s : State) : (updateActivateBody x0 c s).shape = s.shape := by
  unfold updateActivateBody; dsimp only; repeat' split
  all_goals simp

@[simp] theorem updateConfirmBody_shape (x0 : Packet) (c : Ctx) (s : State) : (updateConfirmBody x0 c s).shape = s.shape := by
  unfold updateConfirmBody
  extract_lets sec s1 sf s2 ls
  have h1 : s1.shape = s.shape := by simp [s1]
  have h2 : s2.shape = s1.shape := rfl
  split
  · simp
  · simp [h2, h1]

@[simp] theorem updateFallbackBody_ok (x0 : Packet) (c : Ctx) (s : State) (hs : ShapeOk fz qz s.shape) : ShapeOk fz qz (updateFallbackBody x0 c s).shape := by
  simp [updateFallbackBody, apply_ite State.shape, hs]

@[simp] theorem execUpdateStage_shape (p : Packet) (s : State) : Res.Shaped (execUpdateStage p s) s := by
  simp [execUpdateStage]

@[simp] theorem execUpdateActivate_shape (p : Packet) (s : State) : Res.Shaped (execUpdateActivate p s) s := by
  simp [execUpdateActivate]

@[simp] theorem execUpdateConfirm_shape (p : Packet) (s : State) : Res.Shaped (execUpdateConfirm p s) s := by
  simp [execUpdateConfirm]

@[simp] theorem execUpdateFallback_ok (p : Packet) (s : State) (hs : ShapeOk fz qz s.shape) : Res.Ok fz qz (execUpdateFallback p s) := by
  unfold execUpdateFallback; repeat' split
  all_goals simp_all

/-! ### Registers -/

theorem Res.Shaped.orElse {r : Res} {s : State} (h : Res.Shaped r s) (u : State) : (r.orElse u).shape = s.shape := by
  obtain ⟨t, rfl, ht⟩ := h; exact ht

theorem Res.Ok.orElse {r : Res} (h : Res.Ok fz qz r) (u : State) : ShapeOk fz qz (r.orElse u).shape := by
  obtain ⟨t, rfl, ht⟩ := h; exact ht

@[simp] theorem Res.orElse_shape (r : Res) (s : State) (h : Res.Shaped r s) : (r.orElse s).shape = s.shape := h.orElse s

@[simp] theorem Res.orElse_ok (r : Res) (s : State) (h : Res.Ok fz qz r) : ShapeOk fz qz (r.orElse s).shape := h.orElse s

@[simp] theorem State.locked_shape (s : State) (f : State → State) (h : ∀ s, (f s).shape = s.shape) :
    (s.locked f).shape = s.shape := by
  unfold State.locked
  repeat' split
  all_goals simp [h]

@[simp] theorem State.locked_ok (s : State) (f : State → State) (hs : ShapeOk fz qz s.shape)
    (h : ∀ s, ShapeOk fz qz s.shape → ShapeOk fz qz (f s).shape) : ShapeOk fz qz (s.locked f).shape := by
  unfold State.locked
  repeat' split
  all_goals simp [h, hs]

@[simp] theorem State.writeRingCtrl_shape (s : State) (v : Nat) : (State.writeRingCtrl s v).shape = s.shape := by
  unfold State.writeRingCtrl; repeat' split
  all_goals simp

@[simp] theorem State.ringCfg_shape (s : State) (enabled : Bool) (f : State → State) (h : ∀ s, (f s).shape = s.shape) :
    (s.ringCfg enabled f).shape = s.shape := by
  unfold State.ringCfg
  repeat' split
  all_goals simp [h]

@[simp] theorem State.ringCfg_ok (s : State) (enabled : Bool) (f : State → State) (hs : ShapeOk fz qz s.shape)
    (h : ∀ s, ShapeOk fz qz s.shape → ShapeOk fz qz (f s).shape) : ShapeOk fz qz (s.ringCfg enabled f).shape := by
  unfold State.ringCfg
  repeat' split
  all_goals simp [h, hs]

@[simp] theorem State.writeHif_shape (s : State) (a : Nat) (w : Word) : (State.writeHif s a w).shape = s.shape := by
  unfold State.writeHif; split <;> simp

@[simp] theorem State.writeLane_ok (s : State) (a : Nat) (w : Word) (hs : ShapeOk fz qz s.shape) : ShapeOk fz qz (s.writeLane a w).shape := by
  unfold State.writeLane
  extract_lets v
  split
  · refine State.windowWrite_ok _ _ hs fun n s h => ?_
    extract_lets l cfg prbs differs s1 s2
    have h1 : ShapeOk fz qz s1.shape := by
      simp only [s1]
      split
      · exact State.modLane_ok _ _ _ h fun _ => rfl
      · split <;> simp [h]
    have h2 : ShapeOk fz qz s2.shape := by
      simp only [s2]
      split <;> simp [h1]
    split <;> simp [h2]
  · exact State.windowWrite_ok _ _ hs fun n s h => by simp [h]
  · refine State.windowWrite_ok _ _ hs fun n s h => State.locked_ok _ _ h fun s h => ?_
    extract_lets warn trip
    split
    · exact h
    · exact State.headEval_ok _ _ (State.modLane_ok _ _ _ h fun _ => rfl)
  · exact State.windowWrite_ok _ _ hs fun n s h => h

@[simp] theorem State.writeGlobal_shape (s : State) (a : Nat) (w : Word) : (State.writeGlobal s a w).shape = s.shape := by
  unfold State.writeGlobal; repeat' split
  all_goals simp

@[simp] theorem State.dmaOwner_shape (s : State) (fw : Bool) (i : Nat) (f : State → State) (h : ∀ s, (f s).shape = s.shape) :
    (s.dmaOwner fw i f).shape = s.shape := by
  unfold State.dmaOwner
  repeat' split
  all_goals simp [h]

@[simp] theorem State.dmaOwner_ok (s : State) (fw : Bool) (i : Nat) (f : State → State) (hs : ShapeOk fz qz s.shape)
    (h : ∀ s, ShapeOk fz qz s.shape → ShapeOk fz qz (f s).shape) : ShapeOk fz qz (s.dmaOwner fw i f).shape := by
  unfold State.dmaOwner
  repeat' split
  all_goals simp [h, hs]

@[simp] theorem State.writeDmaCtrl_ok (s : State) (fw : Bool) (i v : Nat) (hs : ShapeOk fz qz s.shape) : ShapeOk fz qz (State.writeDmaCtrl s fw i v).shape := by
  unfold State.writeDmaCtrl; repeat' split
  all_goals simp_all (maxDischargeDepth := 9) [apply_ite State.shape, apply_ite Die.shape, apply_ite Lane.id]

@[simp] theorem State.writeMove_ok (s : State) (d k o v : Nat) (hs : ShapeOk fz qz s.shape) : ShapeOk fz qz (State.writeMove s d k o v).shape := by
  simp [State.writeMove, apply_ite State.shape, hs]

@[simp] theorem State.writeDmaBlock_ok (s : State) (fw : Bool) (d a v : Nat) (hs : ShapeOk fz qz s.shape) : ShapeOk fz qz (State.writeDmaBlock s fw d a v).shape := by
  simp [State.writeDmaBlock, apply_ite State.shape, hs]

@[simp] theorem State.writeCrc_shape (s : State) (d u o : Nat) (w : Word) : (State.writeCrc s d u o w).shape = s.shape := by
  unfold State.writeCrc; repeat' split
  all_goals simp

@[simp] theorem State.writeComp_ok (s : State) (d a : Nat) (w : Word) (hs : ShapeOk fz qz s.shape) : ShapeOk fz qz (State.writeComp s d a w).shape := by
  unfold State.writeComp; dsimp only; repeat' split
  all_goals simp (maxDischargeDepth := 9) [apply_ite State.shape, apply_ite Die.shape, apply_ite Lane.id, hs]

@[simp] theorem State.writeLocus_ok (s : State) (a : Nat) (w : Word) (hs : ShapeOk fz qz s.shape) : ShapeOk fz qz (State.writeLocus s a w).shape := by
  unfold State.writeLocus; repeat' split
  all_goals simp_all (maxDischargeDepth := 9) [apply_ite State.shape, apply_ite Die.shape, apply_ite Lane.id]

@[simp] theorem State.writeArc_shape (s : State) (a v : Nat) : (State.writeArc s a v).shape = s.shape := by
  simp [State.writeArc, apply_ite State.shape]

@[simp] theorem State.writeDie_ok (s : State) (fw : Bool) (d off : Nat) (w : Word) (hs : ShapeOk fz qz s.shape) :
    ShapeOk fz qz (s.writeDie fw d off w).shape := by
  unfold State.writeDie
  dsimp only
  split
  · simp [hs]
  · split
    · exact hs
    · split
      · exact State.locked_ok _ _ hs fun s h => s.modDie_ok _ _ h fun i x h => h
      · split
        · exact s.modDie_ok _ _ hs fun i x h => h
        · exact hs
  · split
    · exact State.locked_ok _ _ hs fun s h => s.modDie_ok _ _ h fun i x h => h
    · exact hs
  · split <;> simp [hs]
  · split <;> simp [hs]
  · split <;> simp [hs]
  · repeat' split
    all_goals exact hs
  · split
    · exact s.modDie_ok _ _ hs fun i x h => h
    · split
      · exact State.locked_ok _ _ hs fun s h => s.modDie_ok _ _ h fun i x h => h
      · exact hs
  · exact hs

@[simp] theorem State.writeEndpoint_shape (s : State) (a : Nat) (w : Word) : (State.writeEndpoint s a w).shape = s.shape := by
  simp [State.writeEndpoint, apply_ite State.shape]

@[simp] theorem State.writeReg_ok (s : State) (fw : Bool) (a : Nat) (w : Word) (hs : ShapeOk fz qz s.shape) : ShapeOk fz qz (State.writeReg s fw a w).shape := by
  simp [State.writeReg, apply_ite State.shape, hs]

@[simp] theorem execRegisterWrite_ok (addr width : Nat) (value : Word) (firmware : Bool) (s : State) (hs : ShapeOk fz qz s.shape) : Res.Ok fz qz (execRegisterWrite addr width value firmware s) := by
  simp [execRegisterWrite, apply_ite State.shape, hs]

@[simp] theorem execIrregularBar0Read_shape (addr width dwords : Nat) (s : State) : Res.Shaped (execIrregularBar0Read addr width dwords s) s := by
  simp [execIrregularBar0Read, apply_ite State.shape]

@[simp] theorem execCounterLoRead_shape (die offset : Nat) (s : State) : Res.Shaped (execCounterLoRead die offset s) s := by
  simp [execCounterLoRead, apply_ite State.shape]

/-! ### Fetch -/

@[simp] theorem runOpcode_ok (env : List Word) (p : Packet) (c : Ctx) (s : State) (hs : ShapeOk fz qz s.shape) :
    ShapeOk fz qz (runOpcode env p c s).shape := by
  unfold runOpcode
  split <;> simp [hs]

@[simp] theorem State.run_ok (s : State) (p : Packet) (env : List Word) (held : Option Nat) (hs : ShapeOk fz qz s.shape) :
    ShapeOk fz qz (s.run p env held).shape := by
  unfold State.run State.checked
  dsimp only
  split <;> simp [hs]

@[simp] theorem State.fetchError_ok (s : State) (urgent : Bool) (hs : ShapeOk fz qz s.shape) : ShapeOk fz qz (State.fetchError s urgent).shape := by
  simp [State.fetchError, apply_ite State.shape, hs]

@[simp] theorem State.startFenced_ok (s : State) (p : Packet) (env : List Word) (gen : Nat) (hs : ShapeOk fz qz s.shape) : ShapeOk fz qz (State.startFenced s p env gen).shape := by
  simp [State.startFenced, apply_ite State.shape, hs]

@[simp] theorem State.fetched_ok (s : State) (ws env : List Word) (hs : ShapeOk fz qz s.shape) : ShapeOk fz qz (State.fetched s ws env).shape := by
  simp [State.fetched, hs]

@[simp] theorem execNormalCommandFetch_ok (slot : SlotRead) (s : State) (hs : ShapeOk fz qz s.shape) : Res.Ok fz qz (execNormalCommandFetch slot s) := by
  unfold execNormalCommandFetch; dsimp only; repeat' split
  all_goals simp [hs]

@[simp] theorem execUrgentCommandFetch_ok (slot : SlotRead) (s : State) (hs : ShapeOk fz qz s.shape) : Res.Ok fz qz (execUrgentCommandFetch slot s) := by
  unfold execUrgentCommandFetch; dsimp only; repeat' split
  all_goals simp [hs]

end Sys2Proof.Machine
end

