-- ==== Sys2Proof/Laws/State.lean ====
section
/-! SUPPORT. The fields that the named updates of Machine/Ops.lean leave alone, and what they write: one lemma per field and
update. -/

namespace Sys2Proof.Machine

/-! ### State.emit -/

@[simp] theorem State.emit_fuses (s : State) (e : Emission) : (s.emit e).fuses = s.fuses := rfl
@[simp] theorem State.emit_ctl (s : State) (e : Emission) : (s.emit e).ctl = s.ctl := rfl
@[simp] theorem State.emit_pcie (s : State) (e : Emission) : (s.emit e).pcie = s.pcie := rfl
@[simp] theorem State.emit_hif (s : State) (e : Emission) : (s.emit e).hif = s.hif := rfl
@[simp] theorem State.emit_perim (s : State) (e : Emission) : (s.emit e).perim = s.perim := rfl
@[simp] theorem State.emit_tables (s : State) (e : Emission) : (s.emit e).tables = s.tables := rfl
@[simp] theorem State.emit_libs (s : State) (e : Emission) : (s.emit e).libs = s.libs := rfl
@[simp] theorem State.emit_areas (s : State) (e : Emission) : (s.emit e).areas = s.areas := rfl
@[simp] theorem State.emit_seq (s : State) (e : Emission) : (s.emit e).seq = s.seq := rfl
@[simp] theorem State.emit_dies (s : State) (e : Emission) : (s.emit e).dies = s.dies := rfl
@[simp] theorem State.emit_dmaD (s : State) (e : Emission) : (s.emit e).dmaD = s.dmaD := rfl
@[simp] theorem State.emit_dmaT (s : State) (e : Emission) : (s.emit e).dmaT = s.dmaT := rfl
@[simp] theorem State.emit_therm (s : State) (e : Emission) : (s.emit e).therm = s.therm := rfl
@[simp] theorem State.emit_locus (s : State) (e : Emission) : (s.emit e).locus = s.locus := rfl
@[simp] theorem State.emit_arc (s : State) (e : Emission) : (s.emit e).arc = s.arc := rfl
@[simp] theorem State.emit_datum (s : State) (e : Emission) : (s.emit e).datum = s.datum := rfl
@[simp] theorem State.emit_chord (s : State) (e : Emission) : (s.emit e).chord = s.chord := rfl
@[simp] theorem State.emit_flash (s : State) (e : Emission) : (s.emit e).flash = s.flash := rfl
@[simp] theorem State.emit_calRuns (s : State) (e : Emission) : (s.emit e).calRuns = s.calRuns := rfl
@[simp] theorem State.emit_perf (s : State) (e : Emission) : (s.emit e).perf = s.perf := rfl
@[simp] theorem State.emit_free (s : State) (e : Emission) : (s.emit e).free = s.free := rfl
@[simp] theorem State.emit_pending (s : State) (e : Emission) : (s.emit e).pending = s.pending := rfl
@[simp] theorem State.emit_out (s : State) (e : Emission) : (s.emit e).out = s.out ++ [e] := rfl

/-! ### State.emits -/

@[simp] theorem State.emits_fuses (s : State) (es : List Emission) : (s.emits es).fuses = s.fuses := rfl
@[simp] theorem State.emits_ctl (s : State) (es : List Emission) : (s.emits es).ctl = s.ctl := rfl
@[simp] theorem State.emits_pcie (s : State) (es : List Emission) : (s.emits es).pcie = s.pcie := rfl
@[simp] theorem State.emits_hif (s : State) (es : List Emission) : (s.emits es).hif = s.hif := rfl
@[simp] theorem State.emits_perim (s : State) (es : List Emission) : (s.emits es).perim = s.perim := rfl
@[simp] theorem State.emits_tables (s : State) (es : List Emission) : (s.emits es).tables = s.tables := rfl
@[simp] theorem State.emits_libs (s : State) (es : List Emission) : (s.emits es).libs = s.libs := rfl
@[simp] theorem State.emits_areas (s : State) (es : List Emission) : (s.emits es).areas = s.areas := rfl
@[simp] theorem State.emits_seq (s : State) (es : List Emission) : (s.emits es).seq = s.seq := rfl
@[simp] theorem State.emits_dies (s : State) (es : List Emission) : (s.emits es).dies = s.dies := rfl
@[simp] theorem State.emits_dmaD (s : State) (es : List Emission) : (s.emits es).dmaD = s.dmaD := rfl
@[simp] theorem State.emits_dmaT (s : State) (es : List Emission) : (s.emits es).dmaT = s.dmaT := rfl
@[simp] theorem State.emits_therm (s : State) (es : List Emission) : (s.emits es).therm = s.therm := rfl
@[simp] theorem State.emits_locus (s : State) (es : List Emission) : (s.emits es).locus = s.locus := rfl
@[simp] theorem State.emits_arc (s : State) (es : List Emission) : (s.emits es).arc = s.arc := rfl
@[simp] theorem State.emits_datum (s : State) (es : List Emission) : (s.emits es).datum = s.datum := rfl
@[simp] theorem State.emits_chord (s : State) (es : List Emission) : (s.emits es).chord = s.chord := rfl
@[simp] theorem State.emits_flash (s : State) (es : List Emission) : (s.emits es).flash = s.flash := rfl
@[simp] theorem State.emits_calRuns (s : State) (es : List Emission) : (s.emits es).calRuns = s.calRuns := rfl
@[simp] theorem State.emits_perf (s : State) (es : List Emission) : (s.emits es).perf = s.perf := rfl
@[simp] theorem State.emits_free (s : State) (es : List Emission) : (s.emits es).free = s.free := rfl
@[simp] theorem State.emits_pending (s : State) (es : List Emission) : (s.emits es).pending = s.pending := rfl
@[simp] theorem State.emits_out (s : State) (es : List Emission) : (s.emits es).out = s.out ++ es := rfl

/-! ### State.irqSeen -/

@[simp] theorem State.irqSeen_fuses (s : State) (v : Nat) : (s.irqSeen v).fuses = s.fuses := rfl
@[simp] theorem State.irqSeen_pcie (s : State) (v : Nat) : (s.irqSeen v).pcie = s.pcie := rfl
@[simp] theorem State.irqSeen_hif (s : State) (v : Nat) : (s.irqSeen v).hif = s.hif := rfl
@[simp] theorem State.irqSeen_perim (s : State) (v : Nat) : (s.irqSeen v).perim = s.perim := rfl
@[simp] theorem State.irqSeen_tables (s : State) (v : Nat) : (s.irqSeen v).tables = s.tables := rfl
@[simp] theorem State.irqSeen_libs (s : State) (v : Nat) : (s.irqSeen v).libs = s.libs := rfl
@[simp] theorem State.irqSeen_areas (s : State) (v : Nat) : (s.irqSeen v).areas = s.areas := rfl
@[simp] theorem State.irqSeen_seq (s : State) (v : Nat) : (s.irqSeen v).seq = s.seq := rfl
@[simp] theorem State.irqSeen_dies (s : State) (v : Nat) : (s.irqSeen v).dies = s.dies := rfl
@[simp] theorem State.irqSeen_dmaD (s : State) (v : Nat) : (s.irqSeen v).dmaD = s.dmaD := rfl
@[simp] theorem State.irqSeen_dmaT (s : State) (v : Nat) : (s.irqSeen v).dmaT = s.dmaT := rfl
@[simp] theorem State.irqSeen_therm (s : State) (v : Nat) : (s.irqSeen v).therm = s.therm := rfl
@[simp] theorem State.irqSeen_locus (s : State) (v : Nat) : (s.irqSeen v).locus = s.locus := rfl
@[simp] theorem State.irqSeen_arc (s : State) (v : Nat) : (s.irqSeen v).arc = s.arc := rfl
@[simp] theorem State.irqSeen_datum (s : State) (v : Nat) : (s.irqSeen v).datum = s.datum := rfl
@[simp] theorem State.irqSeen_chord (s : State) (v : Nat) : (s.irqSeen v).chord = s.chord := rfl
@[simp] theorem State.irqSeen_flash (s : State) (v : Nat) : (s.irqSeen v).flash = s.flash := rfl
@[simp] theorem State.irqSeen_calRuns (s : State) (v : Nat) : (s.irqSeen v).calRuns = s.calRuns := rfl
@[simp] theorem State.irqSeen_perf (s : State) (v : Nat) : (s.irqSeen v).perf = s.perf := rfl
@[simp] theorem State.irqSeen_free (s : State) (v : Nat) : (s.irqSeen v).free = s.free := rfl
@[simp] theorem State.irqSeen_out (s : State) (v : Nat) : (s.irqSeen v).out = s.out := rfl
@[simp] theorem State.irqSeen_pending (s : State) (v : Nat) : (s.irqSeen v).pending = s.pending := rfl

/-! ### State.devErr -/

@[simp] theorem State.devErr_fuses (s : State) (i : Nat) : (s.devErr i).fuses = s.fuses := rfl
@[simp] theorem State.devErr_pcie (s : State) (i : Nat) : (s.devErr i).pcie = s.pcie := rfl
@[simp] theorem State.devErr_hif (s : State) (i : Nat) : (s.devErr i).hif = s.hif := rfl
@[simp] theorem State.devErr_perim (s : State) (i : Nat) : (s.devErr i).perim = s.perim := rfl
@[simp] theorem State.devErr_tables (s : State) (i : Nat) : (s.devErr i).tables = s.tables := rfl
@[simp] theorem State.devErr_libs (s : State) (i : Nat) : (s.devErr i).libs = s.libs := rfl
@[simp] theorem State.devErr_areas (s : State) (i : Nat) : (s.devErr i).areas = s.areas := rfl
@[simp] theorem State.devErr_seq (s : State) (i : Nat) : (s.devErr i).seq = s.seq := rfl
@[simp] theorem State.devErr_dies (s : State) (i : Nat) : (s.devErr i).dies = s.dies := rfl
@[simp] theorem State.devErr_dmaD (s : State) (i : Nat) : (s.devErr i).dmaD = s.dmaD := rfl
@[simp] theorem State.devErr_dmaT (s : State) (i : Nat) : (s.devErr i).dmaT = s.dmaT := rfl
@[simp] theorem State.devErr_therm (s : State) (i : Nat) : (s.devErr i).therm = s.therm := rfl
@[simp] theorem State.devErr_locus (s : State) (i : Nat) : (s.devErr i).locus = s.locus := rfl
@[simp] theorem State.devErr_arc (s : State) (i : Nat) : (s.devErr i).arc = s.arc := rfl
@[simp] theorem State.devErr_datum (s : State) (i : Nat) : (s.devErr i).datum = s.datum := rfl
@[simp] theorem State.devErr_chord (s : State) (i : Nat) : (s.devErr i).chord = s.chord := rfl
@[simp] theorem State.devErr_flash (s : State) (i : Nat) : (s.devErr i).flash = s.flash := rfl
@[simp] theorem State.devErr_calRuns (s : State) (i : Nat) : (s.devErr i).calRuns = s.calRuns := rfl
@[simp] theorem State.devErr_perf (s : State) (i : Nat) : (s.devErr i).perf = s.perf := rfl
@[simp] theorem State.devErr_free (s : State) (i : Nat) : (s.devErr i).free = s.free := rfl
@[simp] theorem State.devErr_out (s : State) (i : Nat) : (s.devErr i).out = s.out := rfl
@[simp] theorem State.devErr_pending (s : State) (i : Nat) : (s.devErr i).pending = s.pending := rfl

/-! ### State.hifErr -/

@[simp] theorem State.hifErr_fuses (s : State) (i : Nat) : (s.hifErr i).fuses = s.fuses := rfl
@[simp] theorem State.hifErr_ctl (s : State) (i : Nat) : (s.hifErr i).ctl = s.ctl := rfl
@[simp] theorem State.hifErr_pcie (s : State) (i : Nat) : (s.hifErr i).pcie = s.pcie := rfl
@[simp] theorem State.hifErr_perim (s : State) (i : Nat) : (s.hifErr i).perim = s.perim := rfl
@[simp] theorem State.hifErr_tables (s : State) (i : Nat) : (s.hifErr i).tables = s.tables := rfl
@[simp] theorem State.hifErr_libs (s : State) (i : Nat) : (s.hifErr i).libs = s.libs := rfl
@[simp] theorem State.hifErr_areas (s : State) (i : Nat) : (s.hifErr i).areas = s.areas := rfl
@[simp] theorem State.hifErr_seq (s : State) (i : Nat) : (s.hifErr i).seq = s.seq := rfl
@[simp] theorem State.hifErr_dies (s : State) (i : Nat) : (s.hifErr i).dies = s.dies := rfl
@[simp] theorem State.hifErr_dmaD (s : State) (i : Nat) : (s.hifErr i).dmaD = s.dmaD := rfl
@[simp] theorem State.hifErr_dmaT (s : State) (i : Nat) : (s.hifErr i).dmaT = s.dmaT := rfl
@[simp] theorem State.hifErr_therm (s : State) (i : Nat) : (s.hifErr i).therm = s.therm := rfl
@[simp] theorem State.hifErr_locus (s : State) (i : Nat) : (s.hifErr i).locus = s.locus := rfl
@[simp] theorem State.hifErr_arc (s : State) (i : Nat) : (s.hifErr i).arc = s.arc := rfl
@[simp] theorem State.hifErr_datum (s : State) (i : Nat) : (s.hifErr i).datum = s.datum := rfl
@[simp] theorem State.hifErr_chord (s : State) (i : Nat) : (s.hifErr i).chord = s.chord := rfl
@[simp] theorem State.hifErr_flash (s : State) (i : Nat) : (s.hifErr i).flash = s.flash := rfl
@[simp] theorem State.hifErr_calRuns (s : State) (i : Nat) : (s.hifErr i).calRuns = s.calRuns := rfl
@[simp] theorem State.hifErr_perf (s : State) (i : Nat) : (s.hifErr i).perf = s.perf := rfl
@[simp] theorem State.hifErr_free (s : State) (i : Nat) : (s.hifErr i).free = s.free := rfl
@[simp] theorem State.hifErr_out (s : State) (i : Nat) : (s.hifErr i).out = s.out := rfl
@[simp] theorem State.hifErr_pending (s : State) (i : Nat) : (s.hifErr i).pending = s.pending := rfl

/-! ### State.modDie -/

@[simp] theorem State.modDie_fuses (s : State) (d : Nat) (f : Die → Die) : (s.modDie d f).fuses = s.fuses := rfl
@[simp] theorem State.modDie_ctl (s : State) (d : Nat) (f : Die → Die) : (s.modDie d f).ctl = s.ctl := rfl
@[simp] theorem State.modDie_pcie (s : State) (d : Nat) (f : Die → Die) : (s.modDie d f).pcie = s.pcie := rfl
@[simp] theorem State.modDie_hif (s : State) (d : Nat) (f : Die → Die) : (s.modDie d f).hif = s.hif := rfl
@[simp] theorem State.modDie_perim (s : State) (d : Nat) (f : Die → Die) : (s.modDie d f).perim = s.perim := rfl
@[simp] theorem State.modDie_tables (s : State) (d : Nat) (f : Die → Die) : (s.modDie d f).tables = s.tables := rfl
@[simp] theorem State.modDie_libs (s : State) (d : Nat) (f : Die → Die) : (s.modDie d f).libs = s.libs := rfl
@[simp] theorem State.modDie_areas (s : State) (d : Nat) (f : Die → Die) : (s.modDie d f).areas = s.areas := rfl
@[simp] theorem State.modDie_seq (s : State) (d : Nat) (f : Die → Die) : (s.modDie d f).seq = s.seq := rfl
@[simp] theorem State.modDie_dmaD (s : State) (d : Nat) (f : Die → Die) : (s.modDie d f).dmaD = s.dmaD := rfl
@[simp] theorem State.modDie_dmaT (s : State) (d : Nat) (f : Die → Die) : (s.modDie d f).dmaT = s.dmaT := rfl
@[simp] theorem State.modDie_therm (s : State) (d : Nat) (f : Die → Die) : (s.modDie d f).therm = s.therm := rfl
@[simp] theorem State.modDie_locus (s : State) (d : Nat) (f : Die → Die) : (s.modDie d f).locus = s.locus := rfl
@[simp] theorem State.modDie_arc (s : State) (d : Nat) (f : Die → Die) : (s.modDie d f).arc = s.arc := rfl
@[simp] theorem State.modDie_datum (s : State) (d : Nat) (f : Die → Die) : (s.modDie d f).datum = s.datum := rfl
@[simp] theorem State.modDie_chord (s : State) (d : Nat) (f : Die → Die) : (s.modDie d f).chord = s.chord := rfl
@[simp] theorem State.modDie_flash (s : State) (d : Nat) (f : Die → Die) : (s.modDie d f).flash = s.flash := rfl
@[simp] theorem State.modDie_calRuns (s : State) (d : Nat) (f : Die → Die) : (s.modDie d f).calRuns = s.calRuns := rfl
@[simp] theorem State.modDie_perf (s : State) (d : Nat) (f : Die → Die) : (s.modDie d f).perf = s.perf := rfl
@[simp] theorem State.modDie_free (s : State) (d : Nat) (f : Die → Die) : (s.modDie d f).free = s.free := rfl
@[simp] theorem State.modDie_out (s : State) (d : Nat) (f : Die → Die) : (s.modDie d f).out = s.out := rfl
@[simp] theorem State.modDie_pending (s : State) (d : Nat) (f : Die → Die) : (s.modDie d f).pending = s.pending := rfl
@[simp] theorem State.modDie_dies (s : State) (d : Nat) (f : Die → Die) : (s.modDie d f).dies = s.dies.modify d f := rfl

/-! ### State.modDies -/

@[simp] theorem State.modDies_fuses (s : State) (f : Die → Die) : (s.modDies f).fuses = s.fuses := rfl
@[simp] theorem State.modDies_ctl (s : State) (f : Die → Die) : (s.modDies f).ctl = s.ctl := rfl
@[simp] theorem State.modDies_pcie (s : State) (f : Die → Die) : (s.modDies f).pcie = s.pcie := rfl
@[simp] theorem State.modDies_hif (s : State) (f : Die → Die) : (s.modDies f).hif = s.hif := rfl
@[simp] theorem State.modDies_perim (s : State) (f : Die → Die) : (s.modDies f).perim = s.perim := rfl
@[simp] theorem State.modDies_tables (s : State) (f : Die → Die) : (s.modDies f).tables = s.tables := rfl
@[simp] theorem State.modDies_libs (s : State) (f : Die → Die) : (s.modDies f).libs = s.libs := rfl
@[simp] theorem State.modDies_areas (s : State) (f : Die → Die) : (s.modDies f).areas = s.areas := rfl
@[simp] theorem State.modDies_seq (s : State) (f : Die → Die) : (s.modDies f).seq = s.seq := rfl
@[simp] theorem State.modDies_dmaD (s : State) (f : Die → Die) : (s.modDies f).dmaD = s.dmaD := rfl
@[simp] theorem State.modDies_dmaT (s : State) (f : Die → Die) : (s.modDies f).dmaT = s.dmaT := rfl
@[simp] theorem State.modDies_therm (s : State) (f : Die → Die) : (s.modDies f).therm = s.therm := rfl
@[simp] theorem State.modDies_locus (s : State) (f : Die → Die) : (s.modDies f).locus = s.locus := rfl
@[simp] theorem State.modDies_arc (s : State) (f : Die → Die) : (s.modDies f).arc = s.arc := rfl
@[simp] theorem State.modDies_datum (s : State) (f : Die → Die) : (s.modDies f).datum = s.datum := rfl
@[simp] theorem State.modDies_chord (s : State) (f : Die → Die) : (s.modDies f).chord = s.chord := rfl
@[simp] theorem State.modDies_flash (s : State) (f : Die → Die) : (s.modDies f).flash = s.flash := rfl
@[simp] theorem State.modDies_calRuns (s : State) (f : Die → Die) : (s.modDies f).calRuns = s.calRuns := rfl
@[simp] theorem State.modDies_perf (s : State) (f : Die → Die) : (s.modDies f).perf = s.perf := rfl
@[simp] theorem State.modDies_free (s : State) (f : Die → Die) : (s.modDies f).free = s.free := rfl
@[simp] theorem State.modDies_out (s : State) (f : Die → Die) : (s.modDies f).out = s.out := rfl
@[simp] theorem State.modDies_pending (s : State) (f : Die → Die) : (s.modDies f).pending = s.pending := rfl
@[simp] theorem State.modDies_dies (s : State) (f : Die → Die) : (s.modDies f).dies = s.dies.map f := rfl

/-! ### State.modLane -/

@[simp] theorem State.modLane_fuses (s : State) (l : Nat) (f : Lane → Lane) : (s.modLane l f).fuses = s.fuses := rfl
@[simp] theorem State.modLane_ctl (s : State) (l : Nat) (f : Lane → Lane) : (s.modLane l f).ctl = s.ctl := rfl
@[simp] theorem State.modLane_pcie (s : State) (l : Nat) (f : Lane → Lane) : (s.modLane l f).pcie = s.pcie := rfl
@[simp] theorem State.modLane_hif (s : State) (l : Nat) (f : Lane → Lane) : (s.modLane l f).hif = s.hif := rfl
@[simp] theorem State.modLane_perim (s : State) (l : Nat) (f : Lane → Lane) : (s.modLane l f).perim = s.perim := rfl
@[simp] theorem State.modLane_tables (s : State) (l : Nat) (f : Lane → Lane) : (s.modLane l f).tables = s.tables := rfl
@[simp] theorem State.modLane_libs (s : State) (l : Nat) (f : Lane → Lane) : (s.modLane l f).libs = s.libs := rfl
@[simp] theorem State.modLane_areas (s : State) (l : Nat) (f : Lane → Lane) : (s.modLane l f).areas = s.areas := rfl
@[simp] theorem State.modLane_seq (s : State) (l : Nat) (f : Lane → Lane) : (s.modLane l f).seq = s.seq := rfl
@[simp] theorem State.modLane_dmaD (s : State) (l : Nat) (f : Lane → Lane) : (s.modLane l f).dmaD = s.dmaD := rfl
@[simp] theorem State.modLane_dmaT (s : State) (l : Nat) (f : Lane → Lane) : (s.modLane l f).dmaT = s.dmaT := rfl
@[simp] theorem State.modLane_therm (s : State) (l : Nat) (f : Lane → Lane) : (s.modLane l f).therm = s.therm := rfl
@[simp] theorem State.modLane_locus (s : State) (l : Nat) (f : Lane → Lane) : (s.modLane l f).locus = s.locus := rfl
@[simp] theorem State.modLane_arc (s : State) (l : Nat) (f : Lane → Lane) : (s.modLane l f).arc = s.arc := rfl
@[simp] theorem State.modLane_datum (s : State) (l : Nat) (f : Lane → Lane) : (s.modLane l f).datum = s.datum := rfl
@[simp] theorem State.modLane_chord (s : State) (l : Nat) (f : Lane → Lane) : (s.modLane l f).chord = s.chord := rfl
@[simp] theorem State.modLane_flash (s : State) (l : Nat) (f : Lane → Lane) : (s.modLane l f).flash = s.flash := rfl
@[simp] theorem State.modLane_calRuns (s : State) (l : Nat) (f : Lane → Lane) : (s.modLane l f).calRuns = s.calRuns := rfl
@[simp] theorem State.modLane_perf (s : State) (l : Nat) (f : Lane → Lane) : (s.modLane l f).perf = s.perf := rfl
@[simp] theorem State.modLane_free (s : State) (l : Nat) (f : Lane → Lane) : (s.modLane l f).free = s.free := rfl
@[simp] theorem State.modLane_out (s : State) (l : Nat) (f : Lane → Lane) : (s.modLane l f).out = s.out := rfl
@[simp] theorem State.modLane_pending (s : State) (l : Nat) (f : Lane → Lane) : (s.modLane l f).pending = s.pending := rfl

/-! ### State.modLanes -/

@[simp] theorem State.modLanes_fuses (s : State) (f : Lane → Lane) : (s.modLanes f).fuses = s.fuses := rfl
@[simp] theorem State.modLanes_ctl (s : State) (f : Lane → Lane) : (s.modLanes f).ctl = s.ctl := rfl
@[simp] theorem State.modLanes_pcie (s : State) (f : Lane → Lane) : (s.modLanes f).pcie = s.pcie := rfl
@[simp] theorem State.modLanes_hif (s : State) (f : Lane → Lane) : (s.modLanes f).hif = s.hif := rfl
@[simp] theorem State.modLanes_perim (s : State) (f : Lane → Lane) : (s.modLanes f).perim = s.perim := rfl
@[simp] theorem State.modLanes_tables (s : State) (f : Lane → Lane) : (s.modLanes f).tables = s.tables := rfl
@[simp] theorem State.modLanes_libs (s : State) (f : Lane → Lane) : (s.modLanes f).libs = s.libs := rfl
@[simp] theorem State.modLanes_areas (s : State) (f : Lane → Lane) : (s.modLanes f).areas = s.areas := rfl
@[simp] theorem State.modLanes_seq (s : State) (f : Lane → Lane) : (s.modLanes f).seq = s.seq := rfl
@[simp] theorem State.modLanes_dmaD (s : State) (f : Lane → Lane) : (s.modLanes f).dmaD = s.dmaD := rfl
@[simp] theorem State.modLanes_dmaT (s : State) (f : Lane → Lane) : (s.modLanes f).dmaT = s.dmaT := rfl
@[simp] theorem State.modLanes_therm (s : State) (f : Lane → Lane) : (s.modLanes f).therm = s.therm := rfl
@[simp] theorem State.modLanes_locus (s : State) (f : Lane → Lane) : (s.modLanes f).locus = s.locus := rfl
@[simp] theorem State.modLanes_arc (s : State) (f : Lane → Lane) : (s.modLanes f).arc = s.arc := rfl
@[simp] theorem State.modLanes_datum (s : State) (f : Lane → Lane) : (s.modLanes f).datum = s.datum := rfl
@[simp] theorem State.modLanes_chord (s : State) (f : Lane → Lane) : (s.modLanes f).chord = s.chord := rfl
@[simp] theorem State.modLanes_flash (s : State) (f : Lane → Lane) : (s.modLanes f).flash = s.flash := rfl
@[simp] theorem State.modLanes_calRuns (s : State) (f : Lane → Lane) : (s.modLanes f).calRuns = s.calRuns := rfl
@[simp] theorem State.modLanes_perf (s : State) (f : Lane → Lane) : (s.modLanes f).perf = s.perf := rfl
@[simp] theorem State.modLanes_free (s : State) (f : Lane → Lane) : (s.modLanes f).free = s.free := rfl
@[simp] theorem State.modLanes_out (s : State) (f : Lane → Lane) : (s.modLanes f).out = s.out := rfl
@[simp] theorem State.modLanes_pending (s : State) (f : Lane → Lane) : (s.modLanes f).pending = s.pending := rfl

/-! ### State.message -/

@[simp] theorem State.message_fuses (s : State) (v : Nat) : (s.message v).fuses = s.fuses := by unfold State.message; split <;> rfl
@[simp] theorem State.message_pcie (s : State) (v : Nat) : (s.message v).pcie = s.pcie := by unfold State.message; split <;> rfl
@[simp] theorem State.message_hif (s : State) (v : Nat) : (s.message v).hif = s.hif := by unfold State.message; split <;> rfl
@[simp] theorem State.message_perim (s : State) (v : Nat) : (s.message v).perim = s.perim := by unfold State.message; split <;> rfl
@[simp] theorem State.message_tables (s : State) (v : Nat) : (s.message v).tables = s.tables := by unfold State.message; split <;> rfl
@[simp] theorem State.message_libs (s : State) (v : Nat) : (s.message v).libs = s.libs := by unfold State.message; split <;> rfl
@[simp] theorem State.message_areas (s : State) (v : Nat) : (s.message v).areas = s.areas := by unfold State.message; split <;> rfl
@[simp] theorem State.message_seq (s : State) (v : Nat) : (s.message v).seq = s.seq := by unfold State.message; split <;> rfl
@[simp] theorem State.message_dies (s : State) (v : Nat) : (s.message v).dies = s.dies := by unfold State.message; split <;> rfl
@[simp] theorem State.message_dmaD (s : State) (v : Nat) : (s.message v).dmaD = s.dmaD := by unfold State.message; split <;> rfl
@[simp] theorem State.message_dmaT (s : State) (v : Nat) : (s.message v).dmaT = s.dmaT := by unfold State.message; split <;> rfl
@[simp] theorem State.message_therm (s : State) (v : Nat) : (s.message v).therm = s.therm := by unfold State.message; split <;> rfl
@[simp] theorem State.message_locus (s : State) (v : Nat) : (s.message v).locus = s.locus := by unfold State.message; split <;> rfl
@[simp] theorem State.message_arc (s : State) (v : Nat) : (s.message v).arc = s.arc := by unfold State.message; split <;> rfl
@[simp] theorem State.message_datum (s : State) (v : Nat) : (s.message v).datum = s.datum := by unfold State.message; split <;> rfl
@[simp] theorem State.message_chord (s : State) (v : Nat) : (s.message v).chord = s.chord := by unfold State.message; split <;> rfl
@[simp] theorem State.message_flash (s : State) (v : Nat) : (s.message v).flash = s.flash := by unfold State.message; split <;> rfl
@[simp] theorem State.message_calRuns (s : State) (v : Nat) : (s.message v).calRuns = s.calRuns := by unfold State.message; split <;> rfl
@[simp] theorem State.message_perf (s : State) (v : Nat) : (s.message v).perf = s.perf := by unfold State.message; split <;> rfl
@[simp] theorem State.message_free (s : State) (v : Nat) : (s.message v).free = s.free := by unfold State.message; split <;> rfl
@[simp] theorem State.message_pending (s : State) (v : Nat) : (s.message v).pending = s.pending := by unfold State.message; split <;> rfl

/-! ### State.signal -/

@[simp] theorem State.signal_fuses (s : State) (v : Nat) : (s.signal v).fuses = s.fuses := by unfold State.signal; split <;> simp
@[simp] theorem State.signal_pcie (s : State) (v : Nat) : (s.signal v).pcie = s.pcie := by unfold State.signal; split <;> simp
@[simp] theorem State.signal_hif (s : State) (v : Nat) : (s.signal v).hif = s.hif := by unfold State.signal; split <;> simp
@[simp] theorem State.signal_perim (s : State) (v : Nat) : (s.signal v).perim = s.perim := by unfold State.signal; split <;> simp
@[simp] theorem State.signal_tables (s : State) (v : Nat) : (s.signal v).tables = s.tables := by unfold State.signal; split <;> simp
@[simp] theorem State.signal_libs (s : State) (v : Nat) : (s.signal v).libs = s.libs := by unfold State.signal; split <;> simp
@[simp] theorem State.signal_areas (s : State) (v : Nat) : (s.signal v).areas = s.areas := by unfold State.signal; split <;> simp
@[simp] theorem State.signal_seq (s : State) (v : Nat) : (s.signal v).seq = s.seq := by unfold State.signal; split <;> simp
@[simp] theorem State.signal_dies (s : State) (v : Nat) : (s.signal v).dies = s.dies := by unfold State.signal; split <;> simp
@[simp] theorem State.signal_dmaD (s : State) (v : Nat) : (s.signal v).dmaD = s.dmaD := by unfold State.signal; split <;> simp
@[simp] theorem State.signal_dmaT (s : State) (v : Nat) : (s.signal v).dmaT = s.dmaT := by unfold State.signal; split <;> simp
@[simp] theorem State.signal_therm (s : State) (v : Nat) : (s.signal v).therm = s.therm := by unfold State.signal; split <;> simp
@[simp] theorem State.signal_locus (s : State) (v : Nat) : (s.signal v).locus = s.locus := by unfold State.signal; split <;> simp
@[simp] theorem State.signal_arc (s : State) (v : Nat) : (s.signal v).arc = s.arc := by unfold State.signal; split <;> simp
@[simp] theorem State.signal_datum (s : State) (v : Nat) : (s.signal v).datum = s.datum := by unfold State.signal; split <;> simp
@[simp] theorem State.signal_chord (s : State) (v : Nat) : (s.signal v).chord = s.chord := by unfold State.signal; split <;> simp
@[simp] theorem State.signal_flash (s : State) (v : Nat) : (s.signal v).flash = s.flash := by unfold State.signal; split <;> simp
@[simp] theorem State.signal_calRuns (s : State) (v : Nat) : (s.signal v).calRuns = s.calRuns := by unfold State.signal; split <;> simp
@[simp] theorem State.signal_perf (s : State) (v : Nat) : (s.signal v).perf = s.perf := by unfold State.signal; split <;> simp
@[simp] theorem State.signal_free (s : State) (v : Nat) : (s.signal v).free = s.free := by unfold State.signal; split <;> simp
@[simp] theorem State.signal_pending (s : State) (v : Nat) : (s.signal v).pending = s.pending := by unfold State.signal; split <;> simp

/-! ### State.count -/

@[simp] theorem State.count_fuses (s : State) (d i n : Nat) : (s.count d i n).fuses = s.fuses := by unfold State.count; split <;> simp
@[simp] theorem State.count_ctl (s : State) (d i n : Nat) : (s.count d i n).ctl = s.ctl := by unfold State.count; split <;> simp
@[simp] theorem State.count_pcie (s : State) (d i n : Nat) : (s.count d i n).pcie = s.pcie := by unfold State.count; split <;> simp
@[simp] theorem State.count_hif (s : State) (d i n : Nat) : (s.count d i n).hif = s.hif := by unfold State.count; split <;> simp
@[simp] theorem State.count_perim (s : State) (d i n : Nat) : (s.count d i n).perim = s.perim := by unfold State.count; split <;> simp
@[simp] theorem State.count_tables (s : State) (d i n : Nat) : (s.count d i n).tables = s.tables := by unfold State.count; split <;> simp
@[simp] theorem State.count_libs (s : State) (d i n : Nat) : (s.count d i n).libs = s.libs := by unfold State.count; split <;> simp
@[simp] theorem State.count_areas (s : State) (d i n : Nat) : (s.count d i n).areas = s.areas := by unfold State.count; split <;> simp
@[simp] theorem State.count_seq (s : State) (d i n : Nat) : (s.count d i n).seq = s.seq := by unfold State.count; split <;> simp
@[simp] theorem State.count_dmaD (s : State) (d i n : Nat) : (s.count d i n).dmaD = s.dmaD := by unfold State.count; split <;> simp
@[simp] theorem State.count_dmaT (s : State) (d i n : Nat) : (s.count d i n).dmaT = s.dmaT := by unfold State.count; split <;> simp
@[simp] theorem State.count_therm (s : State) (d i n : Nat) : (s.count d i n).therm = s.therm := by unfold State.count; split <;> simp
@[simp] theorem State.count_locus (s : State) (d i n : Nat) : (s.count d i n).locus = s.locus := by unfold State.count; split <;> simp
@[simp] theorem State.count_arc (s : State) (d i n : Nat) : (s.count d i n).arc = s.arc := by unfold State.count; split <;> simp
@[simp] theorem State.count_datum (s : State) (d i n : Nat) : (s.count d i n).datum = s.datum := by unfold State.count; split <;> simp
@[simp] theorem State.count_chord (s : State) (d i n : Nat) : (s.count d i n).chord = s.chord := by unfold State.count; split <;> simp
@[simp] theorem State.count_flash (s : State) (d i n : Nat) : (s.count d i n).flash = s.flash := by unfold State.count; split <;> simp
@[simp] theorem State.count_calRuns (s : State) (d i n : Nat) : (s.count d i n).calRuns = s.calRuns := by unfold State.count; split <;> simp
@[simp] theorem State.count_perf (s : State) (d i n : Nat) : (s.count d i n).perf = s.perf := by unfold State.count; split <;> simp
@[simp] theorem State.count_free (s : State) (d i n : Nat) : (s.count d i n).free = s.free := by unfold State.count; split <;> simp
@[simp] theorem State.count_out (s : State) (d i n : Nat) : (s.count d i n).out = s.out := by unfold State.count; split <;> simp
@[simp] theorem State.count_pending (s : State) (d i n : Nat) : (s.count d i n).pending = s.pending := by unfold State.count; split <;> simp

/-! ### State.hostRead -/

@[simp] theorem State.hostRead_fuses (s : State) (n : Nat) : (s.hostRead n).fuses = s.fuses := by simp [State.hostRead]
@[simp] theorem State.hostRead_ctl (s : State) (n : Nat) : (s.hostRead n).ctl = s.ctl := by simp [State.hostRead]
@[simp] theorem State.hostRead_pcie (s : State) (n : Nat) : (s.hostRead n).pcie = s.pcie := by simp [State.hostRead]
@[simp] theorem State.hostRead_hif (s : State) (n : Nat) : (s.hostRead n).hif = s.hif := by simp [State.hostRead]
@[simp] theorem State.hostRead_perim (s : State) (n : Nat) : (s.hostRead n).perim = s.perim := by simp [State.hostRead]
@[simp] theorem State.hostRead_tables (s : State) (n : Nat) : (s.hostRead n).tables = s.tables := by simp [State.hostRead]
@[simp] theorem State.hostRead_libs (s : State) (n : Nat) : (s.hostRead n).libs = s.libs := by simp [State.hostRead]
@[simp] theorem State.hostRead_areas (s : State) (n : Nat) : (s.hostRead n).areas = s.areas := by simp [State.hostRead]
@[simp] theorem State.hostRead_seq (s : State) (n : Nat) : (s.hostRead n).seq = s.seq := by simp [State.hostRead]
@[simp] theorem State.hostRead_dmaD (s : State) (n : Nat) : (s.hostRead n).dmaD = s.dmaD := by simp [State.hostRead]
@[simp] theorem State.hostRead_dmaT (s : State) (n : Nat) : (s.hostRead n).dmaT = s.dmaT := by simp [State.hostRead]
@[simp] theorem State.hostRead_therm (s : State) (n : Nat) : (s.hostRead n).therm = s.therm := by simp [State.hostRead]
@[simp] theorem State.hostRead_locus (s : State) (n : Nat) : (s.hostRead n).locus = s.locus := by simp [State.hostRead]
@[simp] theorem State.hostRead_arc (s : State) (n : Nat) : (s.hostRead n).arc = s.arc := by simp [State.hostRead]
@[simp] theorem State.hostRead_datum (s : State) (n : Nat) : (s.hostRead n).datum = s.datum := by simp [State.hostRead]
@[simp] theorem State.hostRead_chord (s : State) (n : Nat) : (s.hostRead n).chord = s.chord := by simp [State.hostRead]
@[simp] theorem State.hostRead_flash (s : State) (n : Nat) : (s.hostRead n).flash = s.flash := by simp [State.hostRead]
@[simp] theorem State.hostRead_calRuns (s : State) (n : Nat) : (s.hostRead n).calRuns = s.calRuns := by simp [State.hostRead]
@[simp] theorem State.hostRead_perf (s : State) (n : Nat) : (s.hostRead n).perf = s.perf := by simp [State.hostRead]
@[simp] theorem State.hostRead_free (s : State) (n : Nat) : (s.hostRead n).free = s.free := by simp [State.hostRead]
@[simp] theorem State.hostRead_out (s : State) (n : Nat) : (s.hostRead n).out = s.out := by simp [State.hostRead]
@[simp] theorem State.hostRead_pending (s : State) (n : Nat) : (s.hostRead n).pending = s.pending := by simp [State.hostRead]

/-! ### State.hostWrite -/

@[simp] theorem State.hostWrite_fuses (s : State) (addr : Nat) (ws : List Word) : (s.hostWrite addr ws).fuses = s.fuses := by simp [State.hostWrite]
@[simp] theorem State.hostWrite_ctl (s : State) (addr : Nat) (ws : List Word) : (s.hostWrite addr ws).ctl = s.ctl := by simp [State.hostWrite]
@[simp] theorem State.hostWrite_pcie (s : State) (addr : Nat) (ws : List Word) : (s.hostWrite addr ws).pcie = s.pcie := by simp [State.hostWrite]
@[simp] theorem State.hostWrite_hif (s : State) (addr : Nat) (ws : List Word) : (s.hostWrite addr ws).hif = s.hif := by simp [State.hostWrite]
@[simp] theorem State.hostWrite_perim (s : State) (addr : Nat) (ws : List Word) : (s.hostWrite addr ws).perim = s.perim := by simp [State.hostWrite]
@[simp] theorem State.hostWrite_tables (s : State) (addr : Nat) (ws : List Word) : (s.hostWrite addr ws).tables = s.tables := by simp [State.hostWrite]
@[simp] theorem State.hostWrite_libs (s : State) (addr : Nat) (ws : List Word) : (s.hostWrite addr ws).libs = s.libs := by simp [State.hostWrite]
@[simp] theorem State.hostWrite_areas (s : State) (addr : Nat) (ws : List Word) : (s.hostWrite addr ws).areas = s.areas := by simp [State.hostWrite]
@[simp] theorem State.hostWrite_seq (s : State) (addr : Nat) (ws : List Word) : (s.hostWrite addr ws).seq = s.seq := by simp [State.hostWrite]
@[simp] theorem State.hostWrite_dmaD (s : State) (addr : Nat) (ws : List Word) : (s.hostWrite addr ws).dmaD = s.dmaD := by simp [State.hostWrite]
@[simp] theorem State.hostWrite_dmaT (s : State) (addr : Nat) (ws : List Word) : (s.hostWrite addr ws).dmaT = s.dmaT := by simp [State.hostWrite]
@[simp] theorem State.hostWrite_therm (s : State) (addr : Nat) (ws : List Word) : (s.hostWrite addr ws).therm = s.therm := by simp [State.hostWrite]
@[simp] theorem State.hostWrite_locus (s : State) (addr : Nat) (ws : List Word) : (s.hostWrite addr ws).locus = s.locus := by simp [State.hostWrite]
@[simp] theorem State.hostWrite_arc (s : State) (addr : Nat) (ws : List Word) : (s.hostWrite addr ws).arc = s.arc := by simp [State.hostWrite]
@[simp] theorem State.hostWrite_datum (s : State) (addr : Nat) (ws : List Word) : (s.hostWrite addr ws).datum = s.datum := by simp [State.hostWrite]
@[simp] theorem State.hostWrite_chord (s : State) (addr : Nat) (ws : List Word) : (s.hostWrite addr ws).chord = s.chord := by simp [State.hostWrite]
@[simp] theorem State.hostWrite_flash (s : State) (addr : Nat) (ws : List Word) : (s.hostWrite addr ws).flash = s.flash := by simp [State.hostWrite]
@[simp] theorem State.hostWrite_calRuns (s : State) (addr : Nat) (ws : List Word) : (s.hostWrite addr ws).calRuns = s.calRuns := by simp [State.hostWrite]
@[simp] theorem State.hostWrite_perf (s : State) (addr : Nat) (ws : List Word) : (s.hostWrite addr ws).perf = s.perf := by simp [State.hostWrite]
@[simp] theorem State.hostWrite_free (s : State) (addr : Nat) (ws : List Word) : (s.hostWrite addr ws).free = s.free := by simp [State.hostWrite]
@[simp] theorem State.hostWrite_pending (s : State) (addr : Nat) (ws : List Word) : (s.hostWrite addr ws).pending = s.pending := by simp [State.hostWrite]

end Sys2Proof.Machine
end

