-- ==== Sys2Proof/Laws/Words.lean ====
section
/-! SUPPORT. Laws of words as bytes: words laid out as bytes are read back. -/

namespace Sys2Proof.Machine

/-- The four bytes of a word make up the word. -/
theorem word_of_bytes (w : Word) :
    w.extractLsb' 24 8 ++ w.extractLsb' 16 8 ++ w.extractLsb' 8 8 ++ w.extractLsb' 0 8 = w := by
  apply BitVec.eq_of_getLsbD_eq
  intro i hi
  simp only [BitVec.getLsbD_append, BitVec.getLsbD_extractLsb']
  split_ifs with h1 h2 h3
  · simp [h1]
  · rw [decide_eq_true (show i - 8 < 8 by omega), Bool.true_and]; congr 1; omega
  · rw [decide_eq_true (show i - 8 - 8 < 8 by omega), Bool.true_and]; congr 1; omega
  · rw [decide_eq_true (show i - 8 - 8 - 8 < 8 by omega), Bool.true_and]; congr 1; omega

theorem bytesWords_wordsBytes (ws : List Word) : bytesWords (wordsBytes ws) = ws := by
  induction ws with
  | nil => rfl
  | cons w ws ih =>
    have h : wordsBytes (w :: ws) = w.extractLsb' 0 8 :: w.extractLsb' 8 8 :: w.extractLsb' 16 8 :: w.extractLsb' 24 8
        :: wordsBytes ws := rfl
    rw [h, bytesWords, ih]
    congr 1
    exact word_of_bytes w

theorem length_wordsBytes (ws : List Word) : (wordsBytes ws).length = 4 * ws.length := by
  induction ws with
  | nil => rfl
  | cons w ws ih =>
    have h : wordsBytes (w :: ws) = wordBytes w ++ wordsBytes ws := rfl
    have hw : (wordBytes w).length = 4 := rfl
    rw [h, List.length_append, hw, ih, List.length_cons]
    omega

end Sys2Proof.Machine
end

