-- ==== Sys2Proof/WellFormed.lean ====
section
/-! DEFINITION. The checks on a command's operands: numbers of units within the device's, field widths, packet lengths. A
command that fails them names nothing the block has. -/

namespace Sys2Proof

/-- A packet: 16 words, a slot of a 12-bit index (02_host_commands.md Table 2-3, R52). -/
def Packet.wf (p : Packet) : Bool := p.words.length == 16 && decide (p.slot < 4096)

/-- The answer to a fetch: 16 words (Table 2-3). -/
def SlotRead.wf : SlotRead → Bool
  | .error => true
  | .words ws _ => ws.length == 16

/-- A DRAM report: rate code, ranks and capacity in their MEM_INFO fields. -/
def DramReport.wf (r : DramReport) : Bool := 
  decide (r.rate < 4) && decide (r.ranks < 4) && decide (r.capacityGib ≤ 24) && r.values.length == 18

/-- Die, lane, source, DIN and axis numbers. -/
def wfDie (d : Nat) : Bool := decide (d < 8)
def wfLane (l : Nat) : Bool := decide (l < 96)
def wfSrc (n : Nat) : Bool := decide (n < 12)
def wfDin (n : Nat) : Bool := decide (n < 16)
def wfAxis (n : Nat) : Bool := decide (n < 10)
def wfPort (p : Nat) : Bool := decide (p < 2)
def wfUnit (u : Nat) : Bool := decide (u < 4)

/-- A channel: class D 0-7, move channel 0-3 of a die (03_dma.md Table 3-1). -/
def DmaChan.wf : DmaChan → Bool
  | .classD i => decide (i < 8)
  | .move die k => wfDie die && decide (k < 4)

/-- A descriptor's answer: 8 words, and a list of 4-word entries (03 Table 3-2). -/
def DescRead.wf : DescRead → Bool
  | .error => true
  | .words ws sgl => ws.length == 8 && sgl.length % 4 == 0

/-- A burst moves at most 4,096 bytes (03 R79). -/
def BurstRead.wf : BurstRead → Bool
  | .error _ => true
  | .bytes bs | .corrected bs => decide (bs.length ≤ 4096)

/-- A PTP message: 16-bit sequence, 8-bit domain. -/
def PtpMsg.wf (m : PtpMsg) : Bool := decide (m.domain < 256) && decide (m.seq < 2 ^ 16)

/-- The checks of a command. -/
def Instr.wf : Instr → Bool
  | .nop p | .info p | .state p | .clear p | .reset p | .arm p | .disarm p | .cfgPixelPitch p | .cfgDeviceId p
  | .cfgRenderAhead p | .tableLoad p _ | .tableRead p | .libLoad p _ | .libDrop p | .geoBind p | .stripeSubmit p
  | .makeupSubmit p | .stripeAbort p | .ledgerRead p | .ledgerStream p | .ledgerRelease p | .axisConfig p | .axisParam p
  | .axisHome p | .axisMove p | .axisStop p | .locusConfig p | .compareSet p | .timeConfig p | .timeRead p
  | .timeTrigger p | .chordConfig p _ | .roleSet p | .chordSend p | .laneTrain p | .lanePower p | .laneRetire p
  | .laneStatus p | .headQuery p | .pulseTableLoad p _ | .calRun p | .calRead p | .calStore p _ | .faultRead p
  | .safeDarkReq p | .dieRetire p | .faultInject p _ | .updateStage p | .updateActivate p | .updateConfirm p
  | .updateFallback p | .counterSnapshot p | .counterStream p | .scrubRun p | .powerStandby p | .thermalRead p _
  | .thermalConfig p => p.wf
  | .normalCommandFetch r | .urgentCommandFetch r => r.wf
  | .perstDeasserted r | .wakeNLow r => decide (r.length ≤ 1024)
  | .bootStart ds => ds.all DramReport.wf
  | .bootComplete c k => c.all wfDie && k.all fun x => wfDie x.1 && wfUnit x.2
  | .libBlockReceived _ b => decide (b.length ≤ 16384)
  | .locusDinFlagClear d f => wfDin d && decide (f < 256)
  | .counterLoRead d _ => wfDie d
  | .registerWrite a w _ _ => decide (a < 2 ^ 27) && (w == 1 || w == 2 || w == 4)
  | .dmaDoorbell c | .dmaRunSet c | .dmaRunClear c | .dmaAbort c | .dmaOwnerWrite c _ | .dmaFetchErrorClear c
  | .dmaRingBaseWrite c _ _ | .dmaTEnable c | .dmaTRdptrWrite c _ | .classTRecordWrite c => decide (c < 8)
  | .dmaDescriptorFetch c a => c.wf && a.wf
  | .dmaBurst c a => c.wf && a.wf
  | .tesseraCoarseBand d | .tesseraFineBand d | .libraryFetch d _ _ _ | .facetTileRender d _ | .stripePassStop d _ _
  | .longRangeRow d | .renderBlock d _ | .renderAheadRead d _ _ | .refreshInterval d | .makeUpBurstRefresh d
  | .periodicRetraining d | .maxDeferExpiry d | .scrubRead d _ | .watchdogTimeout d | .lockstepMismatch d
  | .clockMonitorFault d _ | .voltageMonitorFault d _ _ | .fabricHopFault d _ | .guardRound d
  | .calMeasurement d _ _ _ _ | .calStep d _ _ | .compJobStart d _ | .compContextSave d | .compContextRestore d
  | .compJobDone d => wfDie d
  | .densityPacketRx d o _ => wfDie d && wfDie o
  | .trackingMeasurement n | .restMeasurement n | .abEdge n _ _ _ _ | .sincosSample n _ _ _ | .bissCycleStart n _
  | .bissDataReceived n _ _ | .bissTimeout n | .lineFault n | .zStuck n | .indexEvent n _ | .speedWindowEnd n
  | .sourceRevalid n => wfSrc n
  | .deviation a | .stall a | .moveComplete a | .homingSearchLimit a => wfAxis a
  | .dinChange d _ | .dinDebounce d | .dinStuck d => wfDin d
  | .setpointStatusRx ws => decide (ws.length ≤ 512)
  | .triggerFire t => decide (t < 16)
  | .sync p m | .followUp p m | .delayResp p m | .announce p m _ | .pdelayReq p m | .pdelayResp p m
  | .pdelayRespFollowUp p m => wfPort p && m.wf
  | .delayReqSend p d => wfPort p && decide (d < 2)
  | .syncTimeout d | .announceReceiptTimeout d | .stagingBlockArrival d => decide (d < 2)
  | .arpRequest p _ _ _ | .icmpEchoRequest p _ | .ethernetLinkChange p _ _ | .data p _ | .ack p _ | .staleRole p _
  | .roleAnnounce p _ | .syncReady p _ | .syncGo p _ | .stitchOffer p _ | .ledgerBatch p _ => wfPort p
  | .chordRetransmit d => decide (d < 1024)
  | .forwardFrameTx l _ | .returnFrameRx l _ _ | .returnFrameMissing l | .echoTimeout l | .firedReportMissing l _
  | .controlElementResend l | .tempReportTimeout l | .laneTrainStepDone l | .rateCheckDone l _ _ | .laneTrainTimeout l
  | .retrainComplete l | .retrainBoundExpiry l | .laneDrainEnd l => wfLane l
  | .faultReport c d u _ _ => decide (c < 2 ^ 16) && wfDie d && decide (u < 2 ^ 16)
  | .sensorConversion d n _ _ => wfDie d && decide (n < 12)
  | .sensorCalComplete os => os.all fun o => wfDie o.1 && decide (o.2.1 < 12)
  | .crcStart d u _ | .crcData d u _ | .crcData8 d u _ | .crcValueWrite d u _ | .crcBytesWrite d u _ => wfDie d && wfUnit u
  | .irregularBar0Read a w n => decide (a < 2 ^ 26) && (w == 1 || w == 2 || w == 4 || w == 8) && decide (n < 1024)
  | .railFailure _ | .pmbusTransaction _ _ | .pmbusAlert _ | .pmbusTelemetry _ | .housekeepingRoundEnd _ => true
  | .powerOnReset _ | .aonSupplyLost | .perstAsserted | .railStepComplete | .warmReset | .softwareReset | .hotReset
  | .functionLevelReset | .linkDown | .d3hotEntry | .hifDbNcmdWrite _ | .hifDbUcmdWrite _ | .hifDbStatWrite _
  | .normalRingEnable | .normalRingDisable | .urgentRingEnable | .urgentRingDisable | .statusRingEnable
  | .statusRingDisable | .irqCoalesceTimeout | .calRunComplete | .updateStageComplete _ _ | .laneSelWrite _
  | .laneRetrainRequest | .laneErrorInject | .datumTimeLatch | .devTimeLatch | .stripeRenderBegin | .shotPulse _ _ _
  | .passEnd | .stripeComplete | .prefillComplete | .seqPauseExpiry | .approachBegin _ | .profileTick | .setpointPacketTx
  | .setpointStatusTimeout | .deviceTimeStep | .syncReadySend | .ledgerBatchSend | .headTripNAsserted
  | .headTripNDeasserted | .darkNAsserted | .darkNDeasserted | .faultPolicyStep | .mirrorSnapshot | .counterStreamPeriod
  | .d3hotExit => true

end Sys2Proof
end

