-- ==== Sys2Proof/Tests/Slice0.lean ====
section
/-! SUPPORT. Tests: an ill-formed term for each check, words and numbers the spec works out itself, and for each clause of each
statement a state and operands that meet all its hypotheses (wit_<statement>_<clause>). -/

namespace Sys2Proof.Tests

set_option maxRecDepth 100000
set_option Elab.async false

open Sys2Proof Sys2Proof.Machine

/-! ### Helpers -/

/-- A packet of an opcode, with the parameters given. -/
def pk (op target : Nat) (params : List Nat) : Packet :=
  { urgent := false, slot := 0
    words := [BitVec.ofNat 32 (0x5A * 2 ^ 16 + op), BitVec.ofNat 32 (target * 2 ^ 16 + params.length * 2 ^ 8)]
      ++ (params.map (BitVec.ofNat 32)) ++ List.replicate (14 - params.length) 0 }

/-- The state after reset of the variant of two dies, with every domain on, ready, in the device state given. -/
def runs (d : DevState) : State :=
  { State.reset with
    ctl := { State.reset.ctl with ready := true, dev := d, perst := false }
    fuses := { State.reset.fuses with variant := .dg2 }
    dies := (State.reset.dies.take 2).map fun x =>
      { x with pow := { x.pow with on := 0xFF, iso := 0 }, mem := { x.mem with state := .active, capacity := 8 } } }

def run0 : State := runs .configured

def dram : DramReport := { rate := 1, capacityGib := 8, ranks := 1, linkEcc := true, flip := 0, fastOk := true, values := List.replicate 32 0, margins := 0xFFFFFF }

def cell1 : Cell := { id := 1, prims := [(0, .rect 0 0 256 256)], places := [], marks := [], extent := some ⟨0, 0, 256, 256⟩, depth := 1 }

def lib1 : Library := { id := 7, cells := [cell1], payload := 64, load := none }

def payload1 : List Word := [0x00050040, 9, 7, 4352, 0, 0, 0, 0x0100, 1, 0, 0x00240041, 0, 0x00010011, 0]
  ++ (List.replicate 17 [1, 0, 4, 1]).flatten ++ [0x00030020, 1, 0, 0, 0, 0]

def block1 : Block := { seq := 0, lib := 7, payload := payload1 }

def area1 : Area := { Area.reset with bound := some 9, blocks := [block1] }

def lanesUp (s : State) : State := s.modLanes fun l => { l with state := .up, power := .l0, headLocked := true, retLocked := true, everL0 := true }

/-- A device ready to take stripe 9. -/
def staged (d : DevState) : State := let s := runs d; { lanesUp s with libs := [lib1], areas := [area1, Area.reset] }

def root1 : Root := { stripe := 9, lib := 7, rows := 4352, sx := 0, sy := 0, firstBlock := 0, blocks := 1, streamBlocks := 1, additive := [], segs := List.replicate 17 { active := 1, blocks := [(4, 1)] } }

def ctx1 : Ctx := { tag := 9, opcode := 0x300, urgent := false, slot := 0, noIrq := false, gen := 0, held := none }

/-- Stripe 9 of two passes at 10 kHz. -/
def stripe1 : Stripe :=
  { id := 9, ctx := ctx1, root := root1, area := 0, passes := [{ mask := 0, ix := 0, iy := 0 }, { mask := 0, ix := 0, iy := 0 }], ramps := [0,0,0,0], startMode := 0, startPos := 0
    stepPos := 0, startRef := 0, rate := 10, prefill := 4352, tables := Tables.reset, snapshot := [], ceiling := 0, uncomp := [], makeup := none
    phase := .queued, pass := 0, executing := false, rendered := 0, lates := 0, strobes := 0, written := [], paused := false, passStart := none
    triggered := false, offered := false, syncSent := false, stitchFailed := false, lostBeams := [], ended := false }

def withStripe (st : Stripe) (s : State) : State := { s with seq.stripes := [st] }

/-- The invariant, from a check of every die. -/
theorem inv_of {s : State}
    (h : s.dies.length = s.fuses.variant.dies ∧ ∀ x ∈ s.dies.zipIdx, x.1.id = x.2
      ∧ x.1.lanes.map Lane.id = (List.range 12).map (12 * x.2 + ·) ∧ Memory.wf x.1.mem.dram = true ∧ Sram.wf x.1.sram.cells = true) :
    s.Inv := by
  refine ⟨rfl, rfl, by simpa [State.shape, Fuses.lasting] using h.1, ?_⟩
  intro d y hy
  obtain ⟨x, hx, rfl⟩ := List.getElem?_map .. ▸ hy |> Option.map_eq_some_iff.1
  exact h.2 (x, d) (List.mk_mem_zipIdx_iff_getElem?.2 hx)

/-! ### Each check of WellFormed refuses an ill-formed term -/

theorem test_wf_packet : (Instr.nop { urgent := false, slot := 0, words := [] }).wf = false := by decide
theorem test_wf_slot : (Instr.nop { urgent := false, slot := 4096, words := List.replicate 16 0 }).wf = false := by decide
theorem test_wf_fetch : (Instr.normalCommandFetch (.words [] [])).wf = false := by decide
theorem test_wf_dram : (Instr.bootStart [{ dram with rate := 4 }]).wf = false := by decide
theorem test_wf_selftest : (Instr.bootComplete [8] []).wf = false := by decide
theorem test_wf_selftest_unit : (Instr.bootComplete [] [(0, 4)]).wf = false := by decide
theorem test_wf_din : (Instr.locusDinFlagClear 16 0).wf = false := by decide
theorem test_wf_address : (Instr.registerWrite (2 ^ 27) 4 0 false).wf = false := by decide
theorem test_wf_width : (Instr.registerWrite 0 3 0 false).wf = false := by decide
theorem test_wf_channel : (Instr.dmaDoorbell 8).wf = false := by decide
theorem test_wf_move_channel : (Instr.dmaDescriptorFetch (.move 0 4) .error).wf = false := by decide
theorem test_wf_descriptor : (Instr.dmaDescriptorFetch (.classD 0) (.words [] [])).wf = false := by decide
theorem test_wf_burst (bs : List Byte) (h : 4096 < bs.length) : (Instr.dmaBurst (.classD 0) (.bytes bs)).wf = false := by
  simp [Instr.wf, BurstRead.wf, h]
theorem test_wf_die : (Instr.guardRound 8).wf = false := by decide
theorem test_wf_owner : (Instr.densityPacketRx 0 8 none).wf = false := by decide
theorem test_wf_source : (Instr.bissTimeout 12).wf = false := by decide
theorem test_wf_axis : (Instr.stall 10).wf = false := by decide
theorem test_wf_trigger : (Instr.triggerFire 16).wf = false := by decide
theorem test_wf_port : (Instr.data 2 []).wf = false := by decide
theorem test_wf_ptp : (Instr.sync 0 ⟨256, 0, 0, 0, 0, false, 0⟩).wf = false := by decide
theorem test_wf_domain : (Instr.syncTimeout 2).wf = false := by decide
theorem test_wf_peer : (Instr.chordRetransmit 1024).wf = false := by decide
theorem test_wf_lane : (Instr.echoTimeout 96).wf = false := by decide
theorem test_wf_cause : (Instr.faultReport 0x10000 0 0 0 0).wf = false := by decide
theorem test_wf_sensor : (Instr.sensorConversion 0 12 0 false).wf = false := by decide
theorem test_wf_crc_unit : (Instr.crcStart 0 4 0).wf = false := by decide
theorem test_wf_nop : (Instr.nop (pk 0 0xFFFF [])).wf = true := by decide

/-! ### Numbers the spec works out -/

/-- 04 R111's example: 0xA5 is stored with c4..c0 = 0b0_0011, and a flip of d2 is corrected. -/
theorem test_secded_stored : sramEncode 0xA5 = 0x3A5#13 := by decide
theorem test_secded_corrected : sramDecode 0x3A1#13 = .corrected 0xA5 := by decide

/-! ### The state after reset -/

theorem test_reset_idle : State.reset.pending = [] ∧ State.reset.ctl.dev = .standby := by decide

/-! ### The statements' hypotheses are met -/

namespace Power

def off (perst : Bool) : State := { run0 with ctl.dev := .off, ctl.perst := perst, ctl.ready := false }

/-- A power record of one rail of kind 9, page 0, step 3, 1000 mV. -/
def rail1 (step : Nat) : List Word := [BitVec.ofNat 32 (0x40 + 9*2^16 + step*2^24), 0x03E803E8, 0x006403E8, 0]

def record (rails : List Word) : List Word :=
  [0x57525042, BitVec.ofNat 32 (1 + rails.length / 4 * 2 ^ 8), 0, crcWords 0xFFFFFFFF rails] ++ rails

def rec2 : List Word := record (rail1 3 ++ rail1 5)

def railsOf (r : List Word) : List Rail := (parseRecord 2 r).getD []

def sRails (k : Nat) : State := { runs .standby with ctl.ready := false, ctl.boot := .rails k, therm.rails := (railsOf rec2).map fun r => { r with on := decide (r.step ≤ k), keep := r.step == 3 } }

def wr1 := runs .writing

def hold1 : State := { runs .standby with ctl.hold := true, ctl.perst := true }

def sb : State := { runs .standby with ctl.ready := false, ctl.perst := true }

def sbH : State := { sb with ctl.hold := true }

def sbP : State := { sb with ctl.hold := true, ctl.perst := false }

theorem wit_StandbyEntries_1 : hold1.ctl.hold = true := by decide +kernel

theorem wit_StandbyEntries_0 : wr1.ctl.dev ≠ DevState.off := by decide +kernel

theorem wit_StandbyEntries_5 : run0.Takes 2816 (pk 2816 65535 []) := by decide +kernel

theorem wit_StandbyEntries_3 : sbH.ctl.dev = DevState.standby ∧ sbH.ctl.hold = true ∧ sbH.ctl.perst = true := by decide +kernel

theorem wit_StandbyEntries_4_0 : sbP.ctl.dev = DevState.standby ∧ sbP.ctl.hold = true ∧ sbP.ctl.perst = false
    ∧ sbP.therm.latched = false ∧ parseRecord sbP.nDies [] = none := by decide +kernel

theorem wit_StandbyEntries_2_0 : sb.ctl.dev = DevState.standby ∧ sb.ctl.boot = BootPhase.idle ∧ sb.ctl.hold = false
    ∧ sb.therm.latched = false ∧ parseRecord sb.nDies [] = none := by decide +kernel

theorem wit_StandbyEntries_4_1 : sbP.ctl.dev = DevState.standby ∧ sbP.ctl.hold = true ∧ sbP.ctl.perst = false
    ∧ sbP.therm.latched = false ∧ parseRecord sbP.nDies rec2 = some (railsOf rec2) ∧ nextStep (railsOf rec2) none = some 3 := by decide +kernel

theorem wit_StandbyEntries_2_1 : sb.ctl.dev = DevState.standby ∧ sb.ctl.boot = BootPhase.idle ∧ sb.ctl.hold = false
    ∧ sb.therm.latched = false ∧ parseRecord sb.nDies rec2 = some (railsOf rec2) ∧ nextStep (railsOf rec2) none = some 3 := by decide +kernel

theorem wit_PowerRails_6 : (sRails 5).ctl.boot = BootPhase.rails 5 ∧ nextStep (sRails 5).therm.rails (some 5) = none := by decide +kernel

theorem wit_PowerRails_0 : (off true).ctl.dev = DevState.off ∧ (off true).ctl.perst = true := by decide +kernel

theorem wit_PowerRails_4 : (sRails 3).ctl.boot = BootPhase.rails 3 ∧ nextStep (sRails 3).therm.rails (some 3) = some 5 := by decide +kernel

theorem wit_PowerRails_2 : (off false).ctl.dev = DevState.off ∧ (off false).ctl.perst = false
    ∧ parseRecord (off false).nDies [] = none := by decide +kernel

theorem wit_PowerRails_1 : (off false).ctl.dev = DevState.off ∧ (off false).ctl.perst = false
    ∧ parseRecord (off false).nDies rec2 = some (railsOf rec2) ∧ nextStep (railsOf rec2) none = some 3 := by decide +kernel

end Power

namespace Boot

def bootSt : State := { runs .standby with ctl.boot := .rom, ctl.ready := false }

def w1 := runs .writing

def pr1 := pk 4 0xFFFF [1]

def rx : State := { run0 with dmaD := run0.dmaD.map fun c => { c with firmware := false, state := .active, run := true }, ctl.d3hot := true, ctl.msixPending := 0xFF, ctl.msixMask := 0xF }

def ioff : State := { run0 with dies := run0.dies.map fun d => { d with pow.on := 0x7F } }

def ring (s : State) : State := { s with hif := { s.hif with
   ncmd := { s.hif.ncmd with enabled := true, head := 3, tail := 5 }, ucmd := { s.hif.ucmd with enabled := true, head := 3, tail := 5 }, stat := { s.hif.stat with enabled := true, reserved := 2, tail := 4 } } }

def rg := ring run0

def rc : State := { rg with hif.unsignalled := 3, hif.coalUs := 5, ctl.msixMask := 0 }

def nopW := (pk 0 0xFFFF []).words

theorem wit_BootAndResetRows_2 : w1.resettable = true := by decide +kernel

theorem wit_BootAndResetRows_3 : run0.Takes 4 pr1 := by decide +kernel

theorem wit_BootAndResetRows_0 : bootSt.ctl.boot = BootPhase.rom ∧ bootSt.selectorOr.trial = false
    ∧ bootSt.memoryStarts [dram, dram] = true ∧ bootSt.bankVerifies bootSt.selectorOr.active = true
    ∧ bootSt.flash.banks[bootSt.selectorOr.active]? = some (some (BankImage.initial 0)) := by
  refine ⟨by decide +kernel, by decide +kernel, by decide +kernel, ?_, rfl⟩
  show bootSt.bankVerifies 0 = true
  have h : bootSt.flash.banks.getD 0 none = some (BankImage.initial 0) := rfl
  simp only [State.bankVerifies, h, imageStatus_initial bootSt 0 rfl, Option.isNone_none]

theorem wit_LinkEvents_3 : rx.domOn 0 7 = true ∧ rx.seq.stripes = [] := by decide +kernel

theorem wit_LinkEvents_2 : ioff.domOn 0 7 = false := by decide +kernel

theorem wit_LinkEvents_4 : rx.ctl.d3hot = true ∧ rx.hif.deferred = [] ∧ rx.hif.holding = [] := by decide +kernel

theorem wit_RingRegisters_1_5 : rg.hifOn = true ∧ rg.hif.holding = [] := by decide +kernel

theorem wit_RingRegisters_2 : 0 < rc.hif.unsignalled ∧ 0 < rc.hif.coalUs ∧ rc.ctl.d3hot = false
    ∧ rc.ctl.msixMask.getLsbD 0 = false := by decide +kernel

theorem wit_CommandFetch_1 : rg.hif.fenced = none ∧ rg.hif.busy = none ∧ rg.mayFetch = true ∧ wordAt nopW 1 % 2 = 0
    ∧ rg.servable { urgent := false, slot := rg.hif.ncmd.head, words := nopW } = true := by decide +kernel

theorem wit_CommandFetch_4 : rg.ctl.ready = true ∧ rg.ctl.d3hot = false ∧ rg.hif.ucmd.enabled = true
    ∧ rg.hif.ucmd.head ≠ rg.hif.ucmd.tail ∧ rg.hif.holding.length < 64
    ∧ rg.servable { urgent := true, slot := rg.hif.ucmd.head, words := nopW } = true := by decide +kernel

theorem wit_CommandFetch_2 : run0.hif.fenced = none ∧ run0.hif.busy = none ∧ run0.mayFetch = false := by decide +kernel

end Boot

namespace Dram

def q (op : Nat) (l : List Nat := []) := pk op 0xFFFF l

def w1 := runs .writing

def ar := runs .armed

def hz : State := { runs .safeDark with ctl.darkN := true }

def p0 := q 0

def p3 := q 3

def p5 := q 5

def p7 := q 0x100 [5000]

def cells : List Host.Cell := [(3, 7), (5, 1)]

def pan (debt : Nat) : State := { w1 with dies := w1.dies.map fun d => { d with mem.panic := true, mem.debt := debt } }

def p66 := pan 6

def p77 := pan 7

def mk : State := { w1 with dies := w1.dies.map fun d => { d with mem := { d.mem with debt := 1, makeUp := true, lead := d.mem.panicOn + 1 } } }

def df : State := { w1 with dies := w1.dies.map fun d => { d with mem.deferred := true } }

def ps := pk 0xA02 1 [5, 4]

def ps3 := pk 0xA02 1 [5, 0x17FFFFF]

def sc0 : Scan := { first := 0, last := 100, at_ := 68, ctx := none }

def sc : State := { w1 with dies := w1.dies.map fun d => { d with sram.scans := [sc0] } }

def lib0 : Library := { id := 7, cells := [], payload := 64, load := none }

def ld : Load := { ctx := w1.cmd 0x200 p0, next := 0, total := 2, partBlock := false, badEntry := none, cell := none, cls := 0, bytes := 0 }

def pl := q 0x201 [7]

def pl2 := q 0x201 [8]

def lb1 : State := { run0 with libs := [lib0] }

def lib2 : Library := { lib0 with load := some ld }

def lb2 : State := { run0 with libs := [lib2] }

theorem wit_DeviceCommands_0 : ar.Takes 0 p5 := by decide +kernel

theorem wit_DeviceCommands_1 : ar.Takes 1 p5 := by decide +kernel

theorem wit_DeviceCommands_2 : ar.Takes 2 p5 := by decide +kernel

theorem wit_DeviceCommands_4 : ar.Takes 5 p5 := by decide +kernel

theorem wit_DeviceCommands_5 : ar.Takes 6 p5 := by decide +kernel

theorem wit_DeviceCommands_3 : hz.Takes 3 p3 := by decide +kernel

theorem wit_DeviceCommands_8 : ar.Takes 1281 p5 := by decide +kernel

theorem wit_DeviceCommands_6 : run0.Takes 256 p7 := by decide +kernel

theorem wit_DeviceCommands_7 : run0.Takes 257 p7 := by decide +kernel

theorem wit_CanonicalCells_4 : sparseWf 0 cells = true := by decide +kernel

theorem wit_RefreshRows_4 : w1.memActive 0 = true ∧ w1.ctl.dev = DevState.writing := by decide +kernel

theorem wit_RefreshRows_5 : df.memActive 0 = true ∧ (df.die 0).mem.deferred = true := by decide +kernel

theorem wit_RefreshRows_2 : w1.memActive 1 = true ∧ w1.ctl.dev = DevState.writing ∧ (w1.die 1).mem.panic = false := by decide +kernel

theorem wit_RefreshRows_0 : p66.memActive 1 = true ∧ p66.ctl.dev = DevState.writing ∧ (p66.die 1).mem.panic = true
    ∧ (p66.die 1).mem.debt < 7 := by decide +kernel

theorem wit_RefreshRows_1 : p77.memActive 1 = true ∧ p77.ctl.dev = DevState.writing ∧ (p77.die 1).mem.panic = true
    ∧ 7 ≤ (p77.die 1).mem.debt := by decide +kernel

theorem wit_RefreshRows_3 : mk.memActive 1 = true ∧ mk.ctl.dev = DevState.writing ∧ (mk.die 1).mem.panic = false
    ∧ 0 < (mk.die 1).mem.debt ∧ (mk.die 1).mem.makeUp = true ∧ (mk.die 1).mem.panicOn < (mk.die 1).mem.lead := by decide +kernel

theorem wit_ScrubRows_1 : w1.Takes 2562 ps3 ∧ ps3.param 0 ≤ ps3.param 1 ∧ ps3.param 1 < 25165824 := by decide +kernel

theorem wit_ScrubRows_0 : w1.Takes 2562 ps ∧ (¬(ps.param 0 ≤ ps.param 1 ∧ ps.param 1 < 25165824)) := by decide +kernel

theorem wit_ScrubRows_2 : sc.scrubs 1 = true ∧ (sc.die 1).sram.scans = [sc0] ∧ (sc.die 1).sram.cells = []
    ∧ sc0.at_ + 32 ≤ sc0.last := by decide +kernel

theorem wit_LibDrop_2_1 : lb1.Takes 513 pl ∧ List.find? (fun l => l.id == pl.param 0) lb1.libs = some lib0 ∧ lib0.load = none
    ∧ (∀ st ∈ lb1.seq.stripes, st.root.lib ≠ pl.param 0)
    ∧ (∀ a ∈ lb1.areas, a.bound.isSome = true → ∀ b ∈ a.blocks, b.lib ≠ pl.param 0) := by decide +kernel

theorem wit_LibDrop_0 : lb1.Takes 513 pl2 ∧ (∀ l ∈ lb1.libs, l.id ≠ pl2.param 0) := by decide +kernel

theorem wit_LibDrop_1 : lb2.Takes 513 pl ∧ List.find? (fun l => l.id == pl.param 0) lb2.libs = some lib2
    ∧ (lib2.load.isSome = true ∨ (∃ st ∈ lb2.seq.stripes, st.root.lib = pl.param 0) ∨ ∃ a ∈ lb2.areas, a.bound.isSome = true
    ∧ ∃ b ∈ a.blocks, b.lib = pl.param 0) := by decide +kernel

end Dram

namespace Submit

def q (op : Nat) (l : List Nat := []) := pk op 0xFFFF l

def sub := q 0x300 [9, 1, 10 + 10 * 65536, 0, 0, 0, 0, 0, 0, 0, 0, 0]

def subA : Packet := { sub with words := sub.words.set 1 (sub.words.getD 1 0 ||| 0x4) }

def g1 := staged .armed

def adm0 : Admitted := { stripe := stripe1, rMin := 0, rects := [] }

def desc0 : Desc := { id := 0, ramps := [], start := 0, passes := [], rateMin := 0, rateReq := 0, startPos := 0, stepPos := 0, startRef := 0, first := 0, count := 0 }

def adm (s : State) (op : Nat) (p : Packet) (mk : Bool) : Admitted := match s.admission (Packet.ofRow op p) (s.cmd op p) mk with | .inr a => a | .inl _ => adm0

def desc (op : Nat) (p : Packet) (mk : Bool) : Desc := (descriptor (Packet.ofRow op p) mk).getD desc0

/-- The state once the header of a submitted stripe's area has been checked again. -/
def checked (s : State) (p : Packet) : State :=
  { s with areas := s.areas.map fun a => if a.bound == some (p.param 0) then s.checkHeader a else a }

def a1 := adm (checked g1 sub) 0x300 sub false

def dA := desc 0x300 sub false

def subBad := q 0x300 [9, 0, 10 + 10 * 65536, 0, 0, 0, 0, 0, 0, 0, 0, 0]

def arm0 := lanesUp (runs .armed)

def ab := q 0x301 [9]

def ab2 := q 0x301 [8]

def wst := withStripe stripe1 g1

theorem wit_SubmitRows_1 : wst.Takes 769 ab2 ∧ ab2.param 0 ≠ 4294967295 ∧ (∀ st ∈ wst.seq.stripes, st.id ≠ ab2.param 0) := by decide +kernel

theorem wit_SubmitRows_2 : wst.Takes 769 ab ∧ wst.seq.stripes = [stripe1] ∧ ab.param 0 = stripe1.id ∧ stripe1.executing = false := by decide +kernel

theorem wit_SubmitRows_0_0 : g1.Takes (if false = true then 770 else 768) subBad
    ∧ descriptor (Packet.ofRow (if false = true then 770 else 768) subBad) false = none := by decide +kernel

theorem wit_SubmitRows_0_1 : arm0.Takes (if false = true then 770 else 768) sub
    ∧ descriptor (Packet.ofRow (if false = true then 770 else 768) sub) false = some dA
    ∧ (∀ a ∈ arm0.areas, a.bound ≠ some dA.id) := by decide +kernel

theorem wit_SubmitRows_0_2 : g1.Takes (if false = true then 770 else 768) subA
    ∧ descriptor (Packet.ofRow (if false = true then 770 else 768) subA) false = some dA
    ∧ (checked g1 subA).admission (Packet.ofRow (if false = true then 770 else 768) subA) (g1.cmd (if false = true then 770 else 768) subA) false = Sum.inr a1
    ∧ subA.admitOnly = true := by decide +kernel

theorem wit_SubmitRows_0_3 : g1.Takes (if false = true then 770 else 768) sub
    ∧ descriptor (Packet.ofRow (if false = true then 770 else 768) sub) false = some dA
    ∧ (checked g1 sub).admission (Packet.ofRow (if false = true then 770 else 768) sub) (g1.cmd (if false = true then 770 else 768) sub) false = Sum.inr a1
    ∧ sub.admitOnly = false ∧ a1.rects = [] ∧ g1.seq.opened = [] ∧ g1.seq.reserve = false := by decide +kernel

end Submit

namespace Update

def q (op : Nat) (l : List Nat := []) := pk op 0xFFFF l

def sel1 : Selector := { Selector.default with trial := true, sequence := 5, active := 1 }

def tr : State := let s := lanesUp run0; { s with flash.sel := [none, some sel1] }

def uc := q 0x902

def us0 := q 0x900 [0,0,4095]

def us1 := q 0x900 [0,0,65011712]

def stg : State := { run0 with flash.staging := some (ctx1, 1024) }

def img1 := BankImage.initial 1

def img0 : BankImage := { content := List.replicate 1023 0 ++ [blockCheck (bankBase 1) (List.replicate 1023 0) ^^^ 1], keyOk := true, signatureOk := true, digestsOk := true }

def stgI : State := { run0 with flash.staging := some (ctx1, 14336) }

def ua := q 0x901

def fl1 := run0

def selNo : Selector := { Selector.default with validB := false }

def fl2 : State := { run0 with flash.sel := [some selNo, none] }

def uf := q 0x903

def tl (len : Nat) := q 0x103 [4, 0, 0, len]

def t4 : List Word := [0x104, 0, 0, 0, 0x4000]

def tl16 := tl 16

def tl6 := pk 0x103 1 [6 + 15 * 256, 0, 0, 528]

def t6 : List Word := [0x106, 256, 0, 0]

def beams (n : Nat) : List Word := [0x107, 0, 0, 0] ++ List.replicate n 0x08000800

def t7 : List Word := beams 32768

def tl7 := q 0x103 [7, 0, 0, 131088]

def trd := pk 0x104 1 [4, 0x100, 0, 64]

def ll (id n : Nat) := q 0x200 [id, 0, 0, n]

def ll0 := ll 0 1

def ll1 := ll 7 1

def sgl1 : List Word := [0, 0, 65536, 0]

def withLib : State := { run0 with libs := [lib1] }

def full64 : State := { run0 with libs := List.replicate 64 { lib1 with id := 8 } }

def load1 : Load := { ctx := ctx1, next := 0, total := 2, partBlock := false, badEntry := none, cell := none, cls := 0, bytes := 0 }

def libL : Library := { id := 7, cells := [], payload := 0, load := some load1 }

def sL : State := { run0 with libs := [libL] }

def bk0 : List Word := [0x31534744, 1, 0, 0, 7, 16, 0, 4200469979, 65537, 1, 65538, 0]

def bk1 : List Word := [0x31534744, 1, 1, 0, 7, 0, 0, 305813967]

def bkBad : List Word := []

def resOf (b : List Word) : LibBuild := match LibBuild.block ((rawBlock 0 b).payload.length + 1) 0 (rawBlock 0 b).payload { cells := [], cell := none, cls := 0, bytes := 0 } with | .inr r => r | .inl _ => { cells := [], cell := none, cls := 0, bytes := 0 }

def r0 := resOf bk0

theorem wit_UpdateConfirm_0 : run0.Takes 2306 uc ∧ run0.onTrial = false := by decide +kernel

/-- What is programmed of an image that is staged in n words. -/
def takenOf (x : BankImage) (n : Nat) : BankImage := { x with content := x.content.take n ++ List.replicate (n - x.content.length) 0 }

theorem wit_UpdateRows_1_1 : stg.flash.staging = some (ctx1, 1024)
    ∧ stagedBad (bankBase stg.inactiveBank) (takenOf img0 1024).content = some 0 := by
  refine ⟨rfl, ?_⟩
  have hl : img0.content.length = 1024 := by decide +kernel
  have hc : (takenOf img0 1024).content = img0.content := by
    simp only [takenOf, hl, Nat.sub_self, List.replicate_zero, List.append_nil]
    exact List.take_of_length_le (by omega)
  rw [stagedBad, hc, hl, show bankBase stg.inactiveBank = bankBase 1 by decide +kernel]
  have hb : flashBlock img0.content 0 = img0.content := List.take_of_length_le (Nat.le_of_eq hl)
  have ht : img0.content.take 1023 = List.replicate 1023 0 := by decide +kernel
  have hg : img0.content.getD 1023 0 = blockCheck (bankBase 1) (List.replicate 1023 0) ^^^ 1 := by rfl
  have hne : ∀ w : Word, (w ^^^ 1 == w) = false := by
    intro w
    rw [beq_eq_false_iff_ne]
    intro h
    have := congrArg (BitVec.getLsbD · 0) h
    simp at this
  have hp : blockPasses (bankBase 1) img0.content 0 = false := by
    simp only [blockPasses, hb, ht, hg, Nat.mul_zero, Nat.add_zero, hne, Bool.and_false]
  simp [hp]

theorem wit_UpdateRows_3_1 : tr.Takes 2307 uf ∧ tr.onTrial = true := by decide +kernel

theorem wit_UpdateRows_3_0 : run0.Takes 2307 uf ∧ run0.onTrial = false := by decide +kernel

theorem wit_UpdateRows_2_0 : fl2.Takes 2305 ua ∧ fl2.selectorOr.valid fl2.inactiveBank = false := by decide +kernel

theorem wit_UpdateRows_0_0 : run0.Takes 2304 us0 ∧ (us0.param 2 = 0 ∨ us0.param 2 % 4096 ≠ 0 ∨ 62 * 2 ^ 20 < us0.param 2) := by decide +kernel

theorem wit_UpdateRows_0_1_0 : stg.Takes 2304 us1 ∧ us1.param 2 ≠ 0 ∧ us1.param 2 % 4096 = 0 ∧ us1.param 2 ≤ 62 * 2 ^ 20
    ∧ stg.updating = true := by decide +kernel

theorem wit_UpdateRows_0_1_1 : tr.Takes 2304 us1 ∧ us1.param 2 ≠ 0 ∧ us1.param 2 % 4096 = 0 ∧ us1.param 2 ≤ 62 * 2 ^ 20
    ∧ tr.updating = false ∧ tr.onTrial = true := by decide +kernel

theorem wit_UpdateRows_0_1_2 : run0.Takes 2304 us1 ∧ us1.param 2 ≠ 0 ∧ us1.param 2 % 4096 = 0 ∧ us1.param 2 ≤ 62 * 2 ^ 20
    ∧ run0.updating = false ∧ run0.onTrial = false := by decide +kernel

theorem wit_UpdateRows_2_1 : fl1.Takes 2305 ua ∧ fl1.selectorOr.valid fl1.inactiveBank = true
    ∧ fl1.flash.banks.getD fl1.inactiveBank none = some img1 ∧ fl1.imageStatus fl1.inactiveBank img1 = none
    ∧ headVersionOf img1 = none ∧ fl1.hif.busy = none := by
  have hb : fl1.inactiveBank = 1 := by decide +kernel
  rw [hb]
  refine ⟨by decide +kernel, by decide +kernel, rfl, imageStatus_initial fl1 1 rfl, ?_, by decide +kernel⟩
  rw [headVersionOf, headEntry, img1, bankManifest_initial]
  decide +kernel

theorem wit_UpdateRows_1_2 : stgI.flash.staging = some (ctx1, 14336)
    ∧ stagedBad (bankBase stgI.inactiveBank) (takenOf img1 14336).content = none
    ∧ stgI.imageStatus stgI.inactiveBank (takenOf img1 14336) = none := by
  have hl : img1.content.length = 14336 := (flashBlocks_length _ initialBlocks_length _).trans rfl
  have hx : takenOf img1 14336 = img1 := by
    have hc : img1.content.take 14336 = img1.content := List.take_of_length_le (by omega)
    simp only [takenOf, hl, Nat.sub_self, List.replicate_zero, List.append_nil, hc]
  have hb : stgI.inactiveBank = 1 := by decide +kernel
  refine ⟨rfl, ?_, ?_⟩
  · rw [hx, hb, stagedBad, hl, List.find?_eq_none]
    intro k hk
    have hp : blockPasses (bankBase 1) img1.content k = true :=
      blockPasses_flashBlocks initialBlocks initialBlocks_length (bankBase 1) k (List.mem_range.1 hk)
    simp [hp]
  · rw [hx, hb]
    exact imageStatus_initial stgI 1 rfl

theorem wit_TableRows_1 : run0.Takes 260 trd ∧ tableNamed (trd.param 0 % 256) (trd.param 0 / 256 % 65536) = true := by decide +kernel

theorem wit_TableRows_0_0 : run0.Takes 259 tl16 ∧ (tl16.isDev = true ∨ tl16.param 0 % 256 = 6)
    ∧ tableNamed (tl16.param 0 % 256) (tl16.param 0 / 256 % 65536) = true
    ∧ tableCheck run0.beams (tl16.param 0 % 256) (tl16.param 3) (takeWords t4 (tableLength run0.beams (tl16.param 0 % 256) (wordAt t4 1) / 4)) = some 4294967295 := by decide +kernel

theorem wit_TableRows_0_1 : run0.Takes 259 tl6 ∧ (tl6.isDev = true ∨ tl6.param 0 % 256 = 6)
    ∧ tableNamed (tl6.param 0 % 256) (tl6.param 0 / 256 % 65536) = true
    ∧ tableCheck run0.beams (tl6.param 0 % 256) (tl6.param 3) (takeWords t6 (tableLength run0.beams (tl6.param 0 % 256) (wordAt t6 1) / 4)) = none
    ∧ tl6.param 0 % 256 ≠ 7 := by decide +kernel

theorem takeWords_beams (n : Nat) : takeWords (beams n) (n + 4) = beams n := by
  have hl : (beams n).length = n + 4 := by simp [beams]
  rw [takeWords, hl, List.take_of_length_le (Nat.le_of_eq hl), Nat.sub_self]
  exact List.append_nil _

/-- A beam table of gain 1.0 passes every condition. -/
theorem tableCheck_beams (n : Nat) : tableCheck (2 * n) 7 (16 + 2 * (2 * n)) (beams n) = none := by
  have hh : ∀ v ∈ halves ((beams n).drop 4), v = 0x800 := by
    intro v hv
    simp only [beams, List.cons_append, List.nil_append, List.drop_succ_cons, List.drop_zero, halves, List.mem_flatMap] at hv
    obtain ⟨w, hw, hv⟩ := hv
    rw [List.eq_of_mem_replicate hw] at hv
    revert v
    decide
  have hz : ∀ p : Nat → Nat → Bool, (∀ i, p i 0x800 = false) → firstHalf 16 p (halves ((beams n).drop 4)) = none := by
    intro p hp
    rw [firstHalf, List.find?_eq_none.2, Option.map_none]
    intro x hx
    rw [hh x.1 (List.fst_mem_of_mem_zipIdx hx), hp]
    exact Bool.false_ne_true
  have h0 : wordAt (beams n) 0 = 0x107 ∧ wordAt (beams n) 1 = 0 ∧ wordAt (beams n) 2 = 0 ∧ wordAt (beams n) 3 = 0 := by
    simp [wordAt, beams]
  simp [tableCheck, h0, tableLength, tableField, tableReserved, tableContent, hz, orElseFind]

theorem wit_TableRows_0_2 : run0.Takes 259 tl7 ∧ (tl7.isDev = true ∨ tl7.param 0 % 256 = 6)
    ∧ tableNamed (tl7.param 0 % 256) (tl7.param 0 / 256 % 65536) = true
    ∧ tableCheck run0.beams (tl7.param 0 % 256) (tl7.param 3) (takeWords t7 (tableLength run0.beams (tl7.param 0 % 256) (wordAt t7 1) / 4)) = none
    ∧ tl7.param 0 % 256 = 7 := by
  have hb : run0.beams = 65536 := by decide +kernel
  have hp : tl7.param 0 % 256 = 7 ∧ tl7.param 3 = 131088 := by decide +kernel
  refine ⟨by decide +kernel, by decide +kernel, by decide +kernel, ?_, hp.1⟩
  rw [hp.1, hp.2, hb]
  exact (congrArg _ (takeWords_beams 32768)).trans (tableCheck_beams 32768)

theorem wit_LibraryRows_0_0 : run0.Takes 512 ll0 ∧ (ll0.param 0 = 0 ∨ ll0.param 0 = 4294967295 ∨ ll0.param 3 = 0) := by decide +kernel

theorem wit_LibraryRows_0_1_0 : withLib.Takes 512 ll1 ∧ ll1.param 0 ≠ 0 ∧ ll1.param 0 ≠ 4294967295 ∧ ll1.param 3 ≠ 0
    ∧ (withLib.libs.any fun l => l.id == ll1.param 0) = true := by decide +kernel

theorem wit_LibraryRows_0_1_1 : full64.Takes 512 ll1 ∧ ll1.param 0 ≠ 0 ∧ ll1.param 0 ≠ 4294967295 ∧ ll1.param 3 ≠ 0
    ∧ (full64.libs.any fun l => l.id == ll1.param 0) = false ∧ 64 ≤ full64.libs.length := by decide +kernel

theorem wit_LibraryRows_1_0 : sL.running = true ∧ List.find? (fun x => x.id == libL.id) sL.libs = some libL
    ∧ libL.load = some load1 ∧ load1.next < load1.total ∧ (rawBlock 0 bkBad).good = false := by decide +kernel

theorem wit_LibraryRows_0_1_2 : run0.Takes 512 ll1 ∧ ll1.param 0 ≠ 0 ∧ ll1.param 0 ≠ 4294967295 ∧ ll1.param 3 ≠ 0
    ∧ (run0.libs.any fun l => l.id == ll1.param 0) = false ∧ run0.libs.length < 64 ∧ 65536 ≤ (sgTotal (ll1.param 3) 0 0 sgl1).1 := by decide +kernel

theorem wit_LibraryRows_1_1 : sL.running = true ∧ List.find? (fun x => x.id == libL.id) sL.libs = some libL
    ∧ libL.load = some load1 ∧ load1.next < load1.total ∧ (rawBlock 0 bk1).good = true ∧ (rawBlock 0 bk1).lib = libL.id
    ∧ (rawBlock 0 bk1).seq ≠ load1.next := by decide +kernel

/-- The state once block 0 has joined the library. -/
def loaded : State :=
  { sL.hostRead 65536 with
    libs := sL.libs.map fun x =>
      if x.id = libL.id then
        { libL with
          cells := r0.cells, payload := libL.payload + 4 * (rawBlock 0 bk0).payload.length
          load := some { load1 with next := load1.next + 1, cell := r0.cell, cls := r0.cls, bytes := r0.bytes } }
      else x }

theorem wit_LibraryRows_1_2 : sL.running = true ∧ List.find? (fun x => x.id == libL.id) sL.libs = some libL
    ∧ libL.load = some load1 ∧ load1.next < load1.total ∧ (rawBlock 0 bk0).good = true ∧ (rawBlock 0 bk0).lib = libL.id
    ∧ (rawBlock 0 bk0).seq = load1.next ∧ load1.next + 1 < load1.total
    ∧ LibBuild.block ((rawBlock 0 bk0).payload.length + 1) 0 (rawBlock 0 bk0).payload (({ cells := libL.cells, cell := load1.cell, cls := load1.cls, bytes := load1.bytes } : LibBuild)) = Sum.inr r0
    ∧ loaded.libFits = true := by decide +kernel

end Update

namespace Staging

def q (op : Nat) (l : List Nat := []) := pk op 0xFFFF l

def cr := q 0x102 [64]

def gb (ch : Nat) := q 0x202 [9, ch, 5, 0]

def sS := runs .armed

def dB : DmaD := { DmaD.reset false with bound := some 1 }

def sS2 : State := { sS with dmaD := sS.dmaD.set 2 dB }

def sS3 : State := { sS with areas := [area1, area1] }

def ch0 := DmaD.reset false

def chF := DmaD.reset true

def gb0 := gb 0

def gb6 := gb 6

def gb2 := gb 2

def padded (ws : List Word) : List Word := ws ++ List.replicate (16384 - ws.length) 0

def full (ws : List Word) : List Byte := wordsBytes (padded ws)

def blkW : List Word := [0x31534744, 257, 2, 0, 7, 0, 0, 3724499613]

def arA (w : Bool) (e : Nat) (ws : List Word) : Area := { area1 with bytes := full ws, waiting := w, expect := e, root := some root1, lowest := 1, first := 0 }

def ar0 := arA true 3 []

def s0 : State := { sS with areas := [ar0, Area.reset] }

def root2 : Root := { root1 with streamBlocks := 9 }

def area2 (w : Bool) (e : Nat) (ws : List Word) : Area := { Area.reset with bound := some 9, blocks := [{ block1 with payload := block1.payload.set 8 9 }], bytes := full ws, waiting := w, expect := e, root := some root2, lowest := 1, first := 0 }

def ar1 := area2 true 3 blkW

def ar2 := area2 true 2 blkW

def s1 : State := { sS with areas := [ar1, Area.reset] }

def s2 : State := { sS with areas := [ar2, Area.reset] }

def ent1 : LedgerEntry := { stripe := 8, cause := 1, unconfirmed := false, makeup := false, pass := 0, group := 0, groups := 1, first := 0, count := 8, epoch := 0, lane := 0, ns := 0, seconds := 0 }

def sl : State := { run0 with seq.ledger := [ent1, ent1, ent1], seq.first := 7 }

def lr (i n : Nat) := q 0x303 [i, n, 0, 1]

def lr1 := lr 10 1

def lr2 := lr 8 5

def ls1 := q 0x304 [2, 1]

def ls0 := q 0x304 [2, 0]

def t0 := DmaT.reset

def tL : DmaT := { t0 with source := .chord }

def slT : State := { sl with dmaT := sl.dmaT.set 2 tL }

def slS : State := { sl with dmaT := sl.dmaT.set 2 { t0 with source := .ledger }, seq.stream := some 2 }

def abA := q 0x301 [0xFFFFFFFF]

def arm := runs .armed

theorem wit_StagingRows_1_0 : sS.Takes 514 gb6 ∧ sS.dmaD[gb6.param 1 % 8]? = some chF ∧ chF.firmware = true := by decide +kernel

theorem wit_StagingRows_1_1 : sS2.Takes 514 gb2 ∧ sS2.dmaD[gb2.param 1 % 8]? = some dB ∧ dB.firmware = false
    ∧ dB.bound.isSome = true := by decide +kernel

theorem wit_StagingRows_1_2 : sS3.Takes 514 gb0 ∧ sS3.dmaD[gb0.param 1 % 8]? = some ch0 ∧ ch0.firmware = false
    ∧ ch0.bound = none ∧ (∀ a ∈ sS3.areas, a.bound.isSome = true) := by decide +kernel

theorem wit_StagingRows_1_3 : sS.Takes 514 gb0 ∧ sS.dmaD[gb0.param 1 % 8]? = some ch0 ∧ ch0.firmware = false ∧ ch0.bound = none
    ∧ List.findIdx? (fun a => a.bound.isNone) sS.areas = some 0 := by decide +kernel

theorem wit_StagingRows_0 : run0.Takes 258 cr ∧ 64 ≤ cr.param 0 ∧ cr.param 0 ≤ 2048 ∧ cr.param 0 % 64 = 0
    ∧ run0.seq.stripes = [] ∧ (∀ d ∈ run0.dies, d.retired = false → ↑run0.libUsed ≤ d.libSpace (cr.param 0)) := by decide +kernel

theorem padded_length (ws : List Word) (h : ws.length ≤ 16384) : (padded ws).length = 16384 := by
  rw [padded, List.length_append, List.length_replicate]
  omega

theorem wit_StagingRows_2_0 : s0.running = true ∧ s0.areas[0]? = some ar0 ∧ ar0.bound.isSome = true ∧ ar0.held = none
    ∧ 65536 ≤ ar0.bytes.length ∧ (rawBlock 1 (bytesWords ar0.bytes)).good = false ∧ ar0.waiting = true := by
  have he : ar0.bytes = wordsBytes (padded []) := rfl
  have hr : rawBlock 1 (padded []) = { seq := 0, lib := 0, payload := [], good := false } := by decide +kernel
  refine ⟨by decide +kernel, rfl, ?_⟩
  rw [he, bytesWords_wordsBytes, length_wordsBytes, padded_length [] (by decide), hr]
  decide +kernel

theorem wit_StagingRows_2_2 : s2.running = true ∧ s2.areas[0]? = some ar2 ∧ ar2.bound.isSome = true ∧ ar2.held = none
    ∧ 65536 ≤ ar2.bytes.length ∧ (rawBlock 1 (bytesWords ar2.bytes)).good = true ∧ (∀ x ∈ ar2.blocks, x.seq < ar2.lowest)
    ∧ ar2.root.isSome = true ∧ ar2.lowest ≤ (rawBlock 1 (bytesWords ar2.bytes)).seq
    ∧ (rawBlock 1 (bytesWords ar2.bytes)).seq = ar2.expect
    ∧ (∀ (e : ℕ), s2.streamEnd ar2 = some e → (rawBlock 1 (bytesWords ar2.bytes)).seq < e)
    ∧ (∀ (r : RootRec), ar2.root? = some r → (rawBlock 1 (bytesWords ar2.bytes)).lib = r.lib) := by
  have he : ar2.bytes = wordsBytes (padded blkW) := rfl
  have hr : rawBlock 1 (padded blkW) = { seq := 2, lib := 7, payload := [], good := true } := by decide +kernel
  refine ⟨by decide +kernel, rfl, ?_⟩
  rw [he, bytesWords_wordsBytes, length_wordsBytes, padded_length blkW (by decide), hr]
  decide +kernel

theorem wit_StagingRows_2_1 : s1.running = true ∧ s1.areas[0]? = some ar1 ∧ ar1.bound.isSome = true ∧ ar1.held = none
    ∧ 65536 ≤ ar1.bytes.length ∧ (rawBlock 1 (bytesWords ar1.bytes)).good = true ∧ (∀ x ∈ ar1.blocks, x.seq < ar1.lowest)
    ∧ ar1.root.isSome = true ∧ ar1.lowest ≤ (rawBlock 1 (bytesWords ar1.bytes)).seq ∧ ar1.waiting = true
    ∧ (rawBlock 1 (bytesWords ar1.bytes)).seq ≠ ar1.expect
    ∧ (∀ (e : ℕ), s1.streamEnd ar1 = some e → (rawBlock 1 (bytesWords ar1.bytes)).seq < e)
    ∧ (∀ (r : RootRec), ar1.root? = some r → (rawBlock 1 (bytesWords ar1.bytes)).lib = r.lib) := by
  have he : ar1.bytes = wordsBytes (padded blkW) := rfl
  have hr : rawBlock 1 (padded blkW) = { seq := 2, lib := 7, payload := [], good := true } := by decide +kernel
  refine ⟨by decide +kernel, rfl, ?_⟩
  rw [he, bytesWords_wordsBytes, length_wordsBytes, padded_length blkW (by decide), hr]
  decide +kernel

theorem wit_LedgerRows_4 : slS.Takes 772 ls0 ∧ ls0.param 1 % 2 = 0 := by decide +kernel

theorem wit_LedgerRows_7 : arm.Takes 769 abA ∧ abA.param 0 = 4294967295 ∧ arm.seq.stripes = [] := by decide +kernel

theorem wit_LedgerRows_5 : sl.Takes 773 lr1 ∧ indexAtOrBefore sl.ledgerNext (lr1.param 0) = true := by decide +kernel

theorem wit_LedgerRows_0 : sl.Takes 771 lr1 ∧ sl.seq.ledger.length ≤ sl.ledgerPlace (lr1.param 0) := by decide +kernel

theorem wit_LedgerRows_1 : sl.Takes 771 lr2 ∧ sl.ledgerPlace (lr2.param 0) < sl.seq.ledger.length ∧ 0 < lr2.param 1 := by decide +kernel

theorem wit_LedgerRows_3 : sl.Takes 772 ls1 ∧ ls1.param 1 % 2 = 1 ∧ sl.dmaT[ls1.param 0 % 8]? = some t0
    ∧ t0.source = TSource.none := by decide +kernel

theorem wit_LedgerRows_2 : slT.Takes 772 ls1 ∧ ls1.param 1 % 2 = 1 ∧ slT.dmaT[ls1.param 0 % 8]? = some tL
    ∧ tL.source ≠ TSource.none ∧ tL.source ≠ TSource.ledger := by decide +kernel

theorem wit_LedgerRows_6 : sl.Takes 773 lr2 ∧ sl.seq.first < 2 ^ 32 ∧ sl.seq.ledger.length ≤ ledgerSize
    ∧ sl.ledgerPlace (lr2.param 0) < sl.seq.ledger.length ∧ sl.seq.stripes = [] := by decide +kernel

end Staging

namespace Sequencer

def g1 := staged .armed

def stP : Stripe := { stripe1 with phase := .prefill, prefill := 64, rendered := 1 }

def sP : State := let s := withStripe stP g1
  { s with dies := s.dies.map fun d => { d with con.lost := [(9,0,0,false)], lanes := d.lanes.map fun l => { l with headWarn := true } } }

def stR : Stripe := { stripe1 with phase := .ready, rendered := 1 }

def sR := withStripe stR g1

def sRt : State := { sR with seq.thermPause := true, seq.headPause := true }

def ax (_ : Nat) (x : Axis) : Axis := { x with state := .idle, softMin := -2^62, softMax := 2^62, velLim := 1000, accLim := 1000, faultDec := 1000, jerkLim := 1000, slots := List.replicate 8 { vel := 10, acc := 10, dec := 10, jerk := 10 }, inPosition := true }

def moves (s : State) : State := { s with
  arc.axes := s.arc.axes.zipIdx.map fun x => ax x.2 x.1
  locus := { s.locus with locked := true, axes := s.locus.axes.zipIdx.map fun x => { x.1 with primary := some x.2, referenced := true, pitch := 65536 * 256 }, sources := s.locus.sources.map fun x => { x with cfg := { x.cfg with mode := 1 }, valid := true } } }

def stA : Stripe := { stR with startMode := 2, paused := true, passStart := some [] }

def sA := moves (withStripe stA g1)

def tr := (sA.travel stA (sA.scanVelocity 10)).getD (0,0)

def ta := tr.1

def tb := tr.2

def sA2 : State := sA.modAxis 0 fun x => { x with cmd := ta }

def gen1 : Gen := { next := 4, total := 8, lastFire := none, lastCross := some 1000 }

def stG : Stripe := { stR with phase := .running, executing := true, paused := true, passStart := some [] }

def sG : State := let s := moves (withStripe stG (staged .writing)); { s with locus.gen := some gen1, locus.vel := 256, locus.est := 2^50, perim.gateClosed := false }

def sGb : State := { sG with locus.vel := 0 }

def genE : Gen := { gen1 with next := 8 }

def sGe : State := { sG with locus.gen := some genE }

def stE : Stripe := { stG with ended := true, pass := 1 }

def sE : State := { withStripe stE sG with locus.gen := none }

def rec1 : Rec := { stripe := 9, pass := 1, shot := passShots 4352 - 1, group := 0, epoch := 0, codes := [], sent := 1, frames := [], bad := false, placed := true, rejected := false, committed := true, dark := false }

def sE2 : State := sE.modLane 0 fun l => { l with recs := [rec1] }

theorem wit_SequencerRows_6_1 : sE.seq.stripes = [stE] ∧ stE.executing = true ∧ stE.ended = true ∧ sE.reportsIn stE = true := by decide +kernel

theorem wit_SequencerRows_6_0 : sE2.seq.stripes = [stE] ∧ stE.executing = true ∧ stE.ended = true ∧ sE2.reportsIn stE = false := by decide +kernel

theorem wit_SequencerRows_1_1 : sR.active = true ∧ sR.seq.stripes = [stR] ∧ stR.phase = Phase.ready ∧ stR.pass = 0
    ∧ stR.paused = false ∧ sR.seq.thermPause = false := by decide +kernel

theorem wit_SequencerRows_1_0 : sRt.active = true ∧ sRt.seq.stripes = [stR] ∧ stR.phase = Phase.ready ∧ stR.pass = 0
    ∧ stR.paused = false ∧ sRt.seq.thermPause = true := by decide +kernel

theorem wit_SequencerRows_3_0 : sGb.active = true ∧ sGb.locus.gen = some gen1 ∧ sGb.seq.stripes = [stG] ∧ gen1.next < gen1.total
    ∧ sGb.perim.gateClosed = false ∧ sGb.pulseDue stG gen1.next 1500 = false := by decide +kernel

theorem wit_SequencerRows_5 : sGe.locus.gen = some genE ∧ sGe.seq.stripes = [stG] ∧ stG.executing = true
    ∧ stG.phase = Phase.running ∧ genE.total ≤ genE.next ∧ sGe.seq.opened = [] ∧ sGe.seq.reserve = false := by decide +kernel

theorem wit_SequencerRows_3_1 : sG.active = true ∧ sG.locus.gen = some gen1 ∧ sG.seq.stripes = [stG] ∧ gen1.next < gen1.total
    ∧ sG.perim.gateClosed = false ∧ sG.pulseDue stG gen1.next 1500 = true ∧ gen1.lastCross = some 1000 ∧ 1500 < 1000 + 800 := by decide +kernel

theorem wit_SequencerRows_0 : sP.active = true ∧ sP.seq.stripes = [stP] ∧ stP.phase = Phase.prefill ∧ stP.pass < stP.rendered
    ∧ sP.prefilled stP = true ∧ stP.pass = 0 ∧ (sP.lanes.any fun l => l.headWarn && !l.retired) = true
    ∧ sP.therm.throttle = false ∧ (∀ x ∈ ([] : List Stripe), x.id ≠ stP.id) := by decide +kernel

theorem wit_SequencerRows_4 : sG.active = true ∧ sG.locus.gen = some gen1 ∧ sG.seq.stripes = [stG] ∧ sG.perim.gateClosed = false
    ∧ sG.pulseDue stG gen1.next 1800 = true ∧ 0 < gen1.next ∧ gen1.next < 8 ∧ gen1.next < gen1.total
    ∧ gen1.total ≤ gen1.next + 4 ∧ gen1.lastFire = none ∧ (∀ (a : ℕ), gen1.lastCross = some a → a + 800 ≤ 1800)
    ∧ (∀ d ∈ sG.dies, ∀ l ∈ d.lanes, l.recs = []) ∧ sG.seq.opened = [] ∧ sG.locus.markEvery = 0 ∧ sG.seq.reserve = false := by decide +kernel

theorem wit_SequencerRows_2_0 : sA.active = true ∧ sA.seq.stripes = [stA] ∧ stA.phase = Phase.ready ∧ stA.paused = true
    ∧ sA.passHeard stA = true ∧ sA.locus.gen = none ∧ sA.arc.scanVel = 0 ∧ sA.seq.reserve = false ∧ min stA.rate sA.maxRate ≠ 0
    ∧ sA.axesReady stA = true ∧ stA.pass = 0 ∧ stA.startMode = 2 ∧ stA.triggered = false
    ∧ sA.travel stA (sA.scanVelocity (min stA.rate sA.maxRate)) = some (ta, tb) ∧ (sA.axis 0).within ta = true
    ∧ (sA.axis 0).within tb = true ∧ (sA.axis 1).within stA.stepPos = true ∧ 2 ≤ sA.arc.axes.length
    ∧ ((sA.axis 0).cmd ≠ ta ∨ (sA.axis 0).vel ≠ 0 ∨ (sA.axis 1).cmd ≠ stA.stepPos ∨ (sA.axis 1).vel ≠ 0 ∨ (sA.axis 1).inPosition = false) := by decide +kernel

theorem wit_SequencerRows_2_1 : sA2.active = true ∧ sA2.seq.stripes = [stA] ∧ stA.phase = Phase.ready ∧ stA.paused = true
    ∧ sA2.passHeard stA = true ∧ sA2.locus.gen = none ∧ sA2.arc.scanVel = 0 ∧ sA2.seq.reserve = false
    ∧ min stA.rate sA2.maxRate ≠ 0 ∧ sA2.axesReady stA = true ∧ stA.pass = 0 ∧ stA.startMode = 2 ∧ stA.triggered = false
    ∧ sA2.travel stA (sA2.scanVelocity (min stA.rate sA2.maxRate)) = some (ta, tb) ∧ (sA2.axis 0).within ta = true
    ∧ (sA2.axis 0).within tb = true ∧ (sA2.axis 1).within stA.stepPos = true ∧ 2 ≤ sA2.arc.axes.length ∧ (sA2.axis 0).cmd = ta
    ∧ (sA2.axis 0).vel = 0 ∧ (sA2.axis 1).cmd = stA.stepPos ∧ (sA2.axis 1).vel = 0 ∧ (sA2.axis 1).inPosition = true := by decide +kernel

end Sequencer

namespace Motion

def ax (st : AxisState) (x : Axis) : Axis := { x with state := st, softMin := -2^60, softMax := 2^60, velLim := 1000, accLim := 1000, faultDec := 1000, jerkLim := 1000, slots := List.replicate 8 { vel := 10, acc := 10, dec := 10, jerk := 10 }, inPosition := true }

def axes (st : AxisState) (s : State) : State := { s with
  arc.axes := s.arc.axes.map (ax st)
  locus := { s.locus with locked := true, axes := s.locus.axes.zipIdx.map fun x => { x.1 with primary := some x.2, referenced := true, pitch := 65536 * 256 }, sources := s.locus.sources.map fun x => { x with cfg := { x.cfg with mode := 1 }, valid := true } } }

def sI := axes .idle run0

def sD := axes .disabled run0

def sD0 : State := { run0 with arc.axes := run0.arc.axes.map fun x => { x with state := .disabled } }

def a400 (a : Nat) (l : List Nat) := pk 0x400 a l

def pc1 := a400 3 [0,0,0,0,100,0x10001,10,10,10,10,256,1,0x10001]

def y1 := (axisConfig (sD0.axis 3) 3 pc1).getD Axis.reset

def pc0 := a400 3 [0,0,0,0,100,0x10001,0,10,10,10,256,1,0x10001]

def pp := pk 0x401 3 [7, 1000, 1000, 1000, 1000]

def mv := pk 0x403 3 [5000, 0, 7]

def mvFar := pk 0x403 3 [0, 0x7FFFFFFF, 7]

def sM := axes .moving run0

def hm := pk 0x402 3 [6, 10, 10, 10, 5, 0, 0]

def sp := pk 0x404 3 [0]

def sSp : State := { sI with arc.spRunning := true, arc.spCycle := 5 }

def okW : List Word := let h : List Word := [0x501A2, 4, 0]; h ++ [crcWords (spSeed 4 ^^^ 0x80000000) h]

def sSp1 : State := { sSp with arc.spBad := 1 }

def sC : State := sM.modAxis 3 fun x => { x with ctx := some ctx1 }

def h0 : Homing := { method := 2, positive := true, search := 10, creep := 5, dec := 5, refValue := 0, backOff := 0, phase := .search, tripped := false, start := 0, before := 0 }

def sH : State := (axes .homing run0).modAxis 3 fun x => { x with homing := some h0, ctx := some ctx1 }

theorem wit_AxisCommands_2_0 : sD.Takes 1027 mv ∧ (sD.axis mv.target).state = AxisState.disabled := by decide +kernel

theorem wit_AxisCommands_0_0 : sD0.Takes 1024 pc0 ∧ axisConfig (sD0.axis pc0.target) pc0.target pc0 = none := by decide +kernel

theorem wit_AxisCommands_1 : sI.Takes 1025 pp ∧ pp.param 0 < 8 ∧ (sI.axis pp.target).state = AxisState.idle := by decide +kernel

theorem wit_AxisCommands_4 : sM.Takes 1028 sp ∧ sp.isDev = false ∧ sp.param 0 = 0 ∧ (sM.axis sp.target).state = AxisState.moving := by decide +kernel

theorem wit_AxisCommands_2_1 : sM.Takes 1027 mv
    ∧ ((sM.axis mv.target).busy = true ∨ (sM.axis mv.target).state = AxisState.sequencer) := by decide +kernel

theorem wit_AxisCommands_0_1 : run0.Takes 1024 pc1
    ∧ axisConfig (run0.axis pc1.target) pc1.target pc1 = some ((axisConfig (run0.axis 3) 3 pc1).getD Axis.reset)
    ∧ (run0.axis pc1.target).state = AxisState.absent := by decide +kernel

theorem wit_AxisCommands_0_2 : sD0.Takes 1024 pc1 ∧ axisConfig (sD0.axis pc1.target) pc1.target pc1 = some y1
    ∧ (sD0.axis pc1.target).state = AxisState.disabled ∧ (sD0.axis pc1.target).velLim = 0 ∧ (pc1.target < 2 → sD0.arc.spBad < 2)
    ∧ (∀ b < 10, b ≠ pc1.target → ∀ d ∈ (sD0.axis b).dins, d ∉ y1.dins) := by decide +kernel

theorem wit_AxisCommands_3 : sI.Takes 1026 hm ∧ hm.param 0 = 6 ∧ (sI.axis hm.target).state = AxisState.idle ∧ 0 < hm.param 1
    ∧ 0 < hm.param 2 ∧ 0 < hm.param 3 ∧ hm.param 1 ≤ (sI.axis hm.target).velLim ∧ hm.param 2 ≤ (sI.axis hm.target).velLim
    ∧ hm.param 3 ≤ (sI.axis hm.target).faultDec ∧ 0 < ((sI.axis hm.target).slots.getD 0 Slot.reset).jerk
    ∧ (sI.axis hm.target).posDin = none := by decide +kernel

theorem wit_AxisCommands_2_2_0 : sI.Takes 1027 mvFar ∧ (sI.axis mvFar.target).state = AxisState.idle ∧ mvFar.param 2 < 8
    ∧ 0 < ((sI.axis mvFar.target).slots.getD (mvFar.param 2) Slot.reset).vel
    ∧ 0 < ((sI.axis mvFar.target).slots.getD (mvFar.param 2) Slot.reset).acc
    ∧ 0 < ((sI.axis mvFar.target).slots.getD (mvFar.param 2) Slot.reset).dec
    ∧ 0 < ((sI.axis mvFar.target).slots.getD (mvFar.param 2) Slot.reset).jerk ∧ (sI.locusAxis mvFar.target).referenced = true
    ∧ (signed 64 (mvFar.param64 0) < (sI.axis mvFar.target).softMin ∨ (sI.axis mvFar.target).softMax < signed 64 (mvFar.param64 0)) := by decide +kernel

theorem wit_AxisCommands_2_2_1 : sI.Takes 1027 mv ∧ (sI.axis mv.target).state = AxisState.idle ∧ mv.param 2 < 8
    ∧ 0 < ((sI.axis mv.target).slots.getD (mv.param 2) Slot.reset).vel
    ∧ 0 < ((sI.axis mv.target).slots.getD (mv.param 2) Slot.reset).acc
    ∧ 0 < ((sI.axis mv.target).slots.getD (mv.param 2) Slot.reset).dec
    ∧ 0 < ((sI.axis mv.target).slots.getD (mv.param 2) Slot.reset).jerk ∧ (sI.locusAxis mv.target).referenced = true
    ∧ (sI.axis mv.target).softMin ≤ signed 64 (mv.param64 0) ∧ signed 64 (mv.param64 0) ≤ (sI.axis mv.target).softMax
    ∧ sI.limitActive mv.target true = false ∧ sI.limitActive mv.target false = false := by decide +kernel

theorem wit_SetpointPort_3_1 : sI.arc.spRunning = false := by decide +kernel

theorem wit_SetpointPort_5 : sSp.arc.spRunning = true ∧ sSp.arc.spBad = 0 := by decide +kernel

theorem wit_SetpointPort_8 : (sM.axis 3).enabled = true := by decide +kernel

theorem wit_SetpointPort_7 : (sD.axis 3).enabled = false := by decide +kernel

theorem wit_SetpointPort_10 : (sH.axis 3).state = AxisState.homing := by decide +kernel

theorem wit_SetpointPort_1 : sM.domOn 0 7 = true ∧ 3 < 10 ∧ (sM.axis 3).state = AxisState.moving ∧ 3 < sM.arc.axes.length := by decide +kernel

theorem wit_SetpointPort_6 : sSp1.arc.spRunning = true ∧ sSp1.arc.spBad = 1 ∧ (sSp1.axis 0).state ≠ AxisState.sequencer
    ∧ (sSp1.axis 1).state ≠ AxisState.sequencer := by decide +kernel

theorem wit_SetpointPort_0 : sI.domOn 0 7 = true ∧ (∀ a < 10, (sI.axis a).state = AxisState.idle ∧ (sI.axis a).vel = 0
    ∧ (sI.axis a).acc = 0 ∧ (sI.axis a).homing = none) ∧ (∀ st ∈ sI.seq.stripes, st.phase ≠ Phase.ret) := by decide +kernel

theorem wit_SetpointPort_9 : (sC.axis 3).state = AxisState.moving ∧ (sC.axis 3).cmd = (sC.axis 3).target ∧ (sC.axis 3).vel = 0
    ∧ |sC.axisPos 3 - (sC.axis 3).cmd| ≤ ↑(sC.axis 3).inPosWin * 65536 ∧ (sC.axis 3).ctx = some ctx1 := by decide +kernel

theorem wit_SetpointPort_4 : sSp.arc.spRunning = true ∧ 0 < sSp.arc.spCycle ∧ okW.length = 4 ∧ wordAt okW 0 = 328098
    ∧ wordAt okW 1 = (sSp.arc.spCycle - 1) % 2 ^ 32 ∧ wordAt okW 2 = 0
    ∧ okW.getD 3 0 = crcWords (spSeed ((sSp.arc.spCycle - 1) % 2 ^ 32) ^^^ 2147483648) (List.take 3 okW) := by decide +kernel

end Motion

namespace Locus

def q (op : Nat) (l : List Nat := []) := pk op 0xFFFF l

def src (m : Nat) (s : State) : State := { s with locus.sources := s.locus.sources.map fun x => { x with cfg := { x.cfg with mode := m, ampHigh := 2^40, bits := 12 }, valid := true } }

def s1 := src 1 run0

def s3 := src 3 run0

def s3c : State := s3.modSource 3 fun x => { x with cycling := true, cycleAt := 1000 }

def dbits : List Bool := let d := [true,false,true,false,true,false,true,false,true,false,true,false, true, true]; let c := 63 - biss6 d; d ++ (List.range 6).map fun i => bit c (5 - i)

def s1z : State := s1.modSource 11 fun x => { x with zLevel := true, cfg := { x.cfg with zTimeout := 5, reference := 0 } }

def s1b : State := s1.modSource 11 fun x => { x with bad := true, valid := false }

def prim (s : State) : State := { s with locus.axes := s.locus.axes.map fun x => { x with primary := some 0, secondary := some 1, referenced := true }, locus.lockWin := 10, locus.unlockWin := 20 }

def sp : State := (prim s1).modSource 0 fun x => { x with lastEdge := some 9000 }

def sdv : State := sp.modSource 0 fun x => { x with pos := 70000 * 65536 }

def sdn : State := { s1 with locus.dins := s1.locus.dins.map fun x => { x with stuckMs := 4, value := true } }

def cs15 := pk 0x406 15 [0,0,0,0]

def cs3 := pk 0x406 3 [5,0,0x32,0]

def cs2 := pk 0x406 3 [5,0,0x22,0]

def spU : State := { sp with locus.axes := sp.locus.axes.map fun x => { x with referenced := false } }

def lc3 := q 0x405 [3 + 15 * 256, 5, 6, 0x00070008]

def lc5 := q 0x405 [5, 16000, 0x00100005, 3]

def sL : State := { runs .standby with ctl.ready := false, ctl.boot := .loading }

def s2w : State := { run0 with locus.sources := run0.locus.sources.map fun x => { x with cfg := { x.cfg with mode := 2, ampLow := 10, ampHigh := 20 }, valid := true } }

theorem wit_LocusSources_6_3 : s1z.locusOn = true ∧ 11 < 12 ∧ (s1z.source 11).cfg.mode ≠ 0 ∧ (s1z.source 11).cfg.zTimeout ≠ 0
    ∧ (s1z.source 11).zLevel = true := by decide +kernel

theorem wit_LocusSources_5 : s3c.locusOn = true ∧ 3 < 4 ∧ (s3c.source 3).cfg.mode = 3 ∧ (s3c.source 3).cycling = true
    ∧ ([] : List Bool).length ≠ (s3c.source 3).cfg.bits + 8 ∧ (s3c.source 3).crcRow = 0 := by decide +kernel

theorem wit_LocusSources_2 : s3.locusOn = true ∧ 3 < 4 ∧ (s3.source 3).cfg.mode = 3 := by decide +kernel

theorem wit_LocusSources_7 : s1b.locusOn = true ∧ (s1b.source 11).cfg.mode ≠ 0 ∧ (s1b.source 11).barred = false
    ∧ (s1b.source 11).flagsClear = true ∧ 11 < s1b.locus.sources.length := by decide +kernel

theorem wit_LocusSources_1 : s2w.locusOn = true ∧ 3 < 4 ∧ (s2w.source 3).cfg.mode = 2
    ∧ (s2w.source 3).cfg.inWindow 2000 (-2000) = true ∧ (s2w.source 3).lastEdge = none ∧ s2w.axisOf 3 = none
    ∧ s2w.primaryOf 3 = none := by decide +kernel

theorem wit_LocusSources_0 : s1.locusOn = true ∧ 11 < 12 ∧ (s1.source 11).cfg.mode = 1
    ∧ ((s1.source 11).a, (s1.source 11).b) ≠ (true, true) ∧ (s1.source 11).lastEdge = none ∧ s1.axisOf 11 = none
    ∧ s1.primaryOf 11 = none ∧ s1.locus.captureCh = none ∧ (s1.source 11).cfg.invert = false := by decide +kernel

theorem wit_LocusSources_4 : s3c.locusOn = true ∧ 3 < 4 ∧ (s3c.source 3).cfg.mode = 3 ∧ (s3c.source 3).cycling = true
    ∧ dbits.length = (s3c.source 3).cfg.bits + 8
    ∧ msbNat (List.drop ((s3c.source 3).cfg.bits + 2) dbits) = 63 - biss6 (List.take ((s3c.source 3).cfg.bits + 2) dbits)
    ∧ dbits.getD (s3c.source 3).cfg.bits true = true ∧ (s3c.source 3).lastEdge = none ∧ s3c.axisOf 3 = none
    ∧ s3c.primaryOf 3 = none := by decide +kernel

theorem wit_LocusInputs_0_1 : (sp.locusAxis 0).primary ≠ some 5 := by decide +kernel

theorem wit_LocusInputs_9_0 : sp.Takes 1029 lc3 := by decide +kernel

theorem wit_LocusInputs_8_0 : sp.Takes 1030 cs15 ∧ cs15.target = 15 := by decide +kernel

theorem wit_LocusInputs_7 : sdn.hifOn = true ∧ sdn.locusOn = true ∧ 15 < 16 := by decide +kernel

theorem wit_LocusInputs_2 : |sp.scanDev| ≤ ↑(sp.locusAxis 0).devWindow * 65536 := by decide +kernel

theorem wit_LocusInputs_9_1 : sp.Takes 1029 lc5 ∧ lc5.param 0 = 5 ∧ lc5.param 1 % 16384 ≤ 16000 := by decide +kernel

theorem wit_LocusInputs_4 : s1.locusOn = true ∧ 15 < 16 ∧ (s1.din 15).raw ≠ true ∧ (s1.din 15).chatterCount = 0 := by decide +kernel

theorem wit_LocusInputs_6 : sdn.locusOn = true ∧ 15 < 16 ∧ (sdn.din 15).stuckMs ≠ 0 ∧ (sdn.din 15).value = true := by decide +kernel

theorem wit_LocusInputs_5 : s1.locusOn = true ∧ 15 < 16 ∧ 15 < s1.locus.dins.length ∧ (s1.din 15).capture = false
    ∧ s1.dinAxis 15 = none := by decide +kernel

theorem wit_LocusInputs_3 : sdv.locusOn = true ∧ (sdv.locusAxis 0).secondary.isSome = true
    ∧ ↑(sdv.locusAxis 0).devWindow * 65536 < |sdv.scanDev| := by decide +kernel

theorem wit_LocusInputs_8_1_0 : sp.Takes 1030 cs3 ∧ cs3.target ≠ 15 ∧ (sp.locusAxis (cs3.param 2 % 16)).primary.isSome = true
    ∧ cs3.param 2 < 512 ∧ cs3.param 2 % 16 < 10 ∧ cs3.param 3 = 0 ∧ bit (cs3.param 2) 8 = false ∧ bits (cs3.param 2) 5 4 = 3 := by decide +kernel

theorem wit_LocusInputs_8_1_1 : spU.Takes 1030 cs2 ∧ cs2.target ≠ 15 ∧ (spU.locusAxis (cs2.param 2 % 16)).primary.isSome = true
    ∧ cs2.param 2 < 512 ∧ cs2.param 2 % 16 < 10 ∧ cs2.param 3 = 0 ∧ bit (cs2.param 2) 8 = false ∧ bits (cs2.param 2) 5 4 ≠ 3
    ∧ spU.axisUsable (cs2.param 2 % 16) = false := by decide +kernel

theorem wit_LocusInputs_8_1_2 : sp.Takes 1030 cs2 ∧ cs2.target ≠ 15 ∧ (sp.locusAxis (cs2.param 2 % 16)).primary.isSome = true
    ∧ cs2.param 2 < 512 ∧ cs2.param 2 % 16 < 10 ∧ cs2.param 3 = 0 ∧ bit (cs2.param 2) 8 = false ∧ bits (cs2.param 2) 5 4 = 2
    ∧ sp.axisUsable (cs2.param 2 % 16) = true ∧ cs2.target < sp.locus.compares.length := by decide +kernel

theorem wit_LocusInputs_1 : sp.locusOn = true ∧ (sp.locusAxis 0).primary = some 0 ∧ (sp.source 0).valid = true
    ∧ sp.locus.gen = none ∧ (Instr.trackingMeasurement 0 = Instr.trackingMeasurement 0
    ∧ (sp.source 0).lastEdge = some 9000 ∨ Instr.trackingMeasurement 0 = Instr.restMeasurement 0 ∧ (sp.source 0).cfg.mode = 1
    ∧ 9000 = sp.locus.estAt + 4000)
    ∧ |(sp.source 0).pos - (sp.locus.est + sp.locus.vel * 256 * (↑9000 - ↑sp.locus.estAt) / 4000)| ≤ ↑sp.locus.unlockWin * 256 := by decide +kernel

theorem wit_BootCompletes_0 : run0.ctl.boot ≠ BootPhase.loading := by decide +kernel

theorem wit_BootCompletes_1 : sL.ctl.boot = BootPhase.loading ∧ sL.seq.interrupted = none
    ∧ (∀ (d : ℕ), (sL.die d).sram.ueLog = none) ∧ sL.ctl.darkN = false ∧ sL.headTrip = false ∧ sL.therm.stopped = false
    ∧ sL.therm.blind = false := by
  refine ⟨by decide +kernel, by decide +kernel, ?_, by decide +kernel⟩
  intro d
  match d with
  | 0 => rfl
  | 1 => rfl
  | _ + 2 => rfl

end Locus

namespace Ptp

def q (op : Nat) (l : List Nat := []) := pk op 0xFFFF l

def tc3 := q 0x500 [3, 7]

def tc4 := q 0x500 [4, 100, 0, 999999999]

def tc4b := q 0x500 [4, 100, 0, 1000000000]

def en : State := { run0 with arc.axes := run0.arc.axes.map fun x => { x with state := .idle } }

def tt (l : List Nat) := q 0x502 l

def tt1 := tt [12, 100, 0, 5, 6]

def tt2 := tt [27]

def tt3 := tt [11, 100, 0, 999999999, 6]

def sT : State := { run0 with datum.irq := 7 }.modTrigger 15 fun x => { x with state := 1 }

def sS : State := { run0 with datum.stepPending := true, datum.time := 2^60, datum.domains := run0.datum.domains.map fun d => { d with known := true, offset := -5, rate := 7 } }

def msg (two : Bool) : PtpMsg := { domain := 3, source := 77, seq := 9, time := 5000000, correction := 512, twoStep := two, rxTime := 7000000 }

def dom (p2p : Bool) : Domain := { Domain.reset with enabled := true, number := 3, port := 0, state := .acquiring, master := some (77, [1]), p2p := p2p, jumpThr := 10 }

def sP (p2p : Bool) : State := { run0 with datum.ports := run0.datum.ports.map fun p => { p with link := true, speed := 1, ip := 5 }, datum.domains := [dom p2p, Domain.reset] }

def sp0 := sP false

def sp1 := sP true

def m1 := msg true

def m0 := msg false

def mX : PtpMsg := { m0 with source := 76 }

def upd (f : Domain → Domain) (s : State) : State := s.modDomain 0 f

def spK := upd (fun d => { d with known := true, discards := 6 }) sp0

def spF := upd (fun d => { d with pendingSync := some m1 }) sp0

def mF : PtpMsg := { m0 with time := 6000000 }

theorem wit_TimeCommands_4_1 : run0.hifOn = true ∧ run0.domOn 0 1 = true := by decide +kernel

theorem wit_TimeCommands_0_4 : run0.Takes 1280 tc4b ∧ tc4b.param 0 = 4 ∧ 999999999 < tc4b.param 3 := by decide +kernel

theorem wit_TimeCommands_1_1 : run0.Takes 1282 tt2 ∧ run0.datum.triggers.length = 16 ∧ 11 < 12 ∧ tt2.param 0 = 16 + 11 := by decide +kernel

theorem wit_TimeCommands_1_0 : run0.Takes 1282 tt1 ∧ run0.datum.triggers.length = 16
    ∧ (32 ≤ tt1.param 0 ∨ 12 ≤ tt1.param 0 % 16) := by decide +kernel

theorem wit_TimeCommands_0_0 : run0.Takes 1280 tc3 ∧ tc3.param 0 = 3 ∧ run0.datum.disciplined = false
    ∧ run0.datum.stepPending = false := by decide +kernel

theorem wit_TimeCommands_0_2 : en.Takes 1280 tc4 ∧ tc4.param 0 = 4 ∧ tc4.param 3 ≤ 999999999
    ∧ (en.ctl.dev ≠ DevState.configured ∨ ∃ x ∈ en.arc.axes, x.enabled = true) := by decide +kernel

theorem wit_TimeCommands_2 : sT.running = true ∧ 15 < 16 ∧ (sT.trigger 15).state = 1 ∧ sT.datum.captureCh = none
    ∧ sT.datum.irq.getLsbD 0 = true ∧ sT.seq.stripes = [] ∧ (∀ u < 15, (sT.compare u).state ≠ CmpState.waitTrigger) := by decide +kernel

theorem wit_TimeCommands_1_2 : run0.Takes 1282 tt3 ∧ run0.datum.triggers.length = 16 ∧ 11 < 12 ∧ tt3.param 0 = 11
    ∧ tt3.param 3 ≤ 999999999
    ∧ run0.datum.time < (tt3.param64 1 * 1000000000 + tt3.param 3) * 2 ^ 48 + tt3.param 4 % 65536 * 2 ^ 32 := by decide +kernel

theorem wit_TimeCommands_0_3 : run0.Takes 1280 tc4 ∧ tc4.param 0 = 4 ∧ tc4.param 3 ≤ 999999999
    ∧ run0.ctl.dev = DevState.configured ∧ (∀ x ∈ run0.arc.axes, x.enabled = false) ∧ run0.datum.disciplined = false
    ∧ run0.datum.captureCh = none ∧ (∀ t < 16, (run0.trigger t).state ≠ 1) := by decide +kernel

theorem wit_TimeCommands_3 : sS.running = true ∧ sS.datum.stepPending = true ∧ sS.ctl.dev = DevState.configured
    ∧ (∀ x ∈ sS.arc.axes, x.enabled = false) ∧ (sS.domain sS.datum.selected).known = true ∧ sS.datum.captureCh = none
    ∧ (∀ t < 16, (sS.trigger t).state ≠ 1) ∧ 0 ≤ ↑sS.datum.time + (sS.domain sS.datum.selected).offset := by decide +kernel

theorem wit_PtpMessages_8 : sp0.domainsOf 0 m0 = [0] ∧ (sp0.domain 0).p2p = false := by decide +kernel

theorem wit_PtpMessages_9 : spF.domainsOf 0 mF = [0] ∧ spF.fromMaster 0 mF = true ∧ mF.twoStep = false
    ∧ (spF.domain 0).known = false ∧ (spF.domain 0).state = DomState.acquiring ∧ (spF.domain 0).good < 15
    ∧ spF.datum.disciplined = false := by decide +kernel

theorem wit_PtpMessages_1 : sp0.domainsOf 0 mX = [0] ∧ sp0.fromMaster 0 mX = false := by decide +kernel

theorem wit_PtpMessages_0 : sp0.domainsOf 0 m1 = [0] ∧ sp0.fromMaster 0 m1 = true ∧ m1.twoStep = true := by decide +kernel

theorem wit_PtpMessages_7 : sp1.domainsOf 0 mX = [0] ∧ (sp1.domain 0).p2p = true ∧ (sp1.port 0).txts.length < 16 := by decide +kernel

theorem wit_PtpMessages_3 : spK.domainsOf 0 m0 = [0] ∧ spK.fromMaster 0 m0 = true ∧ m0.twoStep = false
    ∧ (spK.domain 0).known = true ∧ (spK.domain 0).discards < 7
    ∧ ((spK.domain 0).jumpThr : Int) * 2 ^ 48 < |((m0.time : Int) + m0.correction / 256 + (spK.domain 0).path - ((m0.rxTime : Int) - 64 * ((spK.port 0).rxLat : Int))) * 2 ^ 40 - (spK.domain 0).offset| := by decide +kernel

theorem wit_PtpTimersAndPorts_5_1 : run0.portUp 0 = false := by decide +kernel

theorem wit_PtpTimersAndPorts_4 : sp0.portUp 0 = true ∧ (sp0.port 0).ip ≠ 0 := by decide +kernel

theorem wit_PtpTimersAndPorts_6 : sp0.running = true ∧ 1 < 2 ∧ sp0.chord.peers = [] := by decide +kernel

theorem wit_PtpTimersAndPorts_2 : sp0.running = true ∧ 0 < 2 ∧ (sp0.domain 0).enabled = true
    ∧ (sp0.domain 0).master.isSome = true ∧ sp0.datum.disciplined = false := by decide +kernel

theorem wit_PtpTimersAndPorts_1 : sp0.running = true ∧ 0 < 2
    ∧ ((sp0.domain 0).state = DomState.acquiring ∨ (sp0.domain 0).state = DomState.locked) ∧ sp0.datum.disciplined = false := by decide +kernel

theorem wit_PtpTimersAndPorts_0 : sp1.portUp 0 = true ∧ 0 < 2 ∧ (sp1.domain 0).enabled = true ∧ (sp1.domain 0).port = 0
    ∧ (sp1.domain 0).delayReq = none ∧ (sp1.port 0).txts.length < 16 ∧ 0 < sp1.datum.ports.length := by decide +kernel

end Ptp

namespace Chord

def q (op : Nat) (l : List Nat := []) := pk op 0xFFFF l

def cc1 := q 0x503 [1, 0x1319B, 0x00030064, 10000, 7]

def cc0 := q 0x503 [1, 0x1319B, 0x00030064, 10001, 7]

def cc2 := q 0x503 [2, 0, 0, 2]

def pe : List Word := [BitVec.ofNat 32 5, 0x0A000005, BitVec.ofNat 32 6, 0x0A000006]

def ps2 := (peerEntries [] 2 pe).getD []

def rs := q 0x504 [3, 5, 17]

def rs2 := q 0x504 [3, 4, 17]

def sR : State := { run0 with chord.roles := run0.chord.roles.set 3 { holder := 17, epoch := 5 } }

def peer5 : Peer := { id := 5, port := 0, ip := 0x0A000005, session := 77, last := 4, next := 10, unacked := [], queued := [], tries := 0, failedOver := false }

def cs := q 0x505 (5 :: List.range 13)

def sC : State := { run0 with chord.enabled := true, chord.peers := [peer5], datum.ports := run0.datum.ports.map fun p => { p with link := true, speed := 1, ip := 5 } }

def hd (type : Nat) (role : Option Nat) (seq len : Nat) (epoch : Nat := 0) (ref : Nat := 0) : ChordHdr :=
  { type := type, role := role, dst := sC.ctl.deviceId, src := 5, epoch := epoch, seq := seq, session := 77, length := len, ref := ref }

def badW : List Word := []

def h1 := hd 1 none 5 8

def w1 := h1.words [3, 4]

def p5 := peer5

def ch0 : DmaT := { DmaT.reset with source := .chord, enabled := true }

def sCr : State := { sC with chord.receiveCh := some 3, dmaT := sC.dmaT.set 3 ch0 }

def h20 := hd 0x20 none 5 8

def w20 := h20.words [3, 4]

def msg1 : ChordMsg := { type := 1, role := none, epoch := 0, seq := 9, payload := [], ctx := some ctx1, retries := 0 }

def p5u : Peer := { peer5 with unacked := [msg1], tries := 1 }

def sU : State := { sC with chord.peers := [p5u] }

def hA := hd 2 none 0 0 0 9

def wA := hA.words []

def hS := hd 3 none 0 12

def wS := hS.words [2, 7, 17]

def msgR : ChordMsg := { type := 0x10, role := some 2, epoch := 0, seq := 9, payload := [], ctx := none, retries := 0 }

def p5r : Peer := { peer5 with unacked := [msgR], tries := 1 }

def sUr : State := { sC with chord.peers := [p5r] }

def hS2 := hd 3 none 0 12 0 9

def wS2 := hS2.words [2, 0, 17]

def h4 := hd 4 none 5 12

def w4 := h4.words [2, 7, 17]

def h10 := hd 0x10 none 5 12

def w10 := h10.words [100, 9, 0]

def stS : Stripe := { stripe1 with startMode := 2, syncSent := true, startRef := 100, phase := .ready, paused := true, passStart := some [] }

def sSt := withStripe stS sC

def h11 := hd 0x11 none 5 20

def w11 := h11.words [100, 0, 50, 0, 7]

def noSt : List Stripe := []

def h12 := hd 0x12 none 5 536

def w12 := h12.words ([100, 1, 500, 7, 0, 5] ++ List.replicate 128 3)

def stQ : Stripe := { stS with syncSent := false, offered := true }

def sQ : State := { withStripe stQ sC with datum := { sC.datum with disciplined := true, domains := sC.datum.domains.map fun d => { d with enabled := true, state := .locked } }, chord.roles := sC.chord.roles.set 0 { holder := 5, epoch := 3 } }

def sB : State := { sC with chord.aggregate := true, chord.roles := sC.chord.roles.set 1 { holder := 5, epoch := 3 }, seq.batch := [(6, [1,2,3,4,5,6,7,8])] }

def sU2 : State := { sU with chord.retriesMax := 2 }

def sU1 : State := { sU with chord.retriesMax := 1 }

theorem wit_ChordCommands_0_0 : run0.Takes 1283 cc1 ∧ cc1.param 0 = 1 ∧ 1 ≤ cc1.param 3 ∧ cc1.param 3 ≤ 10000 := by decide +kernel

theorem wit_ChordCommands_0_1 : run0.Takes 1283 cc0 ∧ cc0.param 0 = 1 ∧ (cc0.param 3 = 0 ∨ 10000 < cc0.param 3) := by decide +kernel

theorem wit_ChordCommands_2_0 : run0.Takes 1285 cs ∧ cs.param 0 < 2 ^ 31 ∧ (1024 ≤ cs.param 0 ∨ run0.peer? (cs.param 0) = none) := by decide +kernel

theorem wit_ChordCommands_1_1 : sR.Takes 1284 rs
    ∧ sR.role (rs.param 0 % 4) = { holder := rs.param 2 % 1024, epoch := rs.param 1 } := by decide +kernel

theorem wit_ChordCommands_0_2 : run0.Takes 1283 cc2 ∧ cc2.param 0 = 2 ∧ 1 ≤ cc2.param 3 ∧ cc2.param 3 ≤ 1024
    ∧ run0.chord.peers = [] ∧ peerEntries [] (cc2.param 3) pe = some ps2 := by decide +kernel

theorem wit_ChordCommands_2_1 : sC.Takes 1285 cs ∧ cs.param 0 < 2 ^ 31 ∧ cs.param 0 < 1024 ∧ sC.peer? (cs.param 0) = some peer5
    ∧ sC.chord.enabled = true ∧ peer5.unacked.length < 8 ∧ peer5.queued = [] := by decide +kernel

theorem wit_ChordCommands_1_0 : run0.Takes 1284 rs ∧ (run0.role (rs.param 0 % 4)).epoch < rs.param 1 ∧ (¬(rs.param 0 % 4 < 2
    ∧ rs.param 2 % 1024 = run0.ctl.deviceId ∧ run0.chord.enabled = true)) := by decide +kernel

theorem wit_ChordCommands_1_2 : sR.Takes 1284 rs2
    ∧ (rs2.param 1 < (sR.role (rs2.param 0 % 4)).epoch ∨ rs2.param 1 = (sR.role (rs2.param 0 % 4)).epoch
    ∧ rs2.param 2 % 1024 ≠ (sR.role (rs2.param 0 % 4)).holder) := by decide +kernel

theorem wit_ChordReceives_0_7 : sC.portUp 0 = true ∧ sC.chord.enabled = true ∧ chordHeader badW = none := by decide +kernel

theorem wit_ChordReceives_1_7 : sC.Hears 0 18 w12 h12 p5 ∧ sC.chord.offers = [] := by decide +kernel

theorem wit_ChordReceives_1_5 : sC.Hears 0 16 w10 h10 p5 ∧ sC.chord.groups = []
    ∧ sC.groupSize (wordAt (chordPayload w10) 0) = none ∧ wordAt (chordPayload w10) 2 % 2 = 0 := by decide +kernel

theorem wit_ChordReceives_1_1 : sU.Gets 0 2 wA hA p5u ∧ p5u.session = hA.session
    ∧ List.find? (fun m => m.seq == hA.ref) p5u.unacked = some msg1 ∧ msg1.type ≠ 32 ∧ p5u.queued = [] := by decide +kernel

theorem wit_ChordReceives_1_2 : sC.Gets 0 3 wS hS p5 ∧ sC.chord.roles.length = 4
    ∧ (sC.role (wordAt (chordPayload wS) 0 % 4)).epoch < wordAt (chordPayload wS) 1 ∧ sC.seq.stripes = []
    ∧ (∀ q ∈ sC.chord.peers, q.unacked = [] ∧ q.queued = []) := by decide +kernel

theorem wit_ChordReceives_1_4 : sC.Hears 0 4 w4 h4 p5 ∧ sC.chord.roles.length = 4
    ∧ (sC.role (wordAt (chordPayload w4) 0 % 4)).epoch < wordAt (chordPayload w4) 1 ∧ sC.seq.stripes = []
    ∧ (∀ q ∈ sC.chord.peers, q.unacked = [] ∧ q.queued = []) := by decide +kernel

theorem wit_ChordReceives_1_0_0 : sCr.chord.receiveCh = some 3 ∧ sCr.dmaT[3]? = some ch0 ∧ ch0.source = TSource.chord
    ∧ ch0.enabled = true
    ∧ ch0.waitingBytes + 4 * (8 + (chordPayload w1).length + (8 - (chordPayload w1).length % 8) % 8) ≤ ch0.room
    ∧ sCr.Hears 0 1 w1 h1 p5 := by decide +kernel

theorem wit_ChordReceives_1_0_1 : sCr.chord.receiveCh = some 3 ∧ sCr.dmaT[3]? = some ch0 ∧ ch0.source = TSource.chord
    ∧ ch0.enabled = true
    ∧ ch0.waitingBytes + 4 * (8 + (chordPayload w20).length + (8 - (chordPayload w20).length % 8) % 8) ≤ ch0.room
    ∧ sCr.Hears 0 32 w20 h20 p5 := by decide +kernel

theorem wit_ChordReceives_1_3 : sUr.Gets 0 3 wS2 hS2 p5r
    ∧ wordAt (chordPayload wS2) 1 ≤ (sUr.role (wordAt (chordPayload wS2) 0 % 4)).epoch ∧ p5r.session = hS2.session
    ∧ List.find? (fun m => m.seq == hS2.ref && m.role == some (wordAt (chordPayload wS2) 0 % 4)) p5r.unacked = some msgR
    ∧ msgR.ctx = none := by decide +kernel

theorem wit_ChordReceives_1_6 : sSt.Hears 0 17 w11 h11 p5 ∧ sSt.seq.stripes = stS :: noSt ∧ stS.startMode = 2
    ∧ stS.syncSent = true ∧ stS.startRef % 2 ^ 22 = wordAt (chordPayload w11) 0 ∧ wordAt (chordPayload w11) 1 % 2 = 0
    ∧ sSt.datum.triggers.length = 16
    ∧ sSt.datum.time < (word64 (chordPayload w11) 2 * 1000000000 + wordAt (chordPayload w11) 4) * 2 ^ 48 := by decide +kernel

theorem wit_ChordSends_2_0 : sU2.running = true ∧ sU2.chord.enabled = true ∧ sU2.peer? 5 = some p5u ∧ p5u.unacked = [msg1]
    ∧ p5u.tries < sU2.chord.retriesMax := by decide +kernel

theorem wit_ChordSends_2_1 : sU1.running = true ∧ sU1.chord.enabled = true ∧ sU1.peer? 5 = some p5u ∧ p5u.unacked = [msg1]
    ∧ sU1.chord.retriesMax ≤ p5u.tries ∧ p5u.queued = [] ∧ msg1.type = 1 := by decide +kernel

theorem wit_ChordSends_1 : sB.running = true ∧ sB.chord.enabled = true ∧ sB.chord.aggregate = true
    ∧ (sB.role 1).holder ≠ sB.ctl.deviceId ∧ sB.peer? (sB.role 1).holder = some p5 ∧ p5.unacked.length < 8 ∧ p5.queued = []
    ∧ sB.seq.batch = [(6, [1, 2, 3, 4, 5, 6, 7, 8])] := by decide +kernel

theorem wit_ChordSends_0 : sQ.seq.stripes = [stQ] ∧ sQ.running = true ∧ stQ.startMode = 2 ∧ stQ.phase = Phase.ready
    ∧ stQ.pass = 0 ∧ stQ.paused = true ∧ stQ.syncSent = false ∧ stQ.offered = true ∧ sQ.chord.enabled = true
    ∧ sQ.datum.disciplined = true ∧ sQ.domLocked sQ.datum.selected = true ∧ sQ.chord.stitchEast = false
    ∧ sQ.chord.stitchWest = false ∧ (sQ.role 0).holder ≠ sQ.ctl.deviceId ∧ sQ.peer? (sQ.role 0).holder = some p5
    ∧ p5.unacked.length < 8 ∧ p5.queued = [] := by decide +kernel

end Chord

namespace Lane

def up := lanesUp run0

def lt := pk 0x600 23 [3]

def lt4 := pk 0x600 23 [4]

def lpk (n : Nat) := pk 0x601 23 [n]

def lp3 := lpk 3

def lp1 := lpk 1

def lp0 := lpk 0

def upL1 : State := up.modLanes fun l => { l with power := .l1 }

def lstat := pk 0x603 23 []

def hq := pk 0x604 23 []

def ptl := pk 0x605 23 [0,0,1023]

def upR : State := up.modLane 0 fun l => { l with retired := true, state := .retired }

def trn : State := run0.modLanes fun l => { l with state := .training, power := .l0, step := 4 }

def upE : State := up.modLane 23 fun l => { l with echoes := [(7, 9)] }

def upQ : State := { up with seq.latch := some (9, 0, 20) }

def v0 : Nat := 5 * 2^(160+92) + 3 * 2^(160+88) + 0x1234 * 2^(160+16) + 2^15

def retBits (l : Lane) : List Bool :=
  let v := v0 + (l.returnCrc v0).toNat * 2^256
  (sendBits l.rx 320 ((List.range 36).map fun i => BitVec.ofNat 8 (v / 2^(8*i)))).out.reverse

def rb := retBits (trn.lane 23)

theorem wit_LaneCommands_6_1 : up.hifOn = true ∧ up.ctl.laneSel < up.nLanes ∧ up.hif.busy = none
    ∧ (up.lane up.ctl.laneSel).retired = false := by decide +kernel

theorem wit_LaneCommands_6_0_1 : upR.hifOn = true ∧ upR.ctl.laneSel < upR.nLanes ∧ upR.hif.busy = none
    ∧ (upR.lane upR.ctl.laneSel).retired = true := by decide +kernel

theorem wit_LaneCommands_3 : up.Takes 1540 hq := by decide +kernel

theorem wit_LaneCommands_2 : up.Takes 1539 lstat := by decide +kernel

theorem wit_LaneCommands_4_0 : up.Takes 1541 ptl ∧ ptl.param 2 ≠ 1024 := by decide +kernel

theorem wit_LaneCommands_1_0 : up.Inv ∧ up.Takes 1537 lp3 ∧ lp3.param 0 % 4 = 3 := ⟨inv_of (by decide +kernel), by decide +kernel⟩

theorem wit_LaneCommands_0_0 : run0.Inv ∧ run0.Takes 1536 lt4 ∧ 3 < lt4.param 0 % 16 := ⟨inv_of (by decide +kernel), by decide +kernel⟩

theorem wit_LaneCommands_0_1 : run0.Inv ∧ run0.Takes 1536 lt ∧ lt.param 0 % 16 ≤ 3 ∧ lt.isDev = false := ⟨inv_of (by decide +kernel), by decide +kernel⟩

theorem wit_LaneCommands_1_3 : up.Inv ∧ up.Takes 1537 lp1 ∧ lp1.param 0 % 4 = 1 ∧ lp1.isDev = false
    ∧ (up.lane lp1.target).state = LaneState.up ∧ (up.lane lp1.target).power = LanePower.l0 := ⟨inv_of (by decide +kernel), by decide +kernel⟩

theorem wit_LaneCommands_6_2 : up.Inv ∧ up.hifOn = true ∧ up.ctl.laneSel < up.nLanes ∧ up.hif.busy = none
    ∧ (up.lane up.ctl.laneSel).inL0 = true ∧ up.recentRetrains (up.lane up.ctl.laneSel) < 3 := ⟨inv_of (by decide +kernel), by decide +kernel⟩

theorem wit_LaneCommands_1_2 : up.Inv ∧ up.Takes 1537 lp0 ∧ lp0.param 0 % 4 ≠ 3 ∧ lp0.isDev = false
    ∧ (up.lane lp0.target).state = LaneState.up ∧ (up.lane lp0.target).power.code = lp0.param 0 % 4 := ⟨inv_of (by decide +kernel), by decide +kernel⟩

theorem wit_LaneCommands_1_1 : run0.Inv ∧ run0.Takes 1537 lp1 ∧ lp1.param 0 % 4 ≠ 3 ∧ lp1.isDev = false
    ∧ ((run0.lane lp1.target).state = LaneState.down ∨ (run0.lane lp1.target).state = LaneState.training) := ⟨inv_of (by decide +kernel), by decide +kernel⟩

theorem wit_LaneCommands_1_4 : upL1.Inv ∧ upL1.Takes 1537 lp0 ∧ lp0.param 0 % 4 ≠ 3 ∧ lp0.param 0 % 4 ≠ 1 ∧ lp0.isDev = false
    ∧ (upL1.lane lp0.target).state = LaneState.up ∧ (upL1.lane lp0.target).power = LanePower.l1 := ⟨inv_of (by decide +kernel), by decide +kernel⟩

theorem wit_LaneFrames_2_1 : upE.Inv ∧ upE.framesOn 23 = true ∧ (upE.lane 23).inL0 = true ∧ (upE.lane 23).lastError = none
    ∧ upE.hif.busy = none ∧ (upE.lane 23).echoes = [(7, 9)] ∧ (upE.lane 23).recs = [] := ⟨inv_of (by decide +kernel), by decide +kernel⟩

theorem wit_LaneFrames_3 : up.seq.latch = none := by decide +kernel

theorem wit_LaneFrames_0 : up.Inv ∧ up.framesOn 23 = true ∧ (up.lane 23).inL0 = true ∧ (up.lane 23).recs = []
    ∧ (up.lane 23).elems = [] ∧ (up.lane 23).prbs = false ∧ (up.lane 23).errInject = false ∧ (up.lane 23).everL0 = true
    ∧ (up.lane 23).fseq % 200 ≠ 199 ∧ up.locus.gen = none := ⟨inv_of (by decide +kernel), by decide +kernel⟩

theorem wit_LaneFrames_4 : upQ.Inv ∧ upQ.framesOn 23 = true ∧ (upQ.lane 23).inL0 = true ∧ upQ.seq.latch = some (9, 0, 20)
    ∧ 11 + 8 < 20 ∧ (upQ.lane 23).fired.contains (11 % 65536) = false ∧ (upQ.lane 23).recs = [] ∧ upQ.running = true
    ∧ upQ.perim.active = none ∧ upQ.perim.waiting = [] ∧ upQ.recentRetrains (upQ.lane 23) < 3 ∧ upQ.hif.busy = none
    ∧ upQ.seq.reserve = false := ⟨inv_of (by decide +kernel), by decide +kernel⟩

theorem wit_LaneFrames_1_1 : trn.Inv ∧ trn.framesOn 23 = true ∧ (trn.lane 23).state = LaneState.training
    ∧ (trn.lane 23).retired = false ∧ trn.hif.busy = none ∧ trn.seq.reserve = false
    ∧ (receiveBits (trn.lane 23).rx 288 (List.take 320 rb)).bad = false
    ∧ (receiveBits (trn.lane 23).rx 288 (List.take 320 rb)).got.length = 288
    ∧ bits (bitsNat (receiveBits (trn.lane 23).rx 288 (List.take 320 rb)).got.reverse) 287 256 = BitVec.toNat ((trn.lane 23).returnCrc (bitsNat (receiveBits (trn.lane 23).rx 288 (List.take 320 rb)).got.reverse % 2 ^ 256))
    ∧ bits (bitsNat (receiveBits (trn.lane 23).rx 288 (List.take 320 rb)).got.reverse) 23 16 = 0
    ∧ bits (bits (bitsNat (receiveBits (trn.lane 23).rx 288 (List.take 320 rb)).got.reverse) 255 160) 95 92 = 5
    ∧ (trn.lane 23).temps = [] ∧ (trn.lane 23).silent = false := ⟨inv_of (by decide +kernel), by decide +kernel⟩

end Lane

namespace LaneTime

def up := lanesUp run0

def el : Elem := { type := 6, ackReq := true, seq := 5, arg := 1, data := [], tries := 8, due := false }

def upE : State := up.modLane 23 fun l => { l with elems := [el] }

def upW : State := up.modLane 23 fun l => { l with headWarn := true }

def trn (k : Nat) : State := run0.modLanes fun l => { l with state := .training, power := .l0, step := k, target := 0, trying := 0, eye := (150, 60), lastPass := none }

def t1 := trn 1

def t2 := trn 2

def t3 := trn 3

def t5 := trn 5

def eye2 : Nat × Nat := (150, 60)

def rt : State := run0.modLanes fun l => { l with state := .retraining, power := .l0, everL0 := true }

def lr := pk 0x602 23 []

def dr : State := run0.modLanes fun l => { l with state := .draining, power := .l0, retired := true }

theorem wit_LaneTimers_0 : upE.framesOn 23 = true ∧ (upE.lane 23).dueElem = some el ∧ el.tries < 9 := by decide +kernel

theorem wit_LaneTimers_1 : upW.Inv ∧ upW.framesOn 23 = true ∧ (upW.lane 23).inL0 = true ∧ (upW.lane 23).headWarn = true
    ∧ (upW.lane 23).headTrip = (upW.lane 23).trips := ⟨inv_of (by decide +kernel), by decide +kernel⟩

theorem wit_LaneTimers_2_0 : t1.Inv ∧ t1.framesOn 23 = true ∧ (t1.lane 23).state = LaneState.training
    ∧ (t1.lane 23).headWarn = (t1.lane 23).warns ∧ (t1.lane 23).headTrip = (t1.lane 23).trips ∧ t1.hif.busy = none
    ∧ (t1.lane 23).step = 1 := ⟨inv_of (by decide +kernel), by decide +kernel⟩

theorem wit_LaneTimers_2_5 : t1.Inv ∧ t1.framesOn 23 = true ∧ (t1.lane 23).state = LaneState.training
    ∧ (t1.lane 23).headWarn = (t1.lane 23).warns ∧ (t1.lane 23).headTrip = (t1.lane 23).trips ∧ t1.hif.busy = none
    ∧ (t1.lane 23).step ≤ 4 := ⟨inv_of (by decide +kernel), by decide +kernel⟩

theorem wit_LaneTimers_2_1 : t2.Inv ∧ t2.framesOn 23 = true ∧ (t2.lane 23).state = LaneState.training
    ∧ (t2.lane 23).headWarn = (t2.lane 23).warns ∧ (t2.lane 23).headTrip = (t2.lane 23).trips ∧ t2.hif.busy = none
    ∧ (t2.lane 23).step = 2 := ⟨inv_of (by decide +kernel), by decide +kernel⟩

theorem wit_LaneTimers_2_2 : t3.Inv ∧ t3.framesOn 23 = true ∧ (t3.lane 23).state = LaneState.training
    ∧ (t3.lane 23).headWarn = (t3.lane 23).warns ∧ (t3.lane 23).headTrip = (t3.lane 23).trips ∧ t3.hif.busy = none
    ∧ (t3.lane 23).step = 3 := ⟨inv_of (by decide +kernel), by decide +kernel⟩

theorem wit_LaneTimers_3 : rt.Inv ∧ rt.framesOn 23 = true ∧ (rt.lane 23).state = LaneState.retraining
    ∧ (rt.lane 23).retired = false ∧ rt.hif.busy = none ∧ rt.seq.stripes = [] ∧ (rt.lane 23).headTrip = (rt.lane 23).trips
    ∧ (rt.lane 23).warns = false ∧ (rt.lane 23).elems = [] := ⟨inv_of (by decide +kernel), by decide +kernel⟩

theorem wit_LaneTimers_2_4 : t5.Inv ∧ t5.framesOn 23 = true ∧ (t5.lane 23).state = LaneState.training
    ∧ (t5.lane 23).headWarn = (t5.lane 23).warns ∧ (t5.lane 23).headTrip = (t5.lane 23).trips ∧ t5.hif.busy = none
    ∧ (t5.lane 23).step = 5 ∧ (t5.lane 23).lastPass = none ∧ (t5.lane 23).trying = 0 ∧ 3 ≠ 0 := ⟨inv_of (by decide +kernel), by decide +kernel⟩

theorem wit_LaneTimers_2_3 : t5.Inv ∧ t5.framesOn 23 = true ∧ (t5.lane 23).state = LaneState.training
    ∧ (t5.lane 23).headWarn = (t5.lane 23).warns ∧ (t5.lane 23).headTrip = (t5.lane 23).trips ∧ t5.hif.busy = none
    ∧ (t5.lane 23).step = 5 ∧ (t5.lane 23).fallBack = false
    ∧ min (t5.lane 23).target (t5.lane 23).headRate ≤ (t5.lane 23).trying ∧ 77 ≤ (t5.lane 23).eye.1 ∧ 30 ≤ (t5.lane 23).eye.2
    ∧ 103 ≤ eye2.1 ∧ 40 ≤ eye2.2 := ⟨inv_of (by decide +kernel), by decide +kernel⟩

theorem wit_LaneRetires_3 : (up.lane 23).state ≠ LaneState.draining := by decide +kernel

theorem wit_LaneRetires_2 : 23 < dr.nLanes ∧ (dr.lane 23).state = LaneState.draining ∧ dr.locus.gen = none := by decide +kernel

theorem wit_LaneRetires_0 : up.Inv ∧ up.Takes 1538 lr ∧ up.seq.stripes = [] ∧ up.seq.ledger = [] ∧ up.seq.opened = []
    ∧ up.locus.gen = none ∧ (up.die (lr.target / 12)).retiredLanes < 4 ∧ (up.die (lr.target / 12)).excluded < 6
    ∧ up.perim.active = none ∧ up.perim.waiting = [] := ⟨inv_of (by decide +kernel), by decide +kernel⟩

theorem wit_LaneRetires_1 : rt.Inv ∧ rt.framesOn 23 = true ∧ (rt.lane 23).state = LaneState.retraining
    ∧ (rt.lane 23).retired = false ∧ rt.hif.busy = none ∧ rt.seq.stripes = [] ∧ rt.seq.ledger = [] ∧ rt.seq.opened = []
    ∧ rt.locus.gen = none ∧ (rt.die (23 / 12)).retiredLanes < 4 ∧ (rt.die (23 / 12)).excluded < 6 ∧ rt.perim.active = none
    ∧ rt.perim.waiting = [] := ⟨inv_of (by decide +kernel), by decide +kernel⟩

end LaneTime

namespace Calibration

def da : DevAddr := { die := 1, bcast := false, sram := false, off := 100 }

def die1 : Die := run0.die 1

def ptWords : List Word :=
  [0x0110, 0, 0, 0] ++ ((List.range 63).map fun i => [BitVec.ofNat 32 (2 ^ 16 + i + 1), BitVec.ofNat 32 (256 * (i + 1)), 0, 0]).flatten

def up := lanesUp run0

def ptl2 := pk 0x605 23 [0,0,1024]

def trn : State := run0.modLanes fun l => { l with state := .training, power := .l0, step := 4 }

def badBits : List Bool := List.replicate 330 true

def cr := pk 0x700 0xFFFF

def cr0 := cr [0]

def cr16 := cr [16]

def cr1 := pk 0x700 0 [1]

def runRdy := runs .armed

def runner : CalRun := { ctx := ctx1, dies := [0], mask := 1 }

def rc : State := { run0 with calRuns := [runner] }

def rd5 := pk 0x701 0 [5,0,0]

def rd1 := pk 0x701 0 [1,0,0]

def cst' := pk 0x702 0xFFFF []

def e1 : List Word := [1]

def q3 : Nat := 24*65536+16*256+16

def autoS : State := run0.modDies fun d => { d with cal.auto := 31 }

def autoS2 : State := autoS.modDies fun d => { d with cal.measured := d.cal.measured.modify 2 fun l => l.set 0 5 }

def sr : State := run0.modDies fun d => { d with cal.sensorRun := true }

def sr0 := sr.die 0

def cs := pk 0xA00 0xFFFF [0x1000, 0]

def dmaTc : DmaT := { run0.dmaT.getD 0 DmaT.reset with source := .counters, enabled := true, log2 := 16 }

def stS : State := { run0 with perf.stream := some (0, 1000), dmaT := run0.dmaT.set 0 dmaTc }

def cst0 := pk 0xA01 0xFFFF [8, 0]

def cst99 := pk 0xA01 0xFFFF [1, 99]

def cst1 := pk 0xA01 0xFFFF [0, 100]

def T0 := run0.dmaT.getD 0 DmaT.reset

def trc : State := { run0 with dmaT := run0.dmaT.set 0 { T0 with source := .locus } }

def ptImage : List Byte := List.take 1024 (wordsBytes ptWords ++ List.replicate 1024 0)

def entryOf (l : List Byte) : Option Nat × Nat := (pulseEntryFail l 0, (l.getD 0 0).toNat + 256 * (l.getD 1 0).toNat)

/-- Each entry of the image, read from its own first byte on. -/
theorem ptEntries : ∀ q ∈ List.range 63, entryOf (ptImage.drop (16 * (q + 1))) = (none, q + 1) := by decide +kernel

theorem ptLayout : pulseLayoutFail 1024 ptImage = none := by
  have h : ((List.range 63).filterMap fun q => pulseEntryFail ptImage (q + 1)) = [] :=
    List.filterMap_eq_nil_iff.2 fun q hq => pulseEntryFail_drop _ _ (congrArg Prod.fst (ptEntries q hq))
  rw [pulseLayoutFail, if_neg (by decide), if_neg (by decide +kernel), show nonzeroByte ptImage 4 16 = none by decide +kernel, h]
  rfl

theorem ptCodes : imageCodes ptImage = (List.range 63).map (· + 1) := by
  refine List.map_congr_left fun q hq => ?_
  have h : _ = q + 1 := congrArg Prod.snd (ptEntries q hq)
  simp only [entryOf, ← getD_drop] at h
  exact h

theorem wit_LaneCommands_4_1 : up.Takes 1541 ptl2 ∧ up.Inv ∧ ptl2.param 2 = 1024 ∧ ptl2.isDev = false
    ∧ pulseLayoutFail 1024 (List.take 1024 (wordsBytes ptWords ++ List.replicate 1024 0)) = none
    ∧ (imageCodes (List.take 1024 (wordsBytes ptWords ++ List.replicate 1024 0))).headD 0 ≠ 0
    ∧ codesRise (imageCodes (List.take 1024 (wordsBytes ptWords ++ List.replicate 1024 0))) = true
    ∧ (up.lane ptl2.target).inL0 = true ∧ (up.lane ptl2.target).elemSeq < 65536 := by
  change _ ∧ _ ∧ _ ∧ _ ∧ pulseLayoutFail 1024 ptImage = _ ∧ (imageCodes ptImage).headD _ ≠ _ ∧ codesRise (imageCodes ptImage) = _ ∧ _
  rw [ptLayout, ptCodes]
  exact ⟨by decide +kernel, inv_of (by decide +kernel), by decide +kernel⟩

theorem wit_DeviceMemoryFrame : da.sram = false ∧ da.bcast = false ∧ run0.dies[da.die]? = some die1 := by decide +kernel

theorem wit_IdleStepTicks : run0.pending = [] := by decide +kernel

theorem wit_LaneFrames_1_0 : trn.Inv ∧ trn.framesOn 23 = true ∧ (trn.lane 23).state = LaneState.training
    ∧ (trn.lane 23).retired = false ∧ trn.hif.busy = none ∧ trn.seq.reserve = false
    ∧ (receiveBits (trn.lane 23).rx 288 (List.take 320 badBits)).bad = true := ⟨inv_of (by decide +kernel), by decide +kernel⟩

theorem wit_CalibrationRows_1 : run0.calRuns = [] := by decide +kernel

theorem wit_CalibrationRows_2 : rc.calRuns = [runner] := by decide +kernel

theorem wit_CalibrationRows_3_0 : run0.Takes 1793 rd5 ∧ 5 ≤ rd5.param 0 := by decide +kernel

theorem wit_CalibrationRows_7 : sr.dies[0]? = some sr0 ∧ sr0.cal.sensorRun = true := by decide +kernel

theorem wit_CalibrationRows_0_0 : run0.Takes 1792 cr0 ∧ (cr0.param 0 = 0 ∨ 32 ≤ cr0.param 0) := by decide +kernel

theorem wit_CalibrationRows_3_1 : run0.Takes 1793 rd1 ∧ rd1.param 0 < 5 ∧ itemOn (rd1.param 0) rd1.target = true := by decide +kernel

theorem wit_CalibrationRows_0_2 : runRdy.Takes 1792 cr1 ∧ 1 ≤ cr1.param 0 ∧ cr1.param 0 < 16
    ∧ (cr1.isDev = true ∨ cr1.target = 0) := by decide +kernel

theorem wit_CalibrationRows_0_1 : runRdy.Takes 1792 cr16 ∧ 16 ≤ cr16.param 0 ∧ cr16.param 0 < 32
    ∧ (cr16.isDev = true ∨ cr16.target = 0) ∧ runRdy.ctl.dev ≠ DevState.configured := by decide +kernel

theorem wit_CalibrationRows_4_0 : run0.Takes 1794 cst' ∧ run0.flash.cal.getD (2 * run0.ctl.bank) none = none
    ∧ run0.flash.cal.getD (2 * run0.ctl.bank + 1) none = none ∧ [].headD 0 = 0 := by decide +kernel

theorem wit_CalibrationRows_4_1 : run0.Takes 1794 cst' ∧ run0.flash.cal.getD (2 * run0.ctl.bank) none = none
    ∧ run0.flash.cal.getD (2 * run0.ctl.bank + 1) none = none ∧ e1.headD 0 ≠ 0 := by decide +kernel

theorem wit_CalibrationRows_5_0 : run0.running = true ∧ run0.dieLive 0 = true ∧ itemOn 3 0 = true ∧ 3 < 4
    ∧ (3 = 3 → (run0.die 0).mem.panic = false) ∧ run0.qualityOk 3 (0 / itemStride 3) q3 = true := by decide +kernel

theorem wit_CalibrationRows_6_0 : autoS.running = true ∧ autoS.dieLive 0 = true ∧ itemOn 2 0 = true ∧ 2 < 4 ∧ 2 ≠ 0
    ∧ (autoS.die 0).cal.auto.getLsbD 2 = true ∧ autoS.calWindow 0 2 (0 / itemStride 2) = true
    ∧ (autoS.die 0).cal.value 2 0 = (autoS.die 0).cal.measure 2 0 := by decide +kernel

theorem wit_CalibrationRows_6_1 : autoS2.running = true ∧ autoS2.dieLive 0 = true ∧ itemOn 2 0 = true ∧ 2 < 4 ∧ 2 ≠ 0
    ∧ (autoS2.die 0).cal.auto.getLsbD 2 = true ∧ autoS2.calWindow 0 2 (0 / itemStride 2) = true
    ∧ (autoS2.die 0).cal.value 2 0 ≠ (autoS2.die 0).cal.measure 2 0 := by decide +kernel

theorem wit_CalibrationRows_5_1 : run0.running = true ∧ run0.dieLive 0 = true ∧ itemOn 2 0 = true ∧ 2 < 4
    ∧ (2 = 3 → (run0.die 0).mem.panic = false) ∧ run0.qualityOk 2 (0 / itemStride 2) 1000 = false
    ∧ run0.qualityOk 2 (0 / itemStride 2) (((run0.die 0).cal.quality.getD 2 []).getD (0 / itemStride 2) 0) = true := by decide +kernel

theorem wit_CounterRows_2_1_1 : run0.hifOn = true ∧ 1 < run0.nDies ∧ 5 < 192 := by decide +kernel

theorem wit_CounterRows_1_0 : run0.Takes 2561 cst0 ∧ cst0.param 1 = 0 ∧ run0.perf.stream = none
    ∧ (∀ c ∈ run0.dmaT, c.source ≠ TSource.counters) := by decide +kernel

theorem wit_CounterRows_0_0 : stS.Takes 2560 cs := by decide +kernel

theorem wit_CounterRows_0_3 : stS.domOn 0 7 = true := by decide +kernel

theorem wit_CounterRows_0_4 : State.reset.domOn 0 7 = false := by decide +kernel

theorem wit_CounterRows_1_1 : run0.Takes 2561 cst99 ∧ 0 < cst99.param 1 ∧ (cst99.param 1 < 100 ∨ 10000000 < cst99.param 1) := by decide +kernel

theorem wit_CounterRows_1_3 : run0.Takes 2561 cst1 ∧ 100 ≤ cst1.param 1 ∧ cst1.param 1 ≤ 10000000
    ∧ run0.dmaT[cst1.param 0 % 8]? = some T0 ∧ T0.source = TSource.none := by decide +kernel

theorem wit_CounterRows_1_2 : trc.Takes 2561 cst1 ∧ 100 ≤ cst1.param 1 ∧ cst1.param 1 ≤ 10000000
    ∧ (∀ (c : DmaT), trc.dmaT[cst1.param 0 % 8]? = some c → c.source ≠ TSource.none ∧ c.source ≠ TSource.counters) := by decide +kernel

theorem wit_CounterRows_0_1 : stS.perf.stream = some (0, 1000) ∧ stS.running = true ∧ stS.dmaT[0]? = some dmaTc
    ∧ dmaTc.source = TSource.counters ∧ dmaTc.enabled = true
    ∧ dmaTc.waitingBytes + 4 * ([wrapAdd stS.perf.snapSeq 1, stS.nDies + stS.dieMask * 2 ^ 8, stS.timeNs, stS.timeSec % 2 ^ 32, stS.timeSec / 2 ^ 32].map (BitVec.ofNat 32) ++ List.replicate 11 0 ++ List.flatMap (fun (d : Die) => List.flatMap (fun n => [lo32 n, hi32 n]) (if d.retired = true then d.perf.snap else d.perf.cnt)) stS.dies).length ≤ dmaTc.room := by decide +kernel

end Calibration

namespace Faults

def fr0 := pk 0x800 0xFFFF [0,0,0]

def fr1 := pk 0x800 0xFFFF [1,0x2000,0]

def rec1 : FaultRecord := { seq := 3, cause := 0x1E, unit := 0, die := 0, permanent := false, injected := false, cls := 1, repeats := 0, preempted := false, superseded := false, closed := false, storm := false, action := 0, detail0 := 1, detail1 := 2, ns := 0, seconds := 0, about := none, wasGone := false, wasDark := false, darks := 0 }

def logS : State := { run0 with perim.log := [rec1, { rec1 with seq := 4 }] }

def sd := pk 0x801 0xFFFF []

def arm := lanesUp (runs .armed)

def ht : State := { run0 with ctl.headTripN := true, ctl.darkN := true }

def dr0 := pk 0x802 0 []

def dr1 := pk 0x802 1 []

def up := lanesUp run0

def fi0 := pk 0x803 1 [0,0]

def fi10 := pk 0x803 1 [10,0]

def fibad := pk 0x803 1 [10,1]

def e200 : List Word := [200]

def wr : FaultRecord := { rec1 with cause := 0x12, unit := 3, action := 13 }

def wS : State := { run0 with perim.waiting := [wr], perim.log := [wr] }

def a6 : FaultRecord := { wr with action := 6 }

def a0 : FaultRecord := { wr with action := 0 }

def actS0 : State := { run0 with perim.active := some (a0, 0), perim.log := [a0] }

def aa (n : Nat) : FaultRecord := { wr with action := n }

def aS (n k : Nat) : State := { up with perim.active := some (aa n, k), perim.log := [aa n] }

def s2 := aS 2 0

def aa2 := aa 2

def wS6 : State := { up with perim.waiting := [a6], perim.log := [a6] }

theorem wit_FaultCommands_2_1 : ht.ctl.darkN = true := by decide +kernel

theorem wit_FaultCommands_2_0 : ht.ctl.headTripN = true := by decide +kernel

theorem wit_FaultCommands_0_0 : run0.Takes 2048 fr0 ∧ (fr0.param 0 = 0 ∨ 64 < fr0.param 0) := by decide +kernel

theorem wit_FaultCommands_1_0 : arm.perim.active = none ∧ arm.perim.waiting = [] ∧ arm.Takes 2049 sd := by decide +kernel

theorem wit_FaultCommands_4_1 : run0.Takes 2051 fi0 ∧ fi0.param 0 = 0 ∧ fi0.param 1 = 0 ∧ wordAt e200 0 ≤ 200 := by decide +kernel

theorem wit_FaultCommands_0_2 : logS.Takes 2048 fr1 ∧ 1 ≤ fr1.param 0 ∧ fr1.param 0 ≤ 64 ∧ logS.perim.log ≠ [] := by decide +kernel

theorem wit_FaultCommands_0_1 : run0.Takes 2048 fr1 ∧ 1 ≤ fr1.param 0 ∧ fr1.param 0 ≤ 64 ∧ run0.perim.log = [] := by decide +kernel

theorem wit_FaultCommands_3_0 : up.Inv ∧ up.Takes 2050 dr0 ∧ up.seq.stripes = [] ∧ up.seq.opened = [] ∧ dr0.target = 0 := ⟨inv_of (by decide +kernel), by decide +kernel⟩

theorem wit_FaultCommands_3_1 : up.Inv ∧ up.Takes 2050 dr1 ∧ up.seq.stripes = [] ∧ up.seq.opened = [] ∧ dr1.target ≠ 0 := ⟨inv_of (by decide +kernel), by decide +kernel⟩

theorem wit_FaultCommands_4_0 : run0.Takes 2051 fibad
    ∧ injectInstance run0.nDies (fibad.param 0 % 256) (fibad.param 1 % 256) fibad.target = false := by decide +kernel

theorem wit_FaultCommands_1_2 : arm.perim.active = none ∧ arm.perim.waiting = [] ∧ arm.running = true
    ∧ arm.ctl.dev ≠ DevState.safeDark ∧ arm.ctl.darkN = false := by decide +kernel

theorem wit_FaultCommands_4_2 : run0.Takes 2051 fi10 ∧ fi10.param 0 = 10 ∧ fi10.param 1 = 0 ∧ wordAt [] 0 = 0
    ∧ run0.perim.active = none ∧ run0.perim.waiting = [] := by decide +kernel

theorem wit_FaultCommands_1_1 : arm.perim.active = none ∧ arm.perim.waiting = [] ∧ arm.running = true
    ∧ arm.ctl.dev ≠ DevState.safeDark ∧ arm.ctl.headTripN = false := by decide +kernel

theorem wit_FaultReports_2_2 : up.running = true ∧ 0 < up.nDies ∧ up.domOn 0 1 = true ∧ up.ctl.dev ≠ DevState.safeDark
    ∧ up.perim.active = none ∧ up.perim.waiting = [] := by decide +kernel

theorem wit_FaultReports_3 : State.reset.running = false := by decide +kernel

theorem wit_FaultReports_4_0 : s2.running = true ∧ s2.perim.active = some (aa2, 0) ∧ s2.perim.waiting = []
    ∧ 0 + 1 < actionSteps aa2.action := by decide +kernel

theorem wit_FaultReports_5 : wS6.running = true ∧ wS6.perim.active = none ∧ wS6.perim.waiting = [a6] ∧ wS6.moot a6 = false
    ∧ 1 < actionSteps a6.action := by decide +kernel

theorem wit_FaultReports_4_1 : actS0.running = true ∧ actS0.perim.active = some (a0, 0) ∧ actS0.perim.waiting = []
    ∧ actionSteps a0.action ≤ 0 + 1 ∧ a0.action = 0 := by decide +kernel

theorem wit_FaultReports_0_0 : up.running = true ∧ 1 < up.nDies ∧ up.domOn 1 1 = true ∧ 0 < 16 ∧ 16 ≤ 38 ∧ causeClass 16 1 = 1
    ∧ causePermCount 16 = none ∧ 16 ≠ 14 ∧ up.perim.active = none ∧ up.perim.waiting = [] := by decide +kernel

theorem wit_FaultReports_0_1 : wS.running = true ∧ 0 < wS.nDies ∧ wS.domOn 0 1 = true ∧ 0 < 18 ∧ 18 ≤ 38 ∧ causeClass 18 0 = 1
    ∧ causePermCount 18 = none ∧ 18 ≠ 14 ∧ wS.perim.active = none ∧ wS.perim.waiting = [wr] ∧ wr.cause = 18 ∧ wr.die = 0
    ∧ wr.unit = 3 := by decide +kernel

end Faults

namespace Thermal

def tr := pk 0xB01 1 [0x3000, 0]

def tc31 := pk 0xB02 1 [256*31]

def tcd := pk 0xB02 0xFFFF [256*30+1, 1, 60000]

def tc1 := pk 0xB02 1 [256*0+1]

def up := lanesUp run0

def hotS : State := let s := (lanesUp (runs .safeDark)).modDie 1 fun d => { d with pow.sensors := d.pow.sensors.modify 11 fun y => { y with hot := 1 } }
  { s with therm.stopped := true }

def dem : State := up.modDies fun d => { d with pow.demand := true }

def rail1 : Rail := { addr := 0x40, page := 0, kind := 0, die := 0, shared := false, step := 1, keep := false, avs := false, nominal := 100, vmin := 90, vmax := 110, ramp := 1, on := true, tries := 2 }

def rS : State := { run0 with therm.rails := [rail1] }

def rail0 : Rail := { rail1 with tries := 1 }

def rS0 : State := { run0 with therm.rails := [rail0] }

def rSb : State := { State.reset with therm.rails := [rail1], ctl.boot := .rails 1 }

def off : State := { State.reset with ctl.dev := .off }

theorem wit_ThermalRows_1_0 : run0.Takes 2818 tc31 ∧ 30 < tc31.param 0 / 256 % 32 := by decide +kernel

theorem wit_ThermalRows_0 : run0.Takes 2817 tr ∧ (run0.die tr.target).pow.demand = false := by decide +kernel

theorem wit_ThermalRows_1_1 : run0.Takes 2818 tcd ∧ 30 ≤ 30 ∧ 1 < 2 ∧ tcd.param 0 = 256 * 30 + 1 ∧ tcd.isDev = true := by decide +kernel

theorem wit_ThermalRows_3 : up.Inv ∧ up.ctl.dev ≠ DevState.off ∧ 1 < up.nDies ∧ 11 < 12 ∧ (up.die 1).pow.sensors.length = 12 := ⟨inv_of (by decide +kernel), by decide +kernel⟩

theorem wit_ThermalRows_1_2 : run0.Takes 2818 tc1 ∧ 0 ≤ 30 ∧ 1 < 2 ∧ tc1.param 0 = 256 * 0 + 1 ∧ tc1.isDev = false
    ∧ tc1.param 1 = 0 ∧ tc1.param 2 = 0 := by decide +kernel

theorem wit_ThermalRows_2_0 : up.ctl.dev ≠ DevState.off ∧ 1 < up.nDies ∧ 11 < 12
    ∧ ((up.die 1).pow.sensors.getD 11 Sensor.reset).excluded = false ∧ -640 ≤ -640 ∧ -640 ≤ 2400 ∧ -640 < 1840 := by decide +kernel

theorem wit_ThermalRows_5 : up.ctl.dev ≠ DevState.off ∧ 1 < up.nDies ∧ crossCheck 12 (up.die 1).pow.sensors = []
    ∧ up.therm.stopped = false ∧ up.therm.warn = false ∧ up.therm.throttle = false ∧ up.therm.blind = false ∧ up.tHot = some 0
    ∧ 0 < 1600 - 16 * ↑up.therm.margin := by decide +kernel

theorem wit_ThermalRows_4 : dem.ctl.dev ≠ DevState.off ∧ dem.therm.rails = [] ∧ dem.therm.stopped = false
    ∧ dem.therm.warn = false ∧ dem.therm.throttle = false ∧ dem.seq.thermPause = false ∧ dem.tHot = some 0
    ∧ 0 < 1600 - 16 * ↑dem.therm.margin ∧ (∀ d < dem.nDies, (dem.die d).pow.demand = true) := by decide +kernel

theorem wit_ThermalRows_2_1 : up.ctl.dev ≠ DevState.off ∧ 1 < up.nDies ∧ 11 < 12
    ∧ ((up.die 1).pow.sensors.getD 11 Sensor.reset).excluded = false ∧ -640 ≤ 1840 ∧ 1840 ≤ 2400 ∧ 1840 ≤ 1840 ∧ 1840 < 2000
    ∧ up.therm.stopped = false ∧ up.domOn 0 1 = true ∧ up.ctl.dev = DevState.configured ∧ up.perim.active = none
    ∧ up.perim.waiting = [] := by decide +kernel

theorem wit_ThermalRows_2_2 : hotS.ctl.dev ≠ DevState.off ∧ 1 < hotS.nDies ∧ 11 < 12
    ∧ ((hotS.die 1).pow.sensors.getD 11 Sensor.reset).excluded = false ∧ -640 ≤ 2000 ∧ 2000 ≤ 2400 ∧ 2000 ≤ 2000
    ∧ hotS.therm.stopped = true ∧ hotS.therm.latched = false ∧ 1 ≤ ((hotS.die 1).pow.sensors.getD 11 Sensor.reset).hot
    ∧ hotS.domOn 0 1 = true ∧ hotS.ctl.dev = DevState.safeDark := by decide +kernel

theorem wit_PmbusRows_3 : rS.ctl.dev ≠ DevState.off := by decide +kernel

theorem wit_PmbusRows_4_1 : off.ctl.dev = DevState.off := by decide +kernel

theorem wit_PmbusRows_1_0 : rS0.therm.rails[0]? = some rail0 ∧ rail0.tries < 2 := by decide +kernel

theorem wit_PmbusRows_1_1 : rS.therm.rails[0]? = some rail1 ∧ 2 ≤ rail1.tries ∧ rS.ctl.boot = BootPhase.idle := by decide +kernel

theorem wit_PmbusRows_1_2 : rSb.therm.rails[0]? = some rail1 ∧ 2 ≤ rail1.tries ∧ rSb.ctl.boot = BootPhase.rails 1 := by decide +kernel

end Thermal

namespace Render

def nx (r : Res) : State := match r with | .next t => t | _ => State.reset

def g0 := withStripe stripe1 (staged .armed)

def b0 := nx (exec .stripeRenderBegin g0)

def st0 : Stripe := { stripe1 with rendered := 1, phase := .prefill }

def ps : List BodyRec := match b0.body st0 0 (st0.root.segmentOf 31) with | .read p _ => p | _ => []

def bseq : Nat := 1

def ringFull : State := b0.modDies fun d => { d with tess.coarseRow := 130, con.ringLow := 2 }

theorem wit_RenderRows_2_3 : run0.workOf 0 = none ∧ (run0.die 0).tess.queue = [] := by decide +kernel

theorem wit_RenderRows_4 : b0.workOf 0 = some (st0, 0) ∧ b0.renders 0 = true ∧ b0.blockMissing st0 = false
    ∧ st0.root.streamBlocks ≤ 2048 ∧ (b0.die 0).con.ringOf = some (st0.id, 0)
    ∧ (b0.die 0).tess.coarseRow + 1 ≤ ↑st0.root.coarseRows - 1 + ↑st0.tables.lrK
    ∧ (b0.die 0).tess.coarseRow + 1 - 128 < (b0.die 0).con.ringLow
    ∧ b0.body st0 0 (st0.root.segmentOf (32 * ((b0.die 0).tess.coarseRow + 1) + 31)) = Body.read ps bseq ∧ b0.ownersOf 0 = [0] := by decide +kernel

theorem wit_RenderRows_0 : run0.nextRender = none := by decide +kernel

theorem wit_RenderRows_1 : g0.nextRender = some stripe1 ∧ g0.stripe? stripe1.id = some stripe1 ∧ g0.ctl.ready = true
    ∧ g0.active = true ∧ (∀ d ∈ g0.dies, d.retired = false → d.tess.work = none ∧ d.con.ringOf = none)
    ∧ stripe1.root.streamBlocks ≤ 2048 := by decide +kernel

theorem wit_RenderRows_3_0 : ringFull.workOf 0 = some (st0, 0) ∧ ringFull.renders 0 = true ∧ ringFull.blockMissing st0 = false
    ∧ st0.root.streamBlocks ≤ 2048 ∧ (ringFull.die 0).con.ringOf = some (st0.id, 0)
    ∧ (ringFull.die 0).tess.coarseRow + 1 ≤ ↑st0.root.coarseRows - 1 + ↑st0.tables.lrK
    ∧ (ringFull.die 0).con.ringLow ≤ (ringFull.die 0).tess.coarseRow + 1 - 128 := by decide +kernel

theorem wit_RenderRows_3_3_1 : b0.workOf 0 = some (st0, 0) ∧ b0.renders 0 = true ∧ b0.blockMissing st0 = false
    ∧ st0.root.streamBlocks ≤ 2048 ∧ st0.root.hasColumn (512 * 0) = true ∧ (b0.die 0).tess.fineRow ≤ st0.root.lastTile
    ∧ min (2 * (b0.die 0).tess.fineRow + 1 + ↑st0.tables.lrK) (↑st0.root.coarseRows - 1 + ↑st0.tables.lrK) ≤ (b0.die 0).tess.coarseRow
    ∧ b0.body st0 0 (st0.root.segmentOf (64 * (b0.die 0).tess.fineRow + 63)) = Body.read ps bseq
    ∧ (b0.die 0).tess.takes (List.map (fun col => { stripe := st0.id, pass := 0, col := col, ty := (b0.die 0).tess.fineRow, pieces := byClass (List.map (fun i => (i.cls, i.shape)) (List.filter (fun i => i.box.meetsInside (tileBox 0 st0.root.rows col (b0.die 0).tess.fineRow)) (bodyInsts (b0.cellsOf st0) (tileBox 0 st0.root.rows col (b0.die 0).tess.fineRow) (bandPlaces st0.root ps)))) }) (List.range 10)) = true := by decide +kernel

end Render

namespace Facet

def nx (r : Res) : State := match r with | .next t => t | _ => State.reset

def g0 := withStripe stripe1 (staged .armed)

def b0 := nx (exec .stripeRenderBegin g0)

def st0 : Stripe := { stripe1 with rendered := 1, phase := .prefill }

def up0 : Int := 0

def coarseDone : State := b0.modDies fun d => { d with tess.coarseRow := 5 }

def fine5 : State := b0.modDies fun d => { d with tess.fineRow := 5 }

def fb1 := nx (exec (.tesseraFineBand 0) (coarseDone.modDies fun d => { d with tess.fineRow := 0 }))

def tl0 : Tile := (fb1.die 0).tess.queue.headD { stripe := 9, pass := 0, col := 0, ty := 0, pieces := [] }

def tlr : List Tile := (fb1.die 0).tess.queue.tail

def upB : Int := 100000000

theorem wit_RenderRows_3_2 : fine5.workOf 0 = some (st0, 0) ∧ fine5.renders 0 = true ∧ fine5.blockMissing st0 = false
    ∧ st0.root.streamBlocks ≤ 2048 ∧ st0.root.hasColumn (512 * 0) = true ∧ (fine5.die 0).tess.fineRow ≤ st0.root.lastTile
    ∧ (fine5.die 0).tess.coarseRow < min (2 * (fine5.die 0).tess.fineRow + 1 + ↑st0.tables.lrK) (↑st0.root.coarseRows - 1 + ↑st0.tables.lrK) := by decide +kernel

theorem wit_RenderRows_5_0 : (fb1.die 0).tess.queue = tl0 :: tlr ∧ fb1.stripe? tl0.stripe = some st0 ∧ fb1.renders 0 = true
    ∧ (fb1.die 0).facetFailed = false
    ∧ (fb1.die 0).tess.outBytes + 4 * ((tileSpan 0 st0.root.rows tl0.col tl0.ty).2.1 * (tileSpan 0 st0.root.rows tl0.col tl0.ty).2.2.2) ≤ 2 ^ 21
    ∧ ((renderTile st0.dose st0.root.additive (List.map Piece.of tl0.pieces) (tileSpan 0 st0.root.rows tl0.col tl0.ty)).f + up0 - (renderTile st0.dose st0.root.additive (List.map Piece.of tl0.pieces) (tileSpan 0 st0.root.rows tl0.col tl0.ty)).t).natAbs ≤ (renderTile st0.dose st0.root.additive (List.map Piece.of tl0.pieces) (tileSpan 0 st0.root.rows tl0.col tl0.ty)).tolerance := by decide +kernel

theorem wit_RenderRows_5_1 : (fb1.die 0).tess.queue = tl0 :: tlr ∧ fb1.stripe? tl0.stripe = some st0 ∧ fb1.renders 0 = true
    ∧ (fb1.die 0).facetFailed = false
    ∧ (fb1.die 0).tess.outBytes + 4 * ((tileSpan 0 st0.root.rows tl0.col tl0.ty).2.1 * (tileSpan 0 st0.root.rows tl0.col tl0.ty).2.2.2) ≤ 2 ^ 21
    ∧ (renderTile st0.dose st0.root.additive (List.map Piece.of tl0.pieces) (tileSpan 0 st0.root.rows tl0.col tl0.ty)).tolerance < ((renderTile st0.dose st0.root.additive (List.map Piece.of tl0.pieces) (tileSpan 0 st0.root.rows tl0.col tl0.ty)).f + upB - (renderTile st0.dose st0.root.additive (List.map Piece.of tl0.pieces) (tileSpan 0 st0.root.rows tl0.col tl0.ty)).t).natAbs
    ∧ (fb1.die 0).facetCount = 0 ∧ fb1.perim.active = none ∧ fb1.perim.waiting = [] := by decide +kernel

end Facet

namespace Dose

def nx (r : Res) : State := match r with | .next t => t | _ => State.reset

def g0 := withStripe stripe1 (staged .armed)

def b0 := nx (exec .stripeRenderBegin g0)

def st0 : Stripe := { stripe1 with rendered := 1, phase := .prefill }

def pkt (row : Int) : Nat × List Word := (1, densityPacket 9 0 1 false row 16 (List.replicate 16 5))

def inR (row : Int) : State := b0.modDie 0 fun d => { d with con.fabric := [pkt row] }

def p0 := pkt 0

def r0 := inR 0

def nr : Option (List Word) := none

def p1 := pkt 1

def r1 := inR 1

def p9 : Nat × List Word := (1, densityPacket 9 1 1 false 0 16 (List.replicate 16 5))

def r9 := b0.modDie 0 fun d => { d with con.fabric := [p9] }

def stp : State := b0.modDies fun d => { d with con.stops := [(9, 0)] }

def ringD : State := b0.modDies fun d => { d with con.ring := [{ row := 0, owners := [0, 1] }] }

theorem wit_DosePathRows_1 : (run0.die 0).con.stops.contains (9, 0) = false := by decide +kernel

theorem wit_DosePathRows_2 : (stp.die 0).con.stops.contains (9, 0) = true ∧ 0 < stp.dies.length := by decide +kernel

theorem wit_DosePathRows_0_0 : (r0.die 0).con.packet? 0 1 = some p0 ∧ r0.ringOf 0 = some (st0, 0) ∧ r0.renders 0 = true
    ∧ r0.packetCheck 0 1 st0 0 (nr.getD p0.2) = PacketCheck.row := by decide +kernel

theorem wit_DosePathRows_0_1 : (r9.die 0).con.packet? 0 1 = some p9 ∧ r9.ringOf 0 = some (st0, 0) ∧ r9.renders 0 = true
    ∧ r9.packetCheck 0 1 st0 0 (nr.getD p9.2) = PacketCheck.waits := by decide +kernel

theorem wit_DosePathRows_0_2 : (r1.die 0).con.packet? 0 1 = some p1 ∧ r1.ringOf 0 = some (st0, 0) ∧ r1.renders 0 = true
    ∧ r1.packetCheck 0 1 st0 0 (nr.getD p1.2) = PacketCheck.fault 1 ∧ r1.perim.active = none ∧ r1.perim.waiting = [] := by decide +kernel

theorem wit_DosePathRows_4_0 : b0.workOf 0 = some (st0, 0) ∧ b0.renders 0 = true ∧ st0.root.hasColumn (512 * 0) = true
    ∧ (b0.die 0).contourFailed = false ∧ 64 * (b0.die 0).con.next < st0.root.rows
    ∧ ((b0.die 0).blockReady st0 (b0.die 0).con.next).1 = false := by decide +kernel

theorem wit_DosePathRows_3_0 : b0.ringOf 0 = some (st0, 0) ∧ b0.renders 0 = true ∧ st0.root.hasColumn (512 * 0) = true
    ∧ (b0.die 0).con.factors.length < 8 ∧ (∀ c ∈ (b0.die 0).sram.cells, ∃ b, sramDecode c.2 = SramOutcome.clean b)
    ∧ b0.ctl.resetRequest ≠ some ResetKind.sramError
    ∧ (∃ i < 2 * st0.tables.lrK + 1, ¬∃ r ∈ (b0.die 0).con.ring, r.row = ↑(b0.die 0).con.lrNext + ↑i - ↑st0.tables.lrK
    ∧ DensRow.complete b0.nDies r = true) := by decide +kernel

theorem wit_DosePathRows_3_1 : ringD.ringOf 0 = some (st0, 0) ∧ ringD.renders 0 = true ∧ st0.root.hasColumn (512 * 0) = true
    ∧ (ringD.die 0).con.factors.length < 8 ∧ (∀ c ∈ (ringD.die 0).sram.cells, ∃ b, sramDecode c.2 = SramOutcome.clean b)
    ∧ ringD.ctl.resetRequest ≠ some ResetKind.sramError
    ∧ (∀ i < 2 * st0.tables.lrK + 1, ∃ r ∈ (ringD.die 0).con.ring, r.row = ↑(ringD.die 0).con.lrNext + ↑i - ↑st0.tables.lrK
    ∧ DensRow.complete ringD.nDies r = true) ∧ (ringD.die 0).con.lrNext + 1 < st0.root.coarseRows := by decide +kernel

end Dose

namespace Ahead

def nx (r : Res) : State := match r with | .next t => t | _ => State.reset

def g0 := withStripe stripe1 (staged .armed)

def b0 := nx (exec .stripeRenderBegin g0)

def st0 : Stripe := { stripe1 with rendered := 1, phase := .prefill }

def tilesS : State := b0.modDies fun d => { d with tess.tiles := (List.range 10).map fun c => { col := c, ty := 0, px := List.replicate 64 (List.replicate 64 100) } }

def bk : RaBlock :=
  { stripe := 9, pass := 0, ty := 0, rows := [List.replicate 512 3], comp := false, offset := 0, length := 1024, dataCrc := 3948653504, entryCrc := 574113817 }

def raS : State := b0.modDies fun d => { d with con.ra := [bk] }

def restB : List RaBlock := []

def am : RaRead := .missing

def raC : State := b0.modDies fun d => { d with con.ra := [bk], con.checked := [bk.key] }

/-- A block of no rows, whose check values are those of no bytes. -/
def bkF' : RaBlock := { bk with ty := 1, rows := [], length := 0, dataCrc := 8, entryCrc := 3663623029 }

def raF : State := b0.modDies fun d => { d with con.ra := [bkF'] }

def raFC : State := b0.modDies fun d => { d with con.ra := [bkF'], con.checked := [bkF'.key] }

theorem wit_DosePathRows_5_0_1 : raC.passBlocks 0 = bk :: restB ∧ raC.renders 0 = true ∧ (raC.die 0).contourFailed = false
    ∧ (raC.die 0).con.checked.contains bk.key = true ∧ (raC.die 0).con.toRead (bk :: restB) = none
    ∧ 64 * bk.ty + (raC.die 0).rowsPlaced bk ≤ raC.fillLimit := by decide +kernel

theorem wit_DosePathRows_5_0_0 : raFC.passBlocks 0 = bkF' :: restB ∧ raFC.renders 0 = true ∧ (raFC.die 0).contourFailed = false
    ∧ (raFC.die 0).con.checked.contains bkF'.key = true ∧ (raFC.die 0).con.toRead (bkF' :: restB) = none
    ∧ raFC.fillLimit < 64 * bkF'.ty + (raFC.die 0).rowsPlaced bkF' := by decide +kernel

theorem wit_DosePathRows_5_1 : raF.passBlocks 0 = bkF' :: restB ∧ raF.renders 0 = true ∧ (raF.die 0).contourFailed = false
    ∧ (raF.die 0).con.checked = []
    ∧ bkF'.accepted (bkF'.words ++ [bkF'.entryCrc]) (some (blockBytes bkF'.rows)) = some bkF'.rows
    ∧ raF.fillLimit < 64 * bkF'.ty + (raF.die 0).rowsPlaced bkF' := by decide +kernel

theorem wit_DosePathRows_4_1 : tilesS.workOf 0 = some (st0, 0) ∧ tilesS.renders 0 = true ∧ st0.root.hasColumn (512 * 0) = true
    ∧ (tilesS.die 0).contourFailed = false ∧ 64 * (tilesS.die 0).con.next < st0.root.rows
    ∧ ((tilesS.die 0).blockReady st0 (tilesS.die 0).con.next).1 = true
    ∧ ((tilesS.die 0).blockReady st0 (tilesS.die 0).con.next).2 = false := by decide +kernel

theorem wit_DosePathRows_5_2 : raS.passBlocks 0 = bk :: restB ∧ raS.renders 0 = true ∧ (raS.die 0).contourFailed = false
    ∧ (raS.die 0).con.checked = [] ∧ raS.perim.active = none ∧ raS.perim.waiting = []
    ∧ (am = RaRead.missing ∨ ∃ corrected entry data, am = RaRead.read corrected 0 entry data
    ∧ bk.accepted (entry.getD (bk.words ++ [bk.entryCrc])) (data.getD (some (blockBytes bk.rows))) = none) := ⟨by decide +kernel, by decide +kernel, by decide +kernel, by decide +kernel, by decide +kernel, by decide +kernel, Or.inl rfl⟩

end Ahead

namespace Dma

def fwS : State := { run0 with dmaD := run0.dmaD.set 6 (DmaD.reset true) }

def dd (f : DmaD → DmaD) : DmaD := f { DmaD.reset false with ring := 0x100000 }

def dS (c : DmaD) : State := { run0 with dmaD := run0.dmaD.set 1 c }

def c0 := dd id

def c0S := dS c0

def desc1 : List Word := [0x80000001,0,0,0,0,0,0,0]

def dRun := dd fun c => { c with run := true, state := .active }

def dRunS := dS dRun

def dDesc := dd fun c => { c with run := true, state := .active, desc := some desc1, sgl := [(0x2000, 64)], bound := some 9, irqBad := false }

def dDescS : State := { dS dDesc with areas := [{ Area.reset with bound := some 9 }, Area.reset] }

def dErr := dd fun c => { c with state := .error, err := 4 }

def dErrS := dS dErr

def arS : State := { c0S with ctl.dev := .armed }

def f1 := DmaD.reset true

def f1S := dS f1

theorem wit_DmaChannels_1_9 : c0S.hifOn = true ∧ 1 < 8 ∧ c0S.dmaD[1]? = some c0 ∧ c0.firmware = false
    ∧ c0S.ctl.dev = DevState.configured ∧ c0.state = DmaState.stopped := by decide +kernel

theorem wit_DmaChannels_0_5 : fwS.hifOn = true ∧ 6 < 8 ∧ (fwS.dmaChan 6).firmware = true := by decide +kernel

theorem wit_DmaChannels_1_4 : arS.hifOn = true ∧ 1 < 8 ∧ arS.dmaD[1]? = some c0 ∧ c0.firmware = false ∧ c0.desc = none := by decide +kernel

theorem wit_DmaChannels_1_2 : arS.hifOn = true ∧ 1 < 8 ∧ arS.dmaD[1]? = some c0 ∧ c0.firmware = false ∧ c0.run = false := by decide +kernel

theorem wit_DmaChannels_1_1 : dRunS.hifOn = true ∧ 1 < 8 ∧ dRunS.dmaD[1]? = some dRun ∧ dRun.firmware = false ∧ dRun.run = true := by decide +kernel

theorem wit_DmaChannels_1_7 : dErrS.hifOn = true ∧ 1 < 8 ∧ dErrS.dmaD[1]? = some dErr ∧ dErr.firmware = false
    ∧ dErr.state ≠ DmaState.stopped := by decide +kernel

theorem wit_DmaChannels_1_5 : dDescS.hifOn = true ∧ 1 < 8 ∧ dDescS.dmaD[1]? = some dDesc ∧ dDesc.firmware = false
    ∧ dDesc.desc = some desc1 ∧ dDesc.done % 65536 = 0 := by decide +kernel

theorem wit_DmaChannels_2 : f1S.hifOn = true ∧ 1 < 8 ∧ f1S.dmaD[1]? = some f1 ∧ f1.firmware = true
    ∧ f1S.ctl.dev = DevState.configured ∧ f1.state = DmaState.stopped := by decide +kernel

theorem wit_DmaChannels_1_10 : arS.hifOn = true ∧ 1 < 8 ∧ arS.dmaD[1]? = some c0 ∧ c0.firmware = false
    ∧ (arS.ctl.dev ≠ DevState.configured ∨ c0.state ≠ DmaState.stopped) := by decide +kernel

end Dma

namespace Transfer

def dd (f : DmaD → DmaD) : DmaD := f { DmaD.reset false with ring := 0x100000 }

def dS (c : DmaD) : State := { run0 with dmaD := run0.dmaD.set 1 c }

def desc1 : List Word := [0x80000001,0,0,0,0,0,0,0]

def dDesc := dd fun c => { c with run := true, state := .active, desc := some desc1, sgl := [(0x2000, 64)], bound := some 9, irqBad := false }

def dDescS : State := { dS dDesc with areas := [{ Area.reset with bound := some 9 }, Area.reset] }

def dAct := dd fun c => { c with run := true, state := .active, irqBad := false, bound := some 9 }

def dActS : State := { dS dAct with areas := [{ Area.reset with bound := some 9 }, Area.reset] }

def wsN : List Word := [0x7FFFFFFF,0,0,0,0,0,0,0]

def ws0 : List Word := [0x80000000,0,0,0,0,0,0,0]

def bs10 : List Byte := [1,2,3,4,5,6,7,8,9,10]

def bs64 : List Byte := List.replicate 64 7

theorem wit_DmaTransfers_0_3 : dActS.running = true ∧ 1 < 8 ∧ dActS.dmaD[1]? = some dAct ∧ dAct.firmware = false
    ∧ dAct.desc = none ∧ dAct.state = DmaState.active ∧ wordAt wsN 0 < 2 ^ 31 := by decide +kernel

theorem wit_DmaTransfers_2 : dActS.running = true ∧ 1 < 8 ∧ (dActS.dmaChan 1).desc = none := by decide +kernel

theorem wit_DmaTransfers_0_2 : dActS.running = true ∧ 1 < 8 ∧ dActS.dmaD[1]? = some dAct ∧ dAct.firmware = false
    ∧ dAct.desc = none ∧ dAct.state = DmaState.active ∧ wordAt ws0 0 = 2 ^ 31 ∧ dAct.irqBad = false := by decide +kernel

theorem wit_DmaTransfers_1_0 : dDescS.running = true ∧ 1 < 8 ∧ dDescS.dmaD[1]? = some dDesc ∧ dDesc.firmware = false
    ∧ dDesc.desc = some desc1 ∧ wordAt desc1 0 / 2 ^ 29 % 2 = 0 ∧ dDesc.paused = false ∧ dDesc.ended = false
    ∧ dDesc.sgl = [(8192, 64)] ∧ dDesc.entry = 0 ∧ dDesc.offset < 64 ∧ bs10.length ≤ 4096 - (8192 + dDesc.offset) % 4096
    ∧ bs10.length ≤ dDescS.pcie.maxReadRequest ∧ bs10.length ≤ dDescS.stageRoom dDesc ∧ 0 < dDescS.stageRoom dDesc
    ∧ bs10.length < 64 - dDesc.offset := by decide +kernel

theorem wit_DmaTransfers_1_1 : dDescS.running = true ∧ 1 < 8 ∧ dDescS.dmaD[1]? = some dDesc ∧ dDesc.firmware = false
    ∧ dDesc.desc = some desc1 ∧ wordAt desc1 0 / 2 ^ 29 % 2 = 0 ∧ dDesc.paused = false ∧ dDesc.ended = false
    ∧ dDesc.sgl = [(8192, 64)] ∧ dDesc.entry = 0 ∧ dDesc.offset < 64 ∧ bs64.length ≤ 4096 - (8192 + dDesc.offset) % 4096
    ∧ bs64.length ≤ dDescS.pcie.maxReadRequest ∧ bs64.length ≤ dDescS.stageRoom dDesc ∧ 0 < dDescS.stageRoom dDesc
    ∧ bs64.length = 64 - dDesc.offset := by decide +kernel

end Transfer

namespace Move

def mws : List Word := [0x80000000, 0x100, 0, 0x200, 0x2000, 16, 0, 0]

def mS : State := run0.modDie 0 fun d => { d with moves := d.moves.set 1 { DmaD.reset true with state := .active, run := true, desc := some mws } }

def mda : DevAddr := { die := 0, bcast := false, sram := false, off := 0x100 }

def mdb : DevAddr := { die := 1, bcast := false, sram := false, off := 0x200 }

theorem wit_DmaTransfers_3_1 : mS.running = true ∧ 0 < mS.nDies ∧ 1 < 4 ∧ (mS.moveChan 0 1).desc = some mws ∧ moveReq mws = none
    ∧ mS.moveDesc mws = some (mda, mdb, 16) ∧ mda.sram = false ∧ mdb.sram = false ∧ mdb.bcast = false ∧ mda.die ≠ mdb.die
    ∧ (mS.moveChan 0 1).done < 16 := by decide +kernel

end Move

namespace ClassT

def T0 := run0.dmaT.getD 0 DmaT.reset

def r8 : List Word := List.replicate 8 5

def tW : DmaT := { DmaT.reset with source := .ledger, enabled := true, waiting := [r8], buf := 0x4000, wr := 4064 }

def tS (c : DmaT) : State := { run0 with dmaT := run0.dmaT.set 2 c }

def restN : List (List Word) := []

def tF : DmaT := { tW with wr := 4096 }

def tFS := tS tF

def tR : DmaT := { tW with rd := 4000 }

def tRS := tS tR

theorem wit_ClassTStreams_1_1 : State.reset.hifOn = false := by decide +kernel

theorem wit_ClassTStreams_0_1 : run0.hifOn = true ∧ run0.dmaT[1]? = some T0 := by decide +kernel

theorem wit_ClassTStreams_3 : run0.dmaT[1]? = some T0 ∧ T0.waiting = [] := by decide +kernel

theorem wit_ClassTStreams_2_0 : tFS.dmaT[2]? = some tF ∧ tF.waiting = r8 :: restN ∧ tFS.running = true ∧ tF.enabled = true
    ∧ r8 ≠ [] ∧ 2 ^ tF.log2 < (tF.wr + 2 ^ 32 - tF.rd) % 2 ^ 32 + 4 * r8.length := by decide +kernel

theorem wit_ClassTStreams_2_1 : tRS.dmaT[2]? = some tR ∧ tR.waiting = r8 :: restN ∧ tRS.running = true ∧ tR.enabled = true
    ∧ r8 ≠ [] ∧ (tR.wr + 2 ^ 32 - tR.rd) % 2 ^ 32 + 4 * r8.length ≤ 2 ^ tR.log2 := by decide +kernel

end ClassT

namespace Register

def dd (f : DmaD → DmaD) : DmaD := f { DmaD.reset false with ring := 0x100000 }

def dS (c : DmaD) : State := { run0 with dmaD := run0.dmaD.set 1 c }

def c0 := dd id

def c0S := dS c0

def arS : State := { c0S with ctl.dev := .armed }

def ncE : State := { run0 with hif.ncmd.enabled := true }

theorem wit_RegisterAccess_2_2 : run0.hifOn = true ∧ 1 ≤ 1 ∧ 67108860 % 4 = 0 ∧ run0.reg 67108860 = none := by decide +kernel

theorem wit_RegisterAccess_0_1 : State.reset.hifOn = false := by decide +kernel

theorem wit_RegisterAccess_1_9 : ncE.hifOn = true ∧ ncE.hif.ncmd.enabled = true := by decide +kernel

theorem wit_RegisterAccess_1_7 : arS.hifOn = true ∧ arS.ctl.dev ≠ DevState.configured := by decide +kernel

theorem wit_RegisterAccess_1_8 : ncE.hifOn = true ∧ ncE.ctl.dev = DevState.configured := by decide +kernel

theorem wit_RegisterAccess_1_0 : run0.hifOn = true ∧ (4 ≠ 4 ∨ 66 % 4 ≠ 0) ∧ (run0.reg (66 / 4 * 4)).isSome = true := by decide +kernel

theorem wit_RegisterAccess_1_1 : run0.hifOn = true ∧ (2 ≠ 4 ∨ 67108862 % 4 ≠ 0) ∧ run0.reg (67108862 / 4 * 4) = none := by decide +kernel

theorem wit_RegisterAccess_2_0 : run0.hifOn = true ∧ (4 ≠ 4 ∨ 64 % 4 ≠ 0 ∨ 1 < 2) ∧ (run0.reg (64 / 4 * 4)).isSome = true := by decide +kernel

theorem wit_RegisterAccess_2_1 : run0.hifOn = true ∧ (8 ≠ 4 ∨ 67108860 % 4 ≠ 0 ∨ 1 < 1) ∧ run0.reg (67108860 / 4 * 4) = none := by decide +kernel

end Register

namespace Check

def x1 : Die := run0.die 1

def cu : CrcUnit := x1.crc.getD 3 (CrcUnit.reset)

def xb : Die := { x1 with crc := x1.crc.set 3 { cu with busy := true } }

def xbS : State := { run0 with dies := run0.dies.set 1 xb }

def cub : CrcUnit := { cu with busy := true }

theorem wit_CrcUnitRows_0_0_4 : xbS.domOn 1 2 = true ∧ 1 < xbS.nDies ∧ 3 < 4 ∧ xbS.dies[1]? = some xb ∧ xb.crc[3]? = some cub
    ∧ cub.busy = true := by decide +kernel

end Check

namespace Status

def c1 : Ctx := ctx1

def se : State := { run0 with hif.stat := { run0.hif.stat with enabled := true, base := 0x10000, log2 := 4, tail := 15, head := 3 } }

def se2 : State := { run0 with hif.stat := { run0.hif.stat with enabled := true, base := 0x10000, log2 := 4, tail := 2, head := 3 } }

def se3 : State := { se with hif.gen := 7 }

def pBad := pk 0x7FFF 0xFFFF []

theorem wit_StatusEntry_2_9 : c1.held = none ∧ c1.gen = se.hif.gen ∧ se.hif.stat.enabled = true ∧ se.ctl.d3hot = false
    ∧ se.hif.holding = []
    ∧ (se.hif.stat.tail + 2 ^ se.hif.stat.log2 - se.hif.stat.head) % 2 ^ se.hif.stat.log2 + se.hif.stat.reserved + 1 < 2 ^ se.hif.stat.log2
    ∧ se.hif.stat.tail < 2 ^ se.hif.stat.log2 := by decide +kernel

theorem wit_StatusEntry_0 : c1.held = none ∧ c1.gen ≠ se3.hif.gen := by decide +kernel

theorem wit_StatusEntry_1 : c1.held = none ∧ run0.hif.stat.enabled = false := by decide +kernel

theorem wit_StatusEntry_3 : c1.held = none ∧ c1.gen = se2.hif.gen ∧ se2.hif.stat.enabled = true ∧ se2.ctl.d3hot = false
    ∧ 2 ^ se2.hif.stat.log2 ≤ (se2.hif.stat.tail + 2 ^ se2.hif.stat.log2 - se2.hif.stat.head) % 2 ^ se2.hif.stat.log2 + se2.hif.stat.reserved + 1 := by decide +kernel

theorem wit_SharedChecks_1_0 : opRow pBad.opcode = none := by decide +kernel

end Status

namespace Rest

/-! #### The queue and the invariant -/

def queued : State := { run0 with pending := [.nop (pk 0 0xFFFF [])] }

theorem wit_StepTakesFront : queued.pending = .nop (pk 0 0xFFFF []) :: [] := rfl

theorem wit_StepKeepsInvariant : queued.Inv ∧ ∃ t, step queued = .next t := ⟨inv_of (by decide +kernel), _, rfl⟩

theorem test_step : step queued = exec (.nop (pk 0 0xFFFF [])) run0 := rfl

/-! #### The shared checks -/

def retiredS : State :=
  { run0 with dies := run0.dies.map fun d => { d with retired := d.id == 1, lanes := d.lanes.map fun l => { l with retired := true } } }

def held : State := { run0 with ctl.ready := false }

def halted : State := { run0 with ctl.dev := .halted }

theorem wit_SharedChecks_0 : held.accepts (Packet.ofRow 0 (pk 0 0xFFFF [])) = false := by decide +kernel

theorem wit_SharedChecks_0_1 : run0.accepts (Packet.ofRow 0 (pk 0 1 [])) = true
    ∧ run0.preCheck (Packet.ofRow 0 (pk 0 1 [])) = some badParam := by decide +kernel

theorem wit_SharedChecks_1_1 : opRow (pk 4 0xFFFF []).opcode = some ⟨false, 15, .dev, 1⟩
    ∧ ({ pk 4 0xFFFF [] with urgent := true } : Packet).urgent = true
    ∧ 14 < (pk 4 0xFFFF (List.replicate 15 0)).plen ∧ Packet.minPlen (pk 0x500 0xFFFF [9]) ⟨false, 1, .dev, 0⟩ = none
    ∧ Packet.minPlen (pk 4 0xFFFF []) ⟨false, 15, .dev, 1⟩ = some 1 ∧ (pk 4 0xFFFF []).plen < 1
    ∧ run0.targetOk .dev (pk 4 3 []).target = false := by decide +kernel

theorem wit_SharedChecks_1_3 : halted.packetOk (pk 0 0xFFFF []) ⟨true, 15, .dev, 0⟩ = true ∧ halted.ctl.dev.mask = 0 := by
  decide +kernel

theorem wit_SharedChecks_1_4 : retiredS.packetOk (pk 0x602 3 []) ⟨false, 15, .lane, 0⟩ = true ∧ retiredS.ctl.dev.mask ≠ 0
    ∧ 15 / retiredS.ctl.dev.mask % 2 = 1 ∧ (pk 0x602 3 []).isDev = false ∧ (retiredS.lane (pk 0x602 3 []).target).retired = true
    ∧ retiredS.packetOk (pk 0x802 1 []) ⟨false, 15, .die, 0⟩ = true ∧ (pk 0x802 1 []).isDev = false
    ∧ (retiredS.die (pk 0x802 1 []).target).retired = true := by decide +kernel

/-! #### SRAM check bits (04 R110, Table 4-4) -/

def syndrome (w : Stored) : Nat :=
  let d := fun i => w.getLsbD i
  b2n (d 0 ^^ d 1 ^^ d 3 ^^ d 4 ^^ d 6 ^^ d 8) + 2 * b2n (d 0 ^^ d 2 ^^ d 3 ^^ d 5 ^^ d 6 ^^ d 9)
    + 4 * b2n (d 1 ^^ d 2 ^^ d 3 ^^ d 7 ^^ d 10) + 8 * b2n (d 4 ^^ d 5 ^^ d 6 ^^ d 7 ^^ d 11)

def odd (w : Stored) : Bool := ((List.range 13).filter fun i => w.getLsbD i).length % 2 == 1

theorem wit_SyndromeTable : (syndrome 0 = 0 ∧ odd 0 = false) ∧ (syndrome 0x1000 = 0 ∧ odd 0x1000 = true)
    ∧ (∀ i < 8, syndrome (BitVec.ofNat 13 (2 ^ i)) = [3, 5, 6, 7, 9, 10, 11, 12].getD i 0 ∧ odd (BitVec.ofNat 13 (2 ^ i)) = true)
    ∧ (syndrome 3 ≠ 0 ∧ odd 3 = false) ∧ (12 < syndrome 0x1180 ∧ odd 0x1180 = true) := by decide +kernel

theorem wit_SecdedCorrects : 0 < 13 ∧ 12 < 13 ∧ 0 ≠ 12 := by decide

/-! #### UPDATE_CONFIRM -/

def trial : Selector := { Selector.default with trial := true, sequence := 5, active := 1 }

def onTrial : State := { run0 with flash.sel := [none, some trial] }

theorem wit_UpdateConfirm_1 : onTrial.Takes 0x0902 (pk 0x902 0xFFFF []) ∧ onTrial.selector = some trial ∧ trial.trial = true := by
  decide +kernel

/-! #### The tile queue, full -/

theorem length_le_bytes (t : Tile) : t.pieces.length ≤ t.bytes := by
  rw [Tile.bytes]
  generalize t.pieces = ps
  induction ps with
  | nil => exact Nat.le_refl 0
  | cons p ps ih => simp only [List.map_cons, List.sum_cons, List.length_cons]; omega

theorem takes_full {t : Tess} {x : Tile} {rest : List Tile} (h : t.queue = x :: rest) (hx : 2 ^ 20 < x.pieces.length)
    (tiles : List Tile) : t.takes tiles = false := by
  have := length_le_bytes x
  have hs : 2 ^ 20 < ((t.queue ++ tiles).map Tile.bytes).sum := by
    rw [h]
    simp only [List.cons_append, List.map_cons, List.sum_cons]
    omega
  rw [h] at hs
  rw [Tess.takes, h, List.isEmpty_cons, Bool.false_or]
  exact decide_eq_false (Nat.not_le.2 hs)

def next (r : Res) : State := match r with | .next t => t | _ => State.reset

def begun : State := next (exec .stripeRenderBegin (withStripe stripe1 (staged .armed)))

def stBegun : Stripe := { stripe1 with rendered := 1, phase := .prefill }

def heavy : Tile := { stripe := 9, pass := 0, col := 0, ty := 0, pieces := List.replicate (2 ^ 20 + 1) (0, .circle ⟨0, 0⟩ 1) }

def fullQueue : State := begun.modDies fun d => { d with tess.queue := [heavy] }

def read : BodyRec := { place := ⟨0, 1, 0, 0, 1, 1, 0, 0⟩, box := ⟨0, 0, 256, 256⟩, seq := 0, off := 328 }

theorem wit_RenderRows_3_3_0 : (fullQueue.workOf 0 = some (stBegun, 0) ∧ fullQueue.renders 0 = true
      ∧ fullQueue.blockMissing stBegun = false ∧ stBegun.root.hasColumn (512 * 0) = true
      ∧ (fullQueue.die 0).tess.fineRow ≤ stBegun.root.lastTile
      ∧ min (2 * (fullQueue.die 0).tess.fineRow + 1 + stBegun.tables.lrK) ((stBegun.root.coarseRows : Int) - 1 + stBegun.tables.lrK)
        ≤ (fullQueue.die 0).tess.coarseRow
      ∧ fullQueue.body stBegun 0 (stBegun.root.segmentOf (64 * (fullQueue.die 0).tess.fineRow + 63)) = .read [read] 1)
    ∧ stBegun.root.streamBlocks ≤ 2048 ∧ ∀ tiles, (fullQueue.die 0).tess.takes tiles = false :=
  ⟨by decide +kernel, by decide, takes_full rfl (by rw [heavy, List.length_replicate]; decide)⟩

/-! #### A block ready to render -/

def ready : State := begun.modDies fun d =>
  { d with
    tess.tiles := (List.range 10).map fun c => { col := c, ty := 0, px := List.replicate 64 (List.replicate 64 100) }
    con.factors := [0, 1, 2].map fun c => (c, (List.range 17).map fun (i : Nat) => ((i : Int), 2048)) }

theorem wit_DosePathRows_4_2 : ready.workOf 0 = some (stBegun, 0) ∧ ready.renders 0 = true
    ∧ stBegun.root.hasColumn (512 * 0) = true ∧ (ready.die 0).contourFailed = false
    ∧ 64 * (ready.die 0).con.next < stBegun.root.rows ∧ ((ready.die 0).blockReady stBegun 0).1 = true
    ∧ ((ready.die 0).blockReady stBegun 0).2 = true ∧ (ready.die 0).con.next = 0 ∧ (ready.die 0).con.compress = false
    ∧ (ready.die 0).con.ringFree ((ready.die 0).con.raMib * 16384) (16 * min 64 stBegun.root.rows) = true
    ∧ (ready.die 0).con.ra.length < (ready.die 0).con.raMib * 64 := by decide +kernel

/-! #### Check-value units and compression -/

def crcOf : CrcUnit := (run0.die 1).crc.getD 3 CrcUnit.reset

theorem wit_CrcUnitRows_1 : run0.domOn 1 2 = true ∧ 1 < run0.nDies ∧ 3 < 4 ∧ run0.dies[1]? = some (run0.die 1)
    ∧ (run0.die 1).crc[3]? = some crcOf ∧ crcOf.busy = false := by decide +kernel

def job (f : Comp → Comp) : State := run0.modComp 1 f

def done : State := job fun c => { c with job := 1, inDone := true }

def failed : State := job fun c => { c with job := 1, fault := 3 }

def saving : State := job fun c => { c with save := true }

def badSlot : State := job fun c => { c with ctx := 11 }

theorem wit_CompressionJobs : done.running = true ∧ 1 < done.nDies ∧ failed.running = true ∧ saving.running = true
    ∧ badSlot.running = true ∧ run0.running = true := by decide +kernel

theorem wit_CompressionJobs_1 : (done.comp 1).job = 1 ∧ (done.comp 1).fault = 0 ∧ (done.comp 1).inDone = true
    ∧ (done.comp 1).out = [] := by decide +kernel

theorem wit_CompressionJobs_2 : (failed.comp 1).job = 1 ∧ (failed.comp 1).fault ≠ 0 := by decide +kernel

theorem wit_CompressionJobs_4 : (run0.comp 1).job ≠ 1 ∧ (saving.comp 1).save = true := by decide +kernel

theorem wit_CompressionJobs_5 : (badSlot.comp 1).save = false ∧ (badSlot.comp 1).dir = false ∧ (badSlot.comp 1).data.input = []
    ∧ 10 < (badSlot.comp 1).ctx ∧ (badSlot.comp 1).job ≠ 1 ∧ (badSlot.comp 1).job ≠ 2 := by decide +kernel

theorem wit_CompressionJobs_6 : run0.Inv ∧ (run0.comp 1).save = false ∧ (run0.comp 1).dir = false ∧ (run0.comp 1).data.input = []
    ∧ (run0.comp 1).ctx ≤ 10 := ⟨inv_of (by decide +kernel), by decide +kernel⟩

theorem decode_encode : ∀ b : Byte, sramDecode (sramEncode b) = .clean b := by decide +kernel

theorem sramRead_clean (s : State) (die port a : Nat) (b : Byte)
    (h : sramDecode (sparseGet sramZero (s.die die).sram.cells a) = .clean b) : s.sramRead die port a = (some b, s) := by
  unfold State.sramRead
  split <;> simp_all

/-- Reading clean bytes changes nothing. -/
theorem devBytes_clean (s : State) (a : DevAddr) (f : Nat → Byte) (hs : a.sram = true)
    (h : ∀ k, sramDecode (sparseGet sramZero (s.die a.die).sram.cells (a.off + k)) = .clean (f k)) (i n : Nat) :
    s.devBytes a i n = (some ((List.range' i n).map f), s) := by
  induction n generalizing i with
  | zero => rfl
  | succ n ih =>
    have hb : s.devByte a i = (some (f i), s) := by
      unfold State.devByte
      rw [hs]
      exact sramRead_clean s a.die 6 (a.off + i) _ (h i)
    rw [State.devBytes, hb]
    dsimp only
    rw [ih, List.range'_succ, List.map_cons]

theorem map_getD (l : List Byte) : (List.range' 0 l.length).map (fun k => l.getD k 0) = l := by
  apply List.ext_getElem (by simp)
  intro i h _
  simp [List.getD_eq_getElem?_getD, List.getElem?_eq_getElem (by simpa using h : i < l.length)]

/-- A context of zeros with its check word after it, n bytes on. -/
def slotBytes (n : Nat) (c : Word) : List Byte := List.replicate n 0 ++ wordBytes c

def slotCells (at_ : Nat) (c : Word) : List (Nat × Stored) := (wordBytes c).zipIdx.map fun b => (at_ + b.2, sramEncode b.1)

theorem slot_clean (off n : Nat) (c : Word) (k : Nat) :
    sramDecode (sparseGet sramZero (slotCells (off + n) c) (off + k)) = .clean ((slotBytes n c).getD k 0) := by
  have hz : sramDecode sramZero = .clean 0 := by decide
  obtain hk | rfl | rfl | rfl | rfl | hk : k < n ∨ k = n ∨ k = n + 1 ∨ k = n + 2 ∨ k = n + 3 ∨ n + 4 ≤ k := by omega
  · have : ∀ j, n + j ≠ k := fun j => by omega
    simp [slotCells, slotBytes, wordBytes, sparseGet, Nat.add_assoc, this, Nat.ne_of_gt hk, hz, List.getD_eq_getElem?_getD,
      List.getElem?_append, hk]
  all_goals try simp [slotCells, slotBytes, wordBytes, sparseGet, decode_encode, List.getD_eq_getElem?_getD, List.getElem?_append,
    Nat.add_assoc]
  have : ∀ j < 4, n + j ≠ k := fun j _ => by omega
  have h0 : n ≠ k := this 0 (by decide)
  have hn : ¬k < n := by omega
  have h4 : ([c.extractLsb' 0 8, c.extractLsb' 8 8, c.extractLsb' 16 8, c.extractLsb' 24 8] : List Byte)[k - n]? = none :=
    List.getElem?_eq_none (by simp; omega)
  simp [h0, this 1 (by decide), this 2 (by decide), this 3 (by decide), hz, hn, h4]

/-- The check word of the context of zeros in slot 0. -/
def slotCheck : Word := crc32c (0xFFFFFFFF ^^^ BitVec.ofNat 32 0x11A0000) (List.replicate 33788 0)

def stored : State := run0.modDie 1 fun d => { d with sram.cells := slotCells (0x11A0000 + 33788) slotCheck }

theorem wit_CompressionJobs_9 : (stored.running = true ∧ (stored.comp 1).save = false ∧ (stored.comp 1).job ≠ 1
      ∧ (stored.comp 1).job ≠ 2 ∧ (stored.comp 1).ctx = 0 ∧ (stored.comp 1).saved = [])
    ∧ stored.devRead { die := 1, bcast := false, sram := true, off := 0x11A0000 } 0 33792 = (some (slotBytes 33788 slotCheck), stored)
    ∧ (bytesWords ((slotBytes 33788 slotCheck).drop 33788)).getD 0 0
      = crc32c (0xFFFFFFFF ^^^ BitVec.ofNat 32 0x11A0000) ((slotBytes 33788 slotCheck).take 33788) := by
  have hl : (slotBytes 33788 slotCheck).length = 33792 := by
    rw [slotBytes, List.length_append, List.length_replicate]
    rfl
  have hr : (List.replicate 33788 (0 : Byte)).length = 33788 := List.length_replicate
  refine ⟨by decide +kernel, ?_, ?_⟩
  · have := devBytes_clean stored { die := 1, bcast := false, sram := true, off := 0x11A0000 }
      (fun k => (slotBytes 33788 slotCheck).getD k 0) rfl (fun k => slot_clean 0x11A0000 33788 slotCheck k) 0 33792
    rw [← hl, map_getD, hl] at this
    exact this
  · rw [slotBytes, List.drop_append_of_le_length (Nat.le_of_eq hr.symm), List.take_append_of_le_length (Nat.le_of_eq hr.symm),
      List.drop_of_length_le (Nat.le_of_eq hr), List.take_of_length_le (Nat.le_of_eq hr)]
    have := bytesWords_wordsBytes [slotCheck]
    rw [show wordsBytes [slotCheck] = [] ++ wordBytes slotCheck by simp [wordsBytes]] at this
    rw [this]
    rfl

end Rest

end Sys2Proof.Tests
end

section
/-! SUPPORT. The invariant of the block: it holds after reset, and a step of any command, or of an empty queue, keeps it. -/

namespace Sys2Proof.Machine

variable {fz : Fuses} {qz : List Instr}

/-- What `ShapeOk` says of a state: the invariant, with the lasting fuses and the queue named. -/
theorem shapeOk_iff_inv {s : State} : ShapeOk fz qz s.shape ↔ s.Inv ∧ s.fuses.lasting = fz ∧ s.pending = qz := by
  constructor
  · rintro ⟨rfl, rfl, hdies⟩
    exact ⟨⟨rfl, rfl, hdies⟩, rfl, rfl⟩
  · rintro ⟨hinv, rfl, rfl⟩
    exact hinv

/-- Taking commands off the queue touches no die. -/
theorem State.Inv.shapeOk_of_queue {s : State} (hs : s.Inv) (queue : List Instr) :
    ShapeOk s.fuses.lasting queue { s with pending := queue }.shape := by
  obtain ⟨-, -, hdies⟩ := hs
  exact ⟨rfl, rfl, hdies⟩

/-- Whatever the command, its meaning answers a next state with the same lasting fuses and queue and with well-formed dies. The
commands named may reset a die, switch it off (a fault can halt the device) or write its memories: each has a law of its own
that the dies stay well formed. Every other command keeps the shape as it is. -/
theorem exec_ok (c : Instr) (s : State) (hs : ShapeOk fz qz s.shape) : Res.Ok fz qz (exec c s) := by
  cases c
  case powerOnReset | aonSupplyLost | perstAsserted | bootStart | bootComplete | warmReset | softwareReset
    | normalCommandFetch | urgentCommandFetch | axisConfig | timeConfig | timeTrigger | laneRetire | safeDarkReq
    | dieRetire | faultInject | updateFallback | powerStandby | thermalRead | laneRetrainRequest | locusDinFlagClear
    | registerWrite | dmaAbort | dmaFetchErrorClear | dmaDescriptorFetch | dmaBurst | tesseraCoarseBand
    | tesseraFineBand | libraryFetch | facetTileRender | densityPacketRx | longRangeRow | renderBlock
    | renderAheadRead | scrubRead | shotPulse | approachBegin | abEdge | sincosSample | bissDataReceived | bissTimeout
    | lineFault | zStuck | indexEvent | deviation | dinChange | dinDebounce | setpointStatusRx | setpointStatusTimeout
    | stall | triggerFire | sync | followUp | deviceTimeStep | staleRole | roleAnnounce | syncReady | syncGo
    | syncReadySend | ledgerBatchSend | returnFrameRx | returnFrameMissing | echoTimeout | firedReportMissing
    | controlElementResend | tempReportTimeout | laneTrainStepDone | rateCheckDone | laneTrainTimeout
    | retrainComplete | retrainBoundExpiry | headTripNAsserted | darkNAsserted | faultReport | faultPolicyStep
    | watchdogTimeout | lockstepMismatch | clockMonitorFault | voltageMonitorFault | fabricHopFault | sensorConversion
    | housekeepingRoundEnd | guardRound | compContextSave | compContextRestore =>
    simp [exec, hs]
  all_goals exact Res.Shaped.ok (by simp [exec]) hs

/-- A step completes with the lasting fuses kept, the front off the queue and well-formed dies: on an empty queue by the tick,
else by the meaning of the front command on the state with the rest of the queue. -/
theorem step_ok (s : State) (hs : s.Inv) : Res.Ok s.fuses.lasting s.pending.tail (step s) := by
  unfold step
  split
  case h_1 hempty =>
    rw [hempty, List.tail_nil, ← hempty, Res.ok_next, State.tick_shape]
    exact hs
  case h_2 c rest hfront =>
    rw [hfront, List.tail_cons]
    exact exec_ok c _ (hs.shapeOk_of_queue rest)

/-- Settles O3: the reset state is the power-on state of the reset fuses. -/
theorem resetMeetsInvariant : Obligations.ResetMeetsInvariant := by
  unfold Obligations.ResetMeetsInvariant
  exact (shapeOk_iff_inv.1 (State.powerOn_ok Fuses.reset Flash.reset)).1

/-- Settles O4: every meaning keeps the shape that the invariant asks for (`exec_ok`), and so does the tick. -/
theorem stepKeepsInvariant : Obligations.StepKeepsInvariant := by
  unfold Obligations.StepKeepsInvariant
  intro s t hs hstep
  obtain ⟨u, hnext, hu⟩ := step_ok s hs
  obtain rfl : t = u := Host.Outcome.next.inj (hstep.symm.trans hnext)
  exact shapeOk_iff_inv.1 hu

end Sys2Proof.Machine
end

section
/-! SUPPORT. The device as a whole: the checks that every command row shares (02 R59), the tick, the reset values, and the commands
that read or change the device (01 R39-R42, 02 Table 2-6). -/

namespace Sys2Proof.Machine

/-! ### Shared checks -/

/-- A packet is right (R59, check 2) only if none of the faults of its shape is there. -/
theorem State.packetOk_eq_false (s : State) (p : Packet) (r : OpRow)
    (h : 14 < p.plen ∨ Packet.minPlen p r = none ∨ (∃ m, Packet.minPlen p r = some m ∧ p.plen < m) ∨ 8 ≤ p.flags
      ∨ (p.admitOnly = true ∧ ¬(p.opcode = 0x0300 ∨ p.opcode = 0x0302)) ∨ s.targetOk r.target p.target = false) :
    s.packetOk p r = false := by
  simp only [State.packetOk, Bool.and_eq_false_iff]
  obtain h | h | ⟨m, hm, h⟩ | h | ⟨ha, hx⟩ | h := h
  · simp [h]
  · simp [h]
  · simp [hm, h]
  · simp [Nat.div_eq_zero_iff, h]
  · simp only [not_or] at hx
    simp [ha, hx]
  · simp [h]

section
variable {s : State} {p : Packet} {r : OpRow}

theorem State.preCheck_unknown (h : opRow p.opcode = none) : s.preCheck p = some badOpcode := by
  simp [State.preCheck, h]

theorem State.preCheck_notUrgent (hr : opRow p.opcode = some r) (hp : p.urgent = true) (hu : r.urgent = false) :
    s.preCheck p = some badOpcode := by
  simp [State.preCheck, hr, hp, hu]

variable (hr : opRow p.opcode = some r) (hring : ¬(p.urgent = true ∧ r.urgent = false))
include hr hring

theorem State.preCheck_badPacket (hk : s.packetOk p r = false) : s.preCheck p = some badParam := by
  simp [State.preCheck, hr, hring, hk]

theorem State.preCheck_badState (hk : s.packetOk p r = true)
    (hs : r.states / s.ctl.dev.mask % 2 = 0 ∨ s.ctl.dev.mask = 0) : s.preCheck p = some s.stateStatus := by
  simp [State.preCheck, hr, hring, hk, hs]

/-- The checks before the last are passed: a retired lane fails a packet that names it. -/
theorem State.preCheck_retiredLane (hk : s.packetOk p r = true) (hm : s.ctl.dev.mask ≠ 0)
    (hs : r.states / s.ctl.dev.mask % 2 = 1) (ht : r.target = .lane ∨ r.target = .laneOrDev) (hdev : p.isDev = false)
    (hret : (s.lane p.target).retired = true) : s.preCheck p = some laneRetired := by
  obtain ht | ht := ht <;> simp [State.preCheck, hr, hring, hk, hm, hs, ht, hdev, hret]

/-- Likewise for a retired die. -/
theorem State.preCheck_retiredDie (hk : s.packetOk p r = true) (hm : s.ctl.dev.mask ≠ 0)
    (hs : r.states / s.ctl.dev.mask % 2 = 1) (ht : r.target = .die ∨ r.target = .dieOrDev) (hdev : p.isDev = false)
    (hret : (s.die p.target).retired = true) : s.preCheck p = some dieRetired := by
  obtain ht | ht := ht <;> simp [State.preCheck, hr, hring, hk, hm, hs, ht, hdev, hret]

end

/-- Settles O59: each row runs a body after the shared checks, and each check that fails gives its status. -/
theorem sharedChecks : Obligations.SharedChecks := by
  unfold Obligations.SharedChecks
  refine ⟨fun s p env row hrow => ?_, fun s p => ⟨State.preCheck_unknown, fun r hr => ?_⟩⟩
  · obtain ⟨body, hbody⟩ : ∃ body, exec (row.2 p) s = s.direct row.1 p body := by
      fin_cases hrow <;> exact ⟨_, rfl⟩
    rw [hbody]
    exact ⟨fun ha => State.direct_refused ha body, fun st ha hst => State.direct_fails ha hst body⟩
  · have ring (hu : p.urgent = true → r.urgent = true) : ¬(p.urgent = true ∧ r.urgent = false) := by simpa using hu
    exact ⟨State.preCheck_notUrgent hr, fun hu h => State.preCheck_badPacket hr (ring hu) (s.packetOk_eq_false p r h),
      fun hu hk hs => State.preCheck_badState hr (ring hu) hk hs, fun hu hk hm hs =>
        ⟨State.preCheck_retiredLane hr (ring hu) hk hm hs, State.preCheck_retiredDie hr (ring hu) hk hm hs⟩⟩

/-! ### The tick (R32, R333) -/

theorem State.domOn_modDies {s : State} {f : Die → Die} (h : ∀ d, (f d).pow = d.pow) (d i : Nat) :
    (s.modDies f).domOn d i = s.domOn d i := by
  cases hd : s.dies[d]? <;> simp [State.domOn, State.die, List.getD_eq_getElem?_getD, hd, h]

/-- What a tick makes of a die: its timebase counts while its CTRL domain is on. -/
def Die.ticked (d : Die) : Die := { d with tb := if d.pow.on.getLsbD 1 then d.tb + 1 else d.tb }

/-- What a tick makes of Datum while its domain is on. -/
def Datum.ticked (x : Datum) : Datum :=
  let step := tickIncrement x.rate - tickSlew x.rho
  { x with
    time := ((x.time : Int) + step).toNat, rho := x.rho - tickSlew x.rho, domains := x.domains.map (Domain.tick step) }

/-- A tick changes timebases and, while Datum's domain is on, Datum. -/
theorem State.tick_eq (s : State) :
    s.tick = { s with dies := s.dies.map Die.ticked, datum := if s.domOn 0 7 then s.datum.ticked else s.datum } := by
  have hdies : s.modDies (fun d => if d.pow.on.getLsbD 1 then { d with tb := d.tb + 1 } else d) = s.modDies Die.ticked := by
    congr 1
    funext d
    unfold Die.ticked
    split <;> rfl
  unfold State.tick
  dsimp only
  rw [hdies, State.domOn_modDies (f := Die.ticked) fun _ => rfl]
  split <;> rfl

/-- Settles O2: on an empty queue a step is a tick. -/
theorem idleStepTicks : Obligations.IdleStepTicks := by
  unfold Obligations.IdleStepTicks
  intro s hp
  refine ⟨s.tick, by simp [step, hp], fun d x hx => ?_, fun hon hrho => ?_, fun hoff => ?_, ?_⟩
  · simp [State.tick_eq, hx, Die.ticked]
  · simp [State.tick_eq, hon, hrho, Datum.ticked, tickSlew, tickIncrement]
  · simp [State.tick_eq, hoff]
  · simp [State.tick_eq, hp]

/-! ### Reset -/

theorem State.reset_dies : State.reset.dies = (List.range 8).map Die.reset := rfl

/-- Every lane of a device out of power-on reset is a lane at its reset contents. -/
theorem State.reset_lanes {l : Lane} (h : l ∈ State.reset.lanes) : ∃ d i, l = Lane.reset d i := by
  simp only [State.lanes, State.reset_dies, List.mem_flatMap, List.mem_map] at h
  obtain ⟨_, ⟨d, -, rfl⟩, hl⟩ := h
  obtain ⟨i, -, rfl⟩ := List.mem_map.1 hl
  exact ⟨d, i, rfl⟩

/-- Settles O5: the dies and lanes out of reset are those of `Die.reset` and `Lane.reset`. -/
theorem resetValues : Obligations.ResetValues := by
  unfold Obligations.ResetValues
  refine ⟨rfl, rfl, rfl, rfl, rfl, rfl, rfl, rfl, rfl, rfl, rfl, rfl, rfl, rfl, rfl, fun l hl => ?_, fun d hd => ?_, by decide,
    by decide⟩
  · obtain ⟨d, i, rfl⟩ := State.reset_lanes hl
    exact ⟨rfl, rfl, rfl⟩
  · rw [State.reset_dies] at hd
    obtain ⟨i, -, rfl⟩ := List.mem_map.1 hd
    exact ⟨rfl, rfl, rfl, rfl, rfl⟩

/-! ### Commands of the device as a whole -/

theorem cfgPixelPitchBody_eq (p : Packet) (c : Ctx) (s : State) :
    cfgPixelPitchBody p c s = if 5000 ≤ p.param 0 ∧ p.param 0 ≤ 50000000 then
      { s.finish c ok [] with ctl.pixelPitch := p.param 0 } else s.finish c badParam [] := by
  by_cases h : 5000 ≤ p.param 0 ∧ p.param 0 ≤ 50000000
  · simp [cfgPixelPitchBody, h, Nat.not_lt.2 h.1, Nat.not_lt.2 h.2]
  · have : p.param 0 < 5000 ∨ 50000000 < p.param 0 := by omega
    simp [cfgPixelPitchBody, h, this]

theorem clearBody_eq (p : Packet) (c : Ctx) (s : State) :
    clearBody p c s = if s.causes = 0 then (s.setDev .configured).finish c ok [] else s.finish c safeDarkActive [] := by
  by_cases h : s.causes = 0 <;> simp [clearBody, h]

/-- Settles O12: each row answers what its body makes of the packet. -/
theorem deviceCommands : Obligations.DeviceCommands := by
  unfold Obligations.DeviceCommands
  intro s p
  refine ⟨fun h => ?nop, fun h => ?info, fun h => ?state, fun h => ?clear, fun h => ?arm, fun h => ?disarm, fun h => ?pitch,
    fun h => ?id, fun h => ?time⟩
  case nop => exact State.direct_takes h nopBody
  case info => exact State.direct_takes h infoBody
  case state => exact State.direct_takes h stateBody
  case clear => exact (State.direct_takes h clearBody).trans (by rw [clearBody_eq])
  case arm => exact State.direct_takes h armBody
  case disarm => exact State.direct_takes h disarmBody
  case pitch => exact (State.direct_takes h cfgPixelPitchBody).trans (by rw [cfgPixelPitchBody_eq, Packet.ofRow_param])
  case id => exact (State.direct_takes h cfgDeviceIdBody).trans (by rw [cfgDeviceIdBody, Packet.ofRow_param])
  case time => exact State.direct_takes h timeReadBody

end Sys2Proof.Machine
end

section
/-! SUPPORT. One die of the device after an update, and the frames of counters, DRAM accesses and detections. -/

namespace Sys2Proof.Machine

/-! ### One die of the device after an update -/

section
variable (s : State) (f : Die → Die) (i j : Nat)

theorem State.die_eq_getElem? : s.die i = s.dies[i]?.getD { Die.reset i with retired := true } := by
  simp [State.die, List.getD_eq_getElem?_getD]

theorem State.die_congr {s t : State} (h : t.dies = s.dies) (i : Nat) : t.die i = s.die i := by
  unfold State.die; rw [h]

theorem State.die_modDie (h : i < s.dies.length) : (s.modDie i f).die i = f (s.die i) := by
  simp [State.die_eq_getElem?, h]

@[simp] theorem State.die_modDie_of_ne (h : j ≠ i) : (s.modDie i f).die j = s.die j := by
  simp [State.die_eq_getElem?, h.symm]

theorem State.die_modDies (h : i < s.dies.length) : (s.modDies f).die i = f (s.die i) := by
  simp [State.die_eq_getElem?, h]

/-- A die that renders is one of the device's, and not retired. -/
theorem State.renders_live {s : State} {die : Nat} (h : s.renders die = true) :
    die < s.dies.length ∧ (s.die die).retired = false := by
  have hlive : (s.die die).retired = false := by
    simp only [State.renders, State.dieLive, Bool.and_eq_true, Bool.not_eq_true'] at h
    exact h.2.2
  refine ⟨Nat.lt_of_not_le fun hle => ?_, hlive⟩
  simp [State.die_eq_getElem?, List.getElem?_eq_none hle] at hlive

end

/-! ### Counters and DRAM accesses touch performance counters and page records only -/

section
variable (s : State) (d i n j : Nat)

/-- A count changes at most the performance counters of a die. -/
theorem State.die_count : (s.count d i n).die j = { s.die j with perf := ((s.count d i n).die j).perf } := by
  unfold State.count
  split
  · by_cases hj : j = d
    · subst hj
      cases hx : s.dies[j]? <;> simp [State.die_eq_getElem?, hx]
    · simp [hj]
  · rfl

@[simp] theorem State.count_con : ((s.count d i n).die j).con = (s.die j).con := by rw [State.die_count]
@[simp] theorem State.count_lat : ((s.count d i n).die j).lat = (s.die j).lat := by rw [State.die_count]
@[simp] theorem State.count_sram : ((s.count d i n).die j).sram = (s.die j).sram := by rw [State.die_count]
@[simp] theorem State.count_mem : ((s.count d i n).die j).mem = (s.die j).mem := by rw [State.die_count]

/-- What leaves every die's field alone leaves the fields' list alone. -/
@[simp] theorem State.count_retired : (s.count d i n).dies.map Die.retired = s.dies.map Die.retired := by
  unfold State.count; split
  · simp
  · rfl

@[simp] theorem State.count_length : (s.count d i n).dies.length = s.dies.length := by
  unfold State.count; split <;> simp

variable (as : List (Nat × Nat))

@[simp] theorem State.dramAccess_ctl : (s.dramAccess d as).ctl = s.ctl := by simp [State.dramAccess]
@[simp] theorem State.dramAccess_perim : (s.dramAccess d as).perim = s.perim := by simp [State.dramAccess]
@[simp] theorem State.dramAccess_seq : (s.dramAccess d as).seq = s.seq := by simp [State.dramAccess]
@[simp] theorem State.dramAccess_locus : (s.dramAccess d as).locus = s.locus := by simp [State.dramAccess]
@[simp] theorem State.dramAccess_out : (s.dramAccess d as).out = s.out := by simp [State.dramAccess]
@[simp] theorem State.dramAccess_length : (s.dramAccess d as).dies.length = s.dies.length := by simp [State.dramAccess]

section
variable {d} (h : d < s.dies.length)
include h

@[simp] theorem State.dramAccess_con : ((s.dramAccess d as).die d).con = (s.die d).con := by
  simp [State.dramAccess, State.die_modDie, h]
@[simp] theorem State.dramAccess_lat : ((s.dramAccess d as).die d).lat = (s.die d).lat := by
  simp [State.dramAccess, State.die_modDie, h]
@[simp] theorem State.dramAccess_sram : ((s.dramAccess d as).die d).sram = (s.die d).sram := by
  simp [State.dramAccess, State.die_modDie, h]
@[simp] theorem State.dramAccess_linkCe : ((s.dramAccess d as).die d).mem.linkCe = (s.die d).mem.linkCe := by
  simp [State.dramAccess, State.die_modDie, h]
@[simp] theorem State.dramAccess_linkUe : ((s.dramAccess d as).die d).mem.linkUe = (s.die d).mem.linkUe := by
  simp [State.dramAccess, State.die_modDie, h]
end
end

/-! ### A detection of a minor fault on an idle queue (R379-R384) -/

/-- A cause whose first detection is of class C1 and that only a promotion makes permanent. -/
def minorCause (cause : Nat) : Prop :=
  causePermCount cause = none ∧ causePermAtDetection cause = false ∧ ∀ die, causeClass cause die = 1

section
variable {s : State} {cause die unit : Nat} {d0 d1 : Word}

/-- A fault that is not permanent fails no unit, but for those that a first detection fails. -/
theorem State.failUnit_minor (h : minorCause cause) : s.failUnit cause die unit false = s := by
  obtain ⟨-, -, hcls⟩ := h
  have h8 : cause ≠ 0x0008 := by rintro rfl; exact absurd (hcls 0) (by decide)
  have h9 : cause ≠ 0x0009 := by rintro rfl; exact absurd (hcls 0) (by decide)
  have h25 : cause ≠ 0x0025 := by rintro rfl; exact absurd (hcls 0) (by decide)
  have h26 : cause ≠ 0x0026 := by rintro rfl; exact absurd (hcls 0) (by decide)
  simp only [State.failUnit, h8, h9, h25, h26, Bool.false_and, Bool.or_false, decide_false, and_false, or_false,
    Bool.false_eq_true, if_false]
  show { s with dies := s.dies.modify die id } = s
  rw [List.modify_id]

/-- With no record of its source, a minor fault enters the queue and the log. -/
theorem State.detect_minor_new (h : minorCause cause) (ha : s.perim.active = none)
    (hw : mergeWaiting cause die unit s.perim.waiting = none) (hq : s.perim.waiting.length < 32) :
    s.detect cause die unit d0 d1 =
      s.enqueue (s.newRecord cause die unit 1 false false d0 d1 (s.before cause die unit)) := by
  have hfail := State.failUnit_minor (s := s) (die := die) (unit := unit) h
  obtain ⟨hcount, hperm, hcls⟩ := h
  have hdepth : ¬32 ≤ s.queueDepth := by simp [State.queueDepth, ha]; omega
  simp [State.detect, State.react, hfail, hcount, hperm, hcls, ha, hw, hdepth]

/-- With a record of its source in the queue, it is merged into that one. -/
theorem State.detect_minor_again (h : minorCause cause) (ha : s.perim.active = none) {r : FaultRecord}
    {rs : List FaultRecord} (hw : mergeWaiting cause die unit s.perim.waiting = some (r, rs)) :
    s.detect cause die unit d0 d1 = ({ s with perim.waiting := rs }).logRecord r := by
  have hfail := State.failUnit_minor (s := s) (die := die) (unit := unit) h
  obtain ⟨hcount, hperm, hcls⟩ := h
  simp [State.detect, State.react, hfail, hcount, hperm, hcls, ha, hw]

end

section
variable (s : State) (r : FaultRecord)

@[simp] theorem State.signal_dev (v : Nat) : (s.signal v).ctl.dev = s.ctl.dev := by
  unfold State.signal State.message
  split
  · split <;> rfl
  · rfl

@[simp] theorem State.enqueue_dev : (s.enqueue r).ctl.dev = s.ctl.dev := by simp [State.enqueue, State.logNew]
@[simp] theorem State.enqueue_dies : (s.enqueue r).dies = s.dies := by simp [State.enqueue, State.logNew]
@[simp] theorem State.enqueue_seq : (s.enqueue r).seq = s.seq := by simp [State.enqueue, State.logNew]
@[simp] theorem State.enqueue_locus : (s.enqueue r).locus = s.locus := by simp [State.enqueue, State.logNew]
@[simp] theorem State.enqueue_active : (s.enqueue r).perim.active = s.perim.active := by simp [State.enqueue, State.logNew]
@[simp] theorem State.enqueue_waiting : (s.enqueue r).perim.waiting = insertRecord r s.perim.waiting := by
  simp [State.enqueue, State.logNew]
@[simp] theorem State.enqueue_getLast : (s.enqueue r).perim.log.getLast? = some r := by simp [State.enqueue, State.logNew]

end

end Sys2Proof.Machine
end

section
/-! SUPPORT. The density broadcast and the stops of a stripe-pass (07 R184-R187). -/

namespace Sys2Proof.Machine

/-! ### The density broadcast (R184, R186, R187) -/

section
variable {s : State} {die owner : Nat} {sent : Nat × List Word} {st : Stripe} {pass : Nat}

/-- A received packet leaves the fabric, and is counted. -/
def State.takePacket (s : State) (die : Nat) (sent : Nat × List Word) : State :=
  (s.modDie die fun d => { d with con.fabric := d.con.fabric.erase sent }).count die 54 1

section
variable {received : Option (List Word)} (hsent : (s.die die).con.packet? die owner = some sent)
  (hring : s.ringOf die = some (st, pass)) (hr : s.renders die = true)
include hsent hring hr

/-- A right packet enters the ring. -/
theorem execDensityPacketRx_row (h : s.packetCheck die owner st pass (received.getD sent.2) = .row) :
    let ws := received.getD sent.2
    let span := ownerSpan s.nDies st.tables.lrK owner
    let hs := ((ws.drop 4).dropLast).flatMap fun w => [w.toNat % 65536, w.toNat / 65536]
    execDensityPacketRx die owner received s = .next
      ((s.takePacket die sent).modDie die (Die.putDensity (signed 32 (wordAt ws 2)) owner span.1 (hs.take span.2))) := by
  simp only [execDensityPacketRx, hsent, hring, hr, h]
  rfl

/-- A packet that is not yet due stays in the fabric, as it arrived. -/
theorem execDensityPacketRx_waits (h : s.packetCheck die owner st pass (received.getD sent.2) = .waits) :
    execDensityPacketRx die owner received s = .next (s.modDie die fun d => { d with
      con.fabric := d.con.fabric.map fun f => if f = sent then (owner, received.getD sent.2) else f }) := by
  simp only [execDensityPacketRx, hsent, hring, hr, h]
  rfl

/-- A wrong packet is a density fault. -/
theorem execDensityPacketRx_fault {kind : Nat}
    (h : s.packetCheck die owner st pass (received.getD sent.2) = .fault kind) :
    execDensityPacketRx die owner received s = .next
      ((s.takePacket die sent).densityFault die kind st.id pass (received.getD sent.2)) := by
  simp only [execDensityPacketRx, hsent, hring, hr, h]
  rfl

end

@[simp] theorem State.takePacket_seq : (s.takePacket die sent).seq = s.seq := by simp [State.takePacket]
@[simp] theorem State.takePacket_out : (s.takePacket die sent).out = s.out := by simp [State.takePacket]
@[simp] theorem State.takePacket_perim : (s.takePacket die sent).perim = s.perim := by simp [State.takePacket]
@[simp] theorem State.takePacket_ctl : (s.takePacket die sent).ctl = s.ctl := by simp [State.takePacket]
@[simp] theorem State.takePacket_length : (s.takePacket die sent).dies.length = s.dies.length := by simp [State.takePacket]
@[simp] theorem State.takePacket_retired : (s.takePacket die sent).dies.map Die.retired = s.dies.map Die.retired := by
  simp [State.takePacket]

theorem State.takePacket_con (h : die < s.dies.length) :
    ((s.takePacket die sent).die die).con = { (s.die die).con with fabric := (s.die die).con.fabric.erase sent } := by
  simp [State.takePacket, State.die_modDie, h]

/-- The dies that live before a packet is taken live after it. -/
theorem State.takePacket_live {i : Nat} {x : Die} (hx : s.dies[i]? = some x) (hlive : x.retired = false) :
    ∃ y, (s.takePacket die sent).dies[i]? = some y ∧ y.retired = false := by
  have h : ((s.takePacket die sent).dies.map Die.retired)[i]? = some false := by
    rw [State.takePacket_retired, List.getElem?_map, hx, Option.map_some, hlive]
  rwa [List.getElem?_map, Option.map_eq_some_iff] at h

theorem State.takePacket_sram (h : die < s.dies.length) : ((s.takePacket die sent).die die).sram = (s.die die).sram := by
  simp [State.takePacket, State.die_modDie, h]

/-- The registers of a density fault (R186). -/
def Die.markDensity (kind : Nat) (ws : List Word) (d : Die) : Die :=
  { d with con := { d.con with
      densFault := true, faultOwner := wordAt ws 1 / 8 % 8, faultKind := kind, faultRow := signed 27 (wordAt ws 2) } }

/-- A stop of a stripe-pass is on its way to a die that lives. -/
def Die.queueStop (id pass : Nat) (d : Die) : Die :=
  if d.retired then d else { d with con.stops := d.con.stops ++ [(id, pass)] }

/-- A density fault is marked, its stops are sent, and it is reported. -/
theorem State.densityFault_eq (kind id pass : Nat) (ws : List Word) :
    s.densityFault die kind id pass ws = ((s.modDie die (Die.markDensity kind ws)).modDies (Die.queueStop id pass)).detect
      0x0004 die 0 (BitVec.ofNat 32 (wordAt ws 2)) 0 := rfl

theorem Die.mem_stops_queueStop (id pass : Nat) {d : Die} (h : d.retired = false) :
    (id, pass) ∈ (d.queueStop id pass).con.stops := by
  simp [Die.queueStop, h]

/-- What a density fault leaves: its registers, a stop for every die, a record, and the device's state as it was (R186). -/
theorem State.densityFault_effect (kind id pass : Nat) (ws : List Word) (h : die < s.dies.length)
    (ha : s.perim.active = none) (hw : s.perim.waiting = []) :
    let t := s.densityFault die kind id pass ws
    (t.die die).con.densFault = true ∧ (t.die die).con.faultKind = kind ∧ (t.die die).con.ring = (s.die die).con.ring
      ∧ (∀ (i : Nat) (x : Die), s.dies[i]? = some x → x.retired = false →
        ∃ e, t.dies[i]? = some e ∧ (id, pass) ∈ e.con.stops)
      ∧ (∃ r, t.perim.log.getLast? = some r ∧ r.cause = 0x0004 ∧ r.die = die) ∧ t.ctl.dev = s.ctl.dev := by
  have hminor : minorCause 0x0004 := ⟨rfl, rfl, fun _ => rfl⟩
  rw [State.densityFault_eq,
    State.detect_minor_new hminor (by simpa using ha) (by simp [hw, mergeWaiting]) (by simp [hw])]
  intro t
  have hdies : t.dies = ((s.modDie die (Die.markDensity kind ws)).modDies (Die.queueStop id pass)).dies :=
    State.enqueue_dies _ _
  have hdie : t.die die = ((s.die die).markDensity kind ws).queueStop id pass := by
    rw [State.die_congr hdies, State.die_modDies _ _ _ (by simpa using h), State.die_modDie _ _ _ h]
  refine ⟨?_, ?_, ?_, fun i x hx hlive => ?_, ⟨_, State.enqueue_getLast _ _, rfl, rfl⟩, by simp [t]⟩
  · rw [hdie]; unfold Die.queueStop; split <;> rfl
  · rw [hdie]; unfold Die.queueStop; split <;> rfl
  · rw [hdie]; unfold Die.queueStop; split <;> rfl
  · have hmark : (x.markDensity kind ws).retired = false := hlive
    by_cases hi : die = i
    · exact ⟨_, by simp [hdies, hx, hi], Die.mem_stops_queueStop id pass hmark⟩
    · exact ⟨_, by simp [hdies, hx, hi], Die.mem_stops_queueStop id pass hlive⟩

end

/-! ### Stops of a stripe-pass (R186) -/

theorem Die.stopPass_stops (id pass : Nat) (retired : Bool) (rows : Nat) (d : Die) :
    (d.stopPass id pass retired rows).con.stops = d.con.stops := by
  unfold Die.stopPass Contour.idle; dsimp only; split <;> rfl

theorem Die.stopPass_ringOf (id pass : Nat) (retired : Bool) (rows : Nat) (d : Die) :
    (d.stopPass id pass retired rows).con.ringOf ≠ some (id, pass) := by
  unfold Die.stopPass; dsimp only
  split <;> simp_all

theorem Die.stopPass_work (id pass : Nat) (retired : Bool) (rows : Nat) (d : Die) :
    (d.stopPass id pass retired rows).tess.work ≠ some (id, pass) := by
  unfold Die.stopPass; dsimp only
  split <;> simp_all

theorem execStripePassStop_absent {s : State} {die id pass : Nat} (h : (s.die die).con.stops.contains (id, pass) = false) :
    execStripePassStop die id pass s = .next s := by
  simp only [execStripePassStop, h]; rfl

theorem execStripePassStop_sent {s : State} {die id pass : Nat} (h : (s.die die).con.stops.contains (id, pass) = true) :
    execStripePassStop die id pass s =
      .next ((s.modDie die fun d => { d with con.stops := d.con.stops.erase (id, pass) }).stopPassOn die id pass) := by
  simp only [execStripePassStop, h]; rfl

end Sys2Proof.Machine
end

section
/-! SUPPORT. The long-range unit (07 R179, R180, R188). -/

namespace Sys2Proof.Machine

/-- An update of a die by two functions that agree on it. -/
theorem State.modDie_congr {s : State} {i : Nat} {f g : Die → Die} (h : f (s.die i) = g (s.die i)) :
    s.modDie i f = s.modDie i g := by
  unfold State.modDie
  congr 1
  apply List.ext_getElem?
  intro j
  by_cases hj : i = j
  · subst hj
    cases hx : s.dies[i]? with
    | none => simp [hx]
    | some x =>
      have hdie : s.die i = x := by simp [State.die_eq_getElem?, hx]
      simpa [hx, hdie] using h
  · simp [hj]

/-! ### Clean SRAM reads and settled stripe-passes -/

/-- Every entry of an SRAM decodes clean. -/
def Sram.Clean (m : Sram) : Prop := ∀ c ∈ m.cells, ∃ b, sramDecode c.2 = .clean b

theorem sparseGet_mem_or {α : Type} (dflt : α) (m : List (Nat × α)) (a : Nat) :
    sparseGet dflt m a = dflt ∨ ∃ c ∈ m, sparseGet dflt m a = c.2 := by
  induction m with
  | nil => exact .inl rfl
  | cons c rest ih =>
    rw [sparseGet]
    split
    · exact .inr ⟨c, by simp, rfl⟩
    · obtain h | ⟨e, he, h⟩ := ih
      · exact .inl h
      · exact .inr ⟨e, by simp [he], h⟩

theorem sramDecode_zero : sramDecode sramZero = .clean 0 := by decide

/-- A read of a clean SRAM changes nothing. -/
theorem State.sramRead_of_clean {s : State} {die : Nat} (h : (s.die die).sram.Clean) (port a : Nat) :
    (s.sramRead die port a).2 = s := by
  have hclean : ∃ b, sramDecode (sparseGet sramZero (s.die die).sram.cells a) = .clean b := by
    obtain hz | ⟨c, hc, hz⟩ := sparseGet_mem_or sramZero (s.die die).sram.cells a
    · exact ⟨0, by rw [hz, sramDecode_zero]⟩
    · rw [hz]; exact h c hc
  obtain ⟨b, hb⟩ := hclean
  unfold State.sramRead
  rw [hb]

theorem State.unitReads_of_clean {s : State} {die : Nat} (h : (s.die die).sram.Clean) (port : Nat) (reads : Nat → Bool) :
    s.unitReads die port reads = s := by
  unfold State.unitReads
  generalize (s.die die).sram.cells.filter (fun c => reads c.1) = cs
  induction cs with
  | nil => rfl
  | cons c cs ih => rw [List.foldl_cons, State.sramRead_of_clean h, ih]

section
variable (s : State) (id pass : Nat)

@[simp] theorem State.settle_seq : (s.settle id pass).seq = s.seq := by unfold State.settle; split <;> rfl
@[simp] theorem State.settle_out : (s.settle id pass).out = s.out := by unfold State.settle; split <;> rfl
@[simp] theorem State.settle_perim : (s.settle id pass).perim = s.perim := by unfold State.settle; split <;> rfl

theorem Die.endWork_of_ring {st : Stripe} {part : Bool} {d : Die} (h : d.con.ringOf.isNone = false) : d.endWork st part = d := by
  simp [Die.endWork, h]

@[simp] theorem Die.endWork_ra (st : Stripe) (part : Bool) (d : Die) : (d.endWork st part).con.ra = d.con.ra := by
  unfold Die.endWork; split <;> rfl

@[simp] theorem Die.endWork_next (st : Stripe) (part : Bool) (d : Die) : (d.endWork st part).con.next = d.con.next := by
  unfold Die.endWork; split <;> rfl

/-- A die after progress of a stripe-pass: as it was, or with no work left of it. -/
theorem State.settle_die {i : Nat} (h : i < s.dies.length) :
    (s.settle id pass).die i = s.die i ∨ ∃ st part, (s.settle id pass).die i = (s.die i).endWork st part := by
  unfold State.settle
  split
  · exact .inl rfl
  · rw [State.die_modDies _ _ _ h]
    split
    · exact .inl rfl
    · exact .inr ⟨_, _, rfl⟩

theorem State.settle_die_of_ring {i : Nat} (h : i < s.dies.length) (hring : (s.die i).con.ringOf.isNone = false) :
    (s.settle id pass).die i = s.die i := by
  obtain h | ⟨st, part, h⟩ := s.settle_die id pass h
  · exact h
  · rw [h, Die.endWork_of_ring hring]

theorem State.settle_ra {i : Nat} (h : i < s.dies.length) : ((s.settle id pass).die i).con.ra = (s.die i).con.ra := by
  obtain h | ⟨st, part, h⟩ := s.settle_die id pass h <;> simp [h]

theorem State.settle_next {i : Nat} (h : i < s.dies.length) : ((s.settle id pass).die i).con.next = (s.die i).con.next := by
  obtain h | ⟨st, part, h⟩ := s.settle_die id pass h <;> simp [h]

end

/-! ### The long-range unit (R179, R180, R188) -/

/-- A coarse row stands whole in a die's ring. -/
def Die.rowWhole (d : Die) (dies : Nat) (j : Int) : Bool := d.con.ring.any fun r => r.row == j && r.complete dies

theorem Die.rowWhole_iff (d : Die) (dies : Nat) (j : Int) :
    d.rowWhole dies j = true ↔ ∃ r ∈ d.con.ring, r.row = j ∧ r.complete dies = true := by
  simp [Die.rowWhole]

/-- The rows that the next coarse row needs stand whole in the ring. -/
def Die.rowsWhole (d : Die) (dies k : Nat) : Bool :=
  (List.range (2 * k + 1)).all fun i => d.rowWhole dies ((d.con.lrNext : Int) + i - k)

theorem Die.rowsWhole_iff (d : Die) (dies k : Nat) : d.rowsWhole dies k = true ↔
    ∀ i < 2 * k + 1, ∃ r ∈ d.con.ring, r.row = (d.con.lrNext : Int) + i - k ∧ r.complete dies = true := by
  simp [Die.rowsWhole, Die.rowWhole_iff]

/-- The factors of a die's next coarse row, from its first factor column on (R179, R180). -/
def Die.nextFactors (d : Die) (t : Tables) (die dies : Nat) : List (Int × Nat) :=
  let x0 := max (16 * (die : Int) - 1) 0
  let x1 := min (16 * (die : Int) + 16) (16 * (dies : Int) - 1)
  (List.range (x1 + 1 - x0).toNat).map fun (i : Nat) =>
    (x0 + (i : Int), cellFactor t (longRangeSum t d.density (x0 + i) d.con.lrNext))

/-- A die's Contour with a row of factors more, where a row of the stripe is still to come. -/
def Contour.withFactors (k : Nat) (fs : List (Int × Nat)) (c : Contour) : Contour :=
  { c with
    factors := c.factors ++ [(c.lrNext, fs)], lrNext := c.lrNext + 1, ringLow := max ((c.lrNext : Int) + 1 - k) c.ringLow
    ring := c.ring.filter fun r => (c.lrNext : Int) + 1 - k ≤ r.row, waitDensity := false, waitFactor := false }

section
variable {s : State} {die : Nat} {st : Stripe} {pass : Nat} (hring : s.ringOf die = some (st, pass))
  (hr : s.renders die = true) (hpart : st.root.hasColumn (512 * die) = true) (hfew : (s.die die).con.factors.length < 8)
include hring hr hpart hfew

/-- Without a ring row that it needs, the long-range unit waits. -/
theorem execLongRangeRow_waits (hw : (s.die die).rowsWhole s.nDies st.tables.lrK = false) :
    execLongRangeRow die s = .next (s.modDie die fun d => { d with con.waitDensity := true }) := by
  unfold Die.rowsWhole Die.rowWhole at hw
  have hold : decide (8 ≤ (s.die die).con.factors.length) = false := by simpa using hfew
  simp only [execLongRangeRow, hring, hr, hpart, hold, hw]
  rfl

/-- With them it adds the row's factors. -/
theorem execLongRangeRow_row (hw : (s.die die).rowsWhole s.nDies st.tables.lrK = true)
    (hclean : (s.die die).sram.Clean) (hreset : s.ctl.resetRequest ≠ some .sramError)
    (hlast : (s.die die).con.lrNext + 1 < st.root.coarseRows) :
    execLongRangeRow die s = .next
      ((s.modDie die fun d => { d with
        con := d.con.withFactors st.tables.lrK ((s.die die).nextFactors st.tables die s.nDies) }).settle st.id pass) := by
  unfold Die.rowsWhole Die.rowWhole at hw
  have hold : decide (8 ≤ (s.die die).con.factors.length) = false := by simpa using hfew
  have hgo : (s.ctl.resetRequest == some .sramError) = false := by simpa using hreset
  have hended : decide (st.root.coarseRows ≤ (s.die die).con.lrNext + 1) = false := by simpa using hlast
  simp only [execLongRangeRow, hring, hr, hpart, hold, hw, State.unitReads_of_clean hclean, hgo, hended]
  simp only [Bool.not_true, Bool.false_and, Bool.false_eq_true, if_false]
  congr 2
  refine State.modDie_congr ?_
  simp [Contour.withFactors, Die.nextFactors, Nat.not_le.2 hfew]

end
end Sys2Proof.Machine
end

section
/-! SUPPORT. Render blocks (07 R174, R190-R193). -/

namespace Sys2Proof.Machine

/-! ### Render blocks (R174, R190-R193) -/

theorem blockBytes_length {rows : List (List Nat)} (h : ∀ r ∈ rows, r.length = 512) :
    (blockBytes rows).length = 1024 * rows.length := by
  induction rows with
  | nil => rfl
  | cons r rest ih =>
    have hrow : (r.flatMap fun p => [BitVec.ofNat 8 p, BitVec.ofNat 8 (p / 256)]).length = 2 * r.length := by
      simp [List.length_flatMap, Nat.mul_comm]
    have hcons : blockBytes (r :: rest)
        = (r.flatMap fun p => [BitVec.ofNat 8 p, BitVec.ofNat 8 (p / 256)]) ++ blockBytes rest := rfl
    rw [hcons, List.length_append, hrow, h r (by simp), ih fun x hx => h x (by simp [hx]), List.length_cons]
    omega

/-- Rows of a render block: 64, or fewer in the last one. -/
def Stripe.blockRows (st : Stripe) (ty : Nat) : Nat := min 64 (st.root.rows - 64 * ty)

/-- The corrected doses of a block's pixels, and whether the sum of each was below 0 (R174). -/
def Die.blockPixels (d : Die) (st : Stripe) (die dies ty : Nat) : List (List (Nat × Bool)) :=
  (List.range (st.blockRows ty)).map fun i => (List.range 512).map fun x =>
    correctedDose st.tables (baseDose die st.root.rows d.tess.tiles)
      (pixelFactor d.con.factors (16 * dies) st.root.coarseRows (512 * die + x) (64 * ty + i))
      ((512 * die + x : Nat) : Int) ((64 * ty + i : Nat) : Int)

/-- The doses under the ceiling. -/
def Die.cappedRows (d : Die) (st : Stripe) (die dies ty : Nat) : List (List Nat) :=
  (d.blockPixels st die dies ty).map fun r => r.map fun p => min p.1 st.ceiling

theorem Die.cappedRows_eq (d : Die) (st : Stripe) (die dies ty : Nat) :
    d.cappedRows st die dies ty = (List.range (st.blockRows ty)).map fun i => (List.range 512).map fun x =>
      min (correctedDose st.tables (baseDose die st.root.rows d.tess.tiles)
        (pixelFactor d.con.factors (16 * dies) st.root.coarseRows (512 * die + x) (64 * ty + i))
        ((512 * die + x : Nat) : Int) ((64 * ty + i : Nat) : Int)).1 st.ceiling := by
  simp only [Die.cappedRows, Die.blockPixels, List.map_map, Function.comp_def]

theorem Die.cappedRows_bytes (d : Die) (st : Stripe) (die dies ty : Nat) :
    (blockBytes (d.cappedRows st die dies ty)).length = 1024 * st.blockRows ty := by
  rw [Die.cappedRows_eq, blockBytes_length fun r hr => ?_]
  · simp
  · obtain ⟨i, -, rfl⟩ := List.mem_map.1 hr
    simp

/-- The block of a die's next rows, uncompressed (R192). -/
def Die.plainBlock (d : Die) (st : Stripe) (pass die dies : Nat) : RaBlock :=
  let rows := d.cappedRows st die dies d.con.next
  let b : RaBlock :=
    { stripe := st.id, pass := pass, ty := d.con.next, rows := rows, comp := false, offset := d.con.raPut
      length := (blockBytes rows).length, dataCrc := crc32c (dataSeed st.id d.con.next pass) (blockBytes rows), entryCrc := 0 }
  { b with entryCrc := crcWords 0xFFFFFFFF b.words }

theorem Die.plainBlock_length (d : Die) (st : Stripe) (pass die dies : Nat) :
    (d.plainBlock st pass die dies).length = 1024 * st.blockRows d.con.next :=
  d.cappedRows_bytes st die dies d.con.next

theorem Die.plainBlock_padded (d : Die) (st : Stripe) (pass die dies : Nat) :
    (d.plainBlock st pass die dies).padded / 64 = 16 * st.blockRows d.con.next := by
  rw [RaBlock.padded, Die.plainBlock_length, ceilDiv]
  omega

section
variable {s : State} {die : Nat} {st : Stripe} {pass : Nat} (hwork : s.workOf die = some (st, pass))
  (hr : s.renders die = true) (hpart : st.root.hasColumn (512 * die) = true) (hok : (s.die die).contourFailed = false)
  (hmore : 64 * (s.die die).con.next < st.root.rows) (v : Bool)
include hwork hr hpart hok hmore

theorem execRenderBlock_noTile (ht : ((s.die die).blockReady st (s.die die).con.next).1 = false) :
    execRenderBlock die v s = .next (s.modDie die fun d => { d with con.waitTile := true }) := by
  have hrows : decide (st.root.rows ≤ 64 * (s.die die).con.next) = false := by simpa using hmore
  simp only [execRenderBlock, hwork, hr, hpart, hok, hrows, ht]
  rfl

theorem execRenderBlock_noFactor (ht : ((s.die die).blockReady st (s.die die).con.next).1 = true)
    (hf : ((s.die die).blockReady st (s.die die).con.next).2 = false) :
    execRenderBlock die v s = .next (s.modDie die fun d => { d with con.waitFactor := true }) := by
  have hrows : decide (st.root.rows ≤ 64 * (s.die die).con.next) = false := by simpa using hmore
  simp only [execRenderBlock, hwork, hr, hpart, hok, hrows, ht, hf]
  rfl

/-- A block whose tiles and factors are there, written plain: it joins the buffer, and counters go on. -/
theorem execRenderBlock_plain (ht : ((s.die die).blockReady st (s.die die).con.next).1 = true)
    (hf : ((s.die die).blockReady st (s.die die).con.next).2 = true) (hcomp : (s.die die).con.compress = false)
    (hfree : (s.die die).con.ringFree ((s.die die).con.raMib * 16384) (16 * st.blockRows (s.die die).con.next) = true)
    (hroom : (s.die die).con.ra.length < (s.die die).con.raMib * 64) :
    ∃ (f : Die → Die) (capped neg len units : Nat) (pages : List (Nat × Nat)),
      execRenderBlock die v s = .next ((((((((s.modDie die f).count die 24 1).count die 25 capped).count die 26 neg).count die 28
        len).count die 41 units).dramAccess die pages).settle st.id pass)
      ∧ (f (s.die die)).con.ra = (s.die die).con.ra ++ [(s.die die).plainBlock st pass die s.nDies]
      ∧ (f (s.die die)).con.next = (s.die die).con.next + 1 := by
  have hrows : decide (st.root.rows ≤ 64 * (s.die die).con.next) = false := by simpa using hmore
  have hplaced : ¬(!(s.die die).con.ringFree ((s.die die).con.raMib * 16384)
      (((s.die die).plainBlock st pass die s.nDies).padded / 64)
      || decide ((s.die die).con.raMib * 64 ≤ (s.die die).con.ra.length)) = true := by
    rw [Die.plainBlock_padded, hfree]
    simpa using hroom
  simp only [execRenderBlock, hwork, hr, hpart, hok, hrows, ht, hf, hcomp, Bool.false_and, Bool.not_true,
      Bool.or_false, Bool.false_eq_true, if_false]
  exact ⟨_, _, _, _, _, _, congrArg Host.Outcome.next (if_neg hplaced), rfl, rfl⟩

end
end Sys2Proof.Machine
end

section
/-! SUPPORT. The render-ahead reader: rows that enter the beam window, and blocks that are lost (07 R194, 01 R21). -/

namespace Sys2Proof.Machine

/-! ### The render-ahead reader (R194, R21) -/

theorem RaBlock.rows_putBack (b : RaBlock) (ra : List RaBlock) :
    (ra.map fun x => if x = b then { b with rows := b.rows } else x) = ra := by
  conv_rhs => rw [← List.map_id ra]
  refine List.map_congr_left fun x _ => ?_
  split
  · next h => exact h.symm
  · rfl

theorem State.fillLimit_congr {s t : State} (h : t.locus = s.locus) : t.fillLimit = s.fillLimit := by
  simp only [State.fillLimit, State.latticeNext, h]

theorem State.passBlocks_congr {s t : State} {die : Nat} (hseq : t.seq = s.seq)
    (hra : (t.die die).con.ra = (s.die die).con.ra) : t.passBlocks die = s.passBlocks die := by
  simp only [State.passBlocks, hseq, hra]

/-- A block's pages are read, and the bytes of a compressed one are counted. -/
def State.fetchBlock (s : State) (die : Nat) (b : RaBlock) : State :=
  let t := s.dramAccess die (renderPages b.offset (b.padded / 64))
  if b.comp then t.count die 58 (1024 * b.rows.length) else t

section
variable (s : State) (die : Nat) (b : RaBlock)

/-- Reading a block's pages moves page records and performance counters. -/
theorem State.fetchBlock_frame : let t := s.fetchBlock die b
    t.ctl = s.ctl ∧ t.perim = s.perim ∧ t.seq = s.seq ∧ t.locus = s.locus ∧ t.out = s.out ∧ t.dies.length = s.dies.length
    ∧ (die < s.dies.length → (t.die die).con = (s.die die).con ∧ (t.die die).lat = (s.die die).lat
      ∧ (t.die die).sram = (s.die die).sram ∧ (t.die die).mem.linkCe = (s.die die).mem.linkCe
      ∧ (t.die die).mem.linkUe = (s.die die).mem.linkUe) := by
  unfold State.fetchBlock
  dsimp only
  split <;> simp +contextual

section
variable {s die b} {rest : List RaBlock} (hblocks : s.passBlocks die = b :: rest) (hr : s.renders die = true)
  (hok : (s.die die).contourFailed = false)
include hblocks hr hok

/-- With nothing to read, rows enter the window as far as they may. -/
theorem execRenderAheadRead_place (a : RaRead) (hnone : (s.die die).con.toRead (b :: rest) = none) :
    execRenderAheadRead die a none s = .next (s.placeFirst die) := by
  simp only [execRenderAheadRead, State.bufferRead, hblocks, hr, hok, hnone]
  rfl

/-- With no block checked, the first is read. -/
theorem execRenderAheadRead_read (a : RaRead) (hnone : (s.die die).con.checked = []) :
    execRenderAheadRead die a none s = .next (((s.fetchBlock die b).blockAnswered die b a).placeFirst die) := by
  have hread : (s.die die).con.toRead (b :: rest) = some b := by simp [Contour.toRead, hnone]
  simp only [execRenderAheadRead, State.bufferRead, hblocks, hr, hok, hread]
  rfl
end

variable {s die b}

/-- Rows that R21 does not let in yet stay out. -/
theorem State.placeFirst_late {rest : List RaBlock} (hblocks : s.passBlocks die = b :: rest)
    (h : s.fillLimit < 64 * b.ty + (s.die die).rowsPlaced b) : s.placeFirst die = s := by
  have hlate : ¬ 64 * b.ty + (s.die die).rowsPlaced b ≤ s.fillLimit := by omega
  simp [State.placeFirst, hblocks, hlate]

theorem State.placeFirst_unchecked (h : (s.die die).con.checked = []) : s.placeFirst die = s := by
  unfold State.placeFirst
  split <;> simp [h]

theorem State.placeFirst_checked {rest : List RaBlock} (hblocks : s.passBlocks die = b :: rest)
    (hc : (s.die die).con.checked.contains b.key = true) (h : 64 * b.ty + (s.die die).rowsPlaced b ≤ s.fillLimit) :
    s.placeFirst die = s.placeRows die b := by
  simp only [State.placeFirst, hblocks, hc, h]
  rfl

end

section
variable (s : State) (die : Nat)

/-- The check of the reader lead changes at most a die's memory controller. -/
theorem State.updatePanic_eq :
    s.updatePanic die = s ∨ ∃ f : Die → Mem, s.updatePanic die = s.modDie die fun d => { d with mem := f d } := by
  unfold State.updatePanic
  split
  · exact .inl rfl
  · split
    · exact .inl rfl
    · exact .inr ⟨_, rfl⟩

@[simp] theorem State.updatePanic_seq : (s.updatePanic die).seq = s.seq := by
  obtain h | ⟨f, h⟩ := s.updatePanic_eq die <;> simp [h]

@[simp] theorem State.updatePanic_out : (s.updatePanic die).out = s.out := by
  obtain h | ⟨f, h⟩ := s.updatePanic_eq die <;> simp [h]

theorem State.updatePanic_die (h : die < s.dies.length) :
    ∃ m, (s.updatePanic die).die die = { s.die die with mem := m } := by
  obtain he | ⟨f, he⟩ := s.updatePanic_eq die
  · exact ⟨_, by rw [he]⟩
  · exact ⟨_, by rw [he, State.die_modDie _ _ _ h]⟩

/-- What placing n rows of a block, `done` of which are placed, makes of a die. -/
def Die.placeBlock (b : RaBlock) (done n : Nat) (d : Die) : Die :=
  let d := d.putRows b done ((b.rows.drop done).take n)
  { d with con := if done + n = b.rows.length then d.con.release b else d.con }

/-- Rows of a checked block enter the window and its slots; the block goes with its last row. -/
theorem State.placeRows_effect (b : RaBlock) (h : die < s.dies.length) :
    let d := s.die die
    let done := d.rowsPlaced b
    let n := min (s.fillLimit + 1 - (64 * b.ty + done)) (b.rows.length - done)
    let t := s.placeRows die b
    (t.die die).lat.window = d.lat.window ++ (List.range n).map (fun i =>
        { stripe := b.stripe, pass := b.pass, y := 64 * b.ty + done + i })
      ∧ (t.die die).sram = ((b.rows.drop done).take n).zipIdx.foldl
          (fun m r => m.writeHalves (windowAddr (64 * b.ty + done + r.2) 0) r.1) d.sram
      ∧ (t.die die).con.ra = (if done + n = b.rows.length then d.con.ra.erase b else d.con.ra)
      ∧ (t.die die).con.rdFail = d.con.rdFail
      ∧ t.seq = s.seq ∧ t.out = s.out := by
  intro d done n t
  have hlen : ((b.rows.drop done).take n).length = n := by simp [n]
  have ht : t = ((s.modDie die (Die.placeBlock b done n)).count die 40 (16 * n)).updatePanic die := rfl
  obtain ⟨m, hm⟩ :=
    State.updatePanic_die ((s.modDie die (Die.placeBlock b done n)).count die 40 (16 * n)) die (by simpa using h)
  rw [← ht] at hm
  refine ⟨?_, ?_, ?_, ?_, by simp [ht], by simp [ht]⟩
  · simp [hm, State.die_modDie, h, Die.placeBlock, Die.putRows, hlen, d]
  · simp [hm, State.die_modDie, h, Die.placeBlock, Die.putRows, d]
  · simp only [hm, State.count_con, State.die_modDie _ _ _ h, Die.placeBlock]
    split <;> rfl
  · simp only [hm, State.count_con, State.die_modDie _ _ _ h, Die.placeBlock]
    split <;> rfl

end

/-! ### Blocks that are lost (R194, 04 R108) -/

/-- The fault queue holds nothing but, perhaps, a record of a die's link errors. -/
def State.OnlyLinkFault (s : State) (die : Nat) : Prop :=
  s.perim.active = none ∧ (s.perim.waiting = [] ∨ ∃ r, s.perim.waiting = [r] ∧ r.same 0x000C die 0 = true)

section
variable {s : State} {die : Nat}

theorem State.OnlyLinkFault.congr {t : State} (h : s.OnlyLinkFault die) (hp : t.perim = s.perim) : t.OnlyLinkFault die := by
  unfold State.OnlyLinkFault; rw [hp]; exact h

/-- The registers of an uncorrectable link error. -/
def Die.linkError (d : Die) : Die :=
  { d with mem := { d.mem with linkUe := satInc d.mem.linkUe, err := d.mem.err ||| 1#4 } }

theorem State.linkUe_eq : s.linkUe die =
    { s.modDie die Die.linkError with free := s.free + 1 }.detect 0x000C die 0 (Config.freeWord s.free) 0 := rfl

/-- An uncorrectable link error is counted, and reported in one record at most. -/
theorem State.linkUe_effect (h : die < s.dies.length) (hq : s.OnlyLinkFault die) :
    let t := s.linkUe die
    t.OnlyLinkFault die ∧ t.dies.length = s.dies.length ∧ t.seq = s.seq ∧ t.locus = s.locus ∧ t.ctl.dev = s.ctl.dev
      ∧ t.die die = (s.die die).linkError := by
  have hminor : minorCause 0x000C := ⟨rfl, rfl, fun _ => rfl⟩
  have hdie : (s.modDie die Die.linkError).die die = (s.die die).linkError := State.die_modDie _ _ _ h
  rw [State.linkUe_eq]
  obtain ⟨ha, hw | ⟨r, hw, hsame⟩⟩ := hq
  · rw [State.detect_minor_new hminor (by simpa using ha) (by simp [hw, mergeWaiting]) (by simp [hw])]
    refine ⟨⟨by simpa using ha, .inr ⟨_, by simp [hw, insertRecord]; rfl, ?_⟩⟩, by simp, by simp, by simp, by simp, ?_⟩
    · simp [FaultRecord.same, State.newRecord]
    · rw [State.die_congr (State.enqueue_dies _ _)]; exact hdie
  · rw [State.detect_minor_again hminor (by simpa using ha) (r := r.again) (rs := [r.again])
      (by simp [hw, mergeWaiting, hsame])]
    exact ⟨⟨ha, .inr ⟨_, rfl, hsame⟩⟩, by simp [State.logRecord], rfl, rfl, rfl, hdie⟩

/-- The registers of a block that is skipped whole. -/
def Die.loseBlock (b : RaBlock) (d : Die) : Die :=
  { d with con := { d.con.release b with
      rdFail := satInc d.con.rdFail, rdFault := true
      lost := d.con.lost ++ [(b.stripe, b.pass, b.ty, false)] } }

theorem State.skipBlock_eq (b : RaBlock) : s.skipBlock die b =
    (s.modDie die (Die.loseBlock b)).detect 0x0005 die 0 (BitVec.ofNat 32 b.ty) 0 := rfl

/-- A block is skipped whole: its registers, a record, and nothing of the sequencer or the device's state. -/
theorem State.skipBlock_effect (b : RaBlock) (h : die < s.dies.length) (hq : s.OnlyLinkFault die) :
    let t := s.skipBlock die b
    t.die die = (s.die die).loseBlock b ∧ (∃ r, t.perim.log.getLast? = some r ∧ r.cause = 0x0005 ∧ r.die = die)
      ∧ t.ctl.dev = s.ctl.dev ∧ t.seq = s.seq := by
  have hminor : minorCause 0x0005 := ⟨rfl, rfl, fun _ => rfl⟩
  have hnew : mergeWaiting 0x0005 die 0 s.perim.waiting = none ∧ s.perim.waiting.length < 32 := by
    obtain ⟨-, hw | ⟨r, hw, hsame⟩⟩ := hq
    · simp [hw, mergeWaiting]
    · have hcause : r.cause = 0x000C := by
        simp only [FaultRecord.same, Bool.and_eq_true, beq_iff_eq] at hsame
        exact hsame.1.1
      simp [hw, mergeWaiting, FaultRecord.same, hcause]
  rw [State.skipBlock_eq, State.detect_minor_new hminor (by simpa using hq.1) (by simpa using hnew.1) (by simpa using hnew.2)]
  refine ⟨?_, ⟨_, State.enqueue_getLast _ _, rfl, rfl⟩, by simp, by simp⟩
  rw [State.die_congr (State.enqueue_dies _ _), State.die_modDie _ _ _ h]

end

end Sys2Proof.Machine
end

section
/-! SUPPORT. The render-ahead reader's commands, and what the dose path's rows do. -/

namespace Sys2Proof.Machine

/-! ### What a read of the first block leaves (R194) -/

/-- A die with a block checked, and correctable errors of its read counted. -/
def Die.checkBlock (b : RaBlock) (corrected : Nat) (d : Die) : Die :=
  { d with mem.linkCe := satAdd d.mem.linkCe corrected, con.checked := d.con.checked ++ [b.key] }

/-- A block that arrives as it was written, and whose checks hold, is checked. -/
theorem State.blockAnswered_accepted (s : State) (die : Nat) (b : RaBlock) (corrected : Nat)
    (hacc : b.accepted (b.words ++ [b.entryCrc]) (some (blockBytes b.rows)) = some b.rows) :
    s.blockAnswered die b (.read corrected 0 none none) = s.modDie die (Die.checkBlock b corrected) := by
  have hput (d : Die) := b.rows_putBack d.con.ra
  simp [State.blockAnswered, hacc, State.linkCe, State.modDie, List.modify_modify_eq, Function.comp_def, hput]
  rfl

/-- A block whose checks do not hold is skipped. -/
theorem State.blockAnswered_rejected (s : State) (die : Nat) (b : RaBlock) (corrected : Nat) {entry : Option (List Word)}
    {data : Option (Option (List Byte))}
    (hrej : b.accepted (entry.getD (b.words ++ [b.entryCrc])) (data.getD (some (blockBytes b.rows))) = none) :
    s.blockAnswered die b (.read corrected 0 entry data) = (s.linkCe die corrected).skipBlock die b := by
  simp [State.blockAnswered, hrej]

/-- A block that is missing, or whose checks do not hold, is skipped once its link errors are counted. -/
theorem State.blockAnswered_lost {s : State} {die : Nat} {b : RaBlock} {answer : RaRead} (hlen : die < s.dies.length)
    (hq : s.OnlyLinkFault die) (hlost : answer = .missing ∨ ∃ corrected entry data, answer = .read corrected 0 entry data
      ∧ b.accepted (entry.getD (b.words ++ [b.entryCrc])) (data.getD (some (blockBytes b.rows))) = none) :
    ∃ w : State, s.blockAnswered die b answer = w.skipBlock die b ∧ w.OnlyLinkFault die ∧ w.dies.length = s.dies.length
      ∧ (w.die die).con = (s.die die).con ∧ (w.die die).lat = (s.die die).lat
      ∧ (answer = .missing → (w.die die).mem.linkUe = satInc (satInc (s.die die).mem.linkUe))
      ∧ w.seq = s.seq ∧ w.ctl.dev = s.ctl.dev := by
  obtain rfl | ⟨corrected, entry, data, rfl, hrej⟩ := hlost
  · obtain ⟨hq₁, hlen₁, hseq₁, -, hdev₁, hdie₁⟩ := State.linkUe_effect hlen hq
    obtain ⟨hq₂, hlen₂, hseq₂, -, hdev₂, hdie₂⟩ := State.linkUe_effect (hlen₁.symm ▸ hlen) hq₁
    refine ⟨(s.linkUe die).linkUe die, rfl, hq₂, hlen₂.trans hlen₁, ?_, ?_, fun _ => ?_, hseq₂.trans hseq₁,
      hdev₂.trans hdev₁⟩ <;> rw [hdie₂, hdie₁] <;> rfl
  · refine ⟨s.linkCe die corrected, State.blockAnswered_rejected s die b corrected hrej, hq, by simp [State.linkCe], ?_, ?_, nofun,
      rfl, rfl⟩ <;> rw [State.linkCe, State.die_modDie _ _ _ hlen]

section
variable {s : State} {die : Nat} {b : RaBlock} {rest : List RaBlock} (hblocks : s.passBlocks die = b :: rest)
  (hr : s.renders die = true) (hok : (s.die die).contourFailed = false) (hnone : (s.die die).con.checked = [])
include hblocks hr hok hnone

/-- A block is checked; R21 lets none of its rows in yet. -/
theorem execRenderAheadRead_checks (corrected : Nat)
    (hacc : b.accepted (b.words ++ [b.entryCrc]) (some (blockBytes b.rows)) = some b.rows)
    (hlate : s.fillLimit < 64 * b.ty + (s.die die).rowsPlaced b) :
    execRenderAheadRead die (.read corrected 0 none none) none s =
      .next ((s.fetchBlock die b).modDie die (Die.checkBlock b corrected)) := by
  obtain ⟨hlen, -⟩ := State.renders_live hr
  obtain ⟨-, -, hseq, hlocus, -, hlen', hdie⟩ := s.fetchBlock_frame die b
  obtain ⟨hcon, hlat, -, -, -⟩ := hdie hlen
  rw [execRenderAheadRead_read hblocks hr hok _ hnone, State.blockAnswered_accepted _ _ _ _ hacc]
  have htdie := State.die_modDie (s.fetchBlock die b) (Die.checkBlock b corrected) die (hlen'.symm ▸ hlen)
  congr 1
  have hblocks' : ((s.fetchBlock die b).modDie die (Die.checkBlock b corrected)).passBlocks die = b :: rest := by
    rw [State.passBlocks_congr (s := s) (by simpa using hseq) (by rw [htdie, Die.checkBlock, hcon]), hblocks]
  refine State.placeFirst_late hblocks' ?_
  rw [State.fillLimit_congr (s := s) (by simpa using hlocus), htdie]
  simpa only [Die.rowsPlaced, Die.checkBlock, hlat] using hlate

/-- A block is lost: what its read left is reported, and the block skipped. -/
theorem execRenderAheadRead_loses {answer : RaRead} {w : State}
    (hanswer : (s.fetchBlock die b).blockAnswered die b answer = w.skipBlock die b) (hw : w.OnlyLinkFault die)
    (hlen : die < w.dies.length) (hchecked : (w.die die).con.checked = []) :
    execRenderAheadRead die answer none s = .next (w.skipBlock die b) := by
  obtain ⟨hdie, -⟩ := State.skipBlock_effect b hlen hw
  rw [execRenderAheadRead_read hblocks hr hok _ hnone, hanswer, State.placeFirst_unchecked]
  simp [hdie, Die.loseBlock, Contour.release, hchecked]

end

theorem State.ringOf_held {s : State} {die : Nat} {x : Stripe × Nat} (h : s.ringOf die = some x) :
    (s.die die).con.ringOf.isNone = false := by
  cases hring : (s.die die).con.ringOf <;> simp_all [State.ringOf]

/-- Settles O57: each row by the laws of its command above. -/
theorem dosePathRows : Obligations.DosePathRows := by
  unfold Obligations.DosePathRows
  refine ⟨fun s die owner sent st pass received hsent hring hr => ?packet,
    fun s die id pass h => execStripePassStop_absent h, fun s die id pass h hlen => ?stop,
    fun s die st pass hring hr hpart hfew hclean hreset => ?longRange,
    fun s die st pass hwork hr hpart hok hmore => ?block, fun s die b rest hblocks hr hok => ?reader⟩
  case packet =>
    obtain ⟨hlen, -⟩ := State.renders_live hr
    refine ⟨fun hrow => ⟨_, execDensityPacketRx_row hsent hring hr hrow, ?_⟩, execDensityPacketRx_waits hsent hring hr,
      fun kind hfault hactive hwaiting => ⟨_, execDensityPacketRx_fault hsent hring hr hfault, ?_⟩⟩
    · beta_reduce
      rw [State.die_modDie _ _ _ (by simpa using hlen)]
      simp [Die.putDensity, State.takePacket_con hlen, State.takePacket_sram hlen]
    · obtain ⟨hf, hkind, hr', hstops, hlog, hdev⟩ := State.densityFault_effect (s := s.takePacket die sent) kind st.id pass
        (received.getD sent.2) (by simpa using hlen) (by simpa using hactive) (by simpa using hwaiting)
      refine ⟨hf, hkind, hr'.trans (by rw [State.takePacket_con hlen]), fun i x hx hlive => ?_, hlog,
        hdev.trans (by rw [State.takePacket_ctl])⟩
      obtain ⟨y, hy, hylive⟩ := State.takePacket_live hx hlive
      exact hstops i y hy hylive
  case stop =>
    refine ⟨_, execStripePassStop_sent h, ?_⟩
    unfold State.stopPassOn
    beta_reduce
    rw [State.die_modDie _ _ _ (by simpa using hlen), State.die_modDie _ _ _ hlen, Die.stopPass_stops]
    exact ⟨rfl, Die.stopPass_ringOf _ _ _ _ _, Die.stopPass_work _ _ _ _ _, fun i hi => by simp [hi], rfl, rfl⟩
  case longRange =>
    obtain ⟨hlen, -⟩ := State.renders_live hr
    refine ⟨fun ⟨i, hi, hmiss⟩ => ?_, fun hwhole hlast => ?_⟩
    · refine execLongRangeRow_waits hring hr hpart hfew (Bool.eq_false_iff.2 fun h => ?_)
      exact hmiss ((Die.rowsWhole_iff _ _ _).1 h i hi)
    · refine ⟨_, execLongRangeRow_row hring hr hpart hfew ((Die.rowsWhole_iff _ _ _).2 hwhole) hclean hreset hlast, ?_⟩
      have hdie := State.die_modDie s (fun d => { d with
        con := d.con.withFactors st.tables.lrK ((s.die die).nextFactors st.tables die s.nDies) }) die hlen
      beta_reduce
      rw [State.settle_die_of_ring _ _ _ (by simpa using hlen) (by rw [hdie]; exact State.ringOf_held hring), hdie]
      simp only [State.settle_seq, State.settle_out, State.settle_perim]
      exact ⟨rfl, rfl, rfl, rfl, rfl, rfl, rfl, rfl, rfl⟩
  case block =>
    obtain ⟨hlen, -⟩ := State.renders_live hr
    refine ⟨fun ht v => execRenderBlock_noTile hwork hr hpart hok hmore v ht,
      fun ht hf v => execRenderBlock_noFactor hwork hr hpart hok hmore v ht hf, ?_⟩
    intro ht hf hcomp n hfree hroom rows v
    obtain ⟨f, _, _, _, _, _, hexec, hra, hnext⟩ :=
      execRenderBlock_plain hwork hr hpart hok hmore v ht hf hcomp hfree hroom
    have hrows := (s.die die).cappedRows_eq st die s.nDies (s.die die).con.next
    refine ⟨_, hexec, ⟨(s.die die).plainBlock st pass die s.nDies, ?_, rfl, rfl, rfl, hrows, rfl, rfl,
      Die.plainBlock_length _ _ _ _ _, rfl, ?_⟩, ?_, ?_, ?_, ?_⟩
    · rw [State.settle_ra _ _ _ (by simpa using hlen)]
      simp [hlen, State.die_modDie, hra]
    · exact congrArg (fun px => crc32c (dataSeed st.id (s.die die).con.next pass) (blockBytes px)) hrows
    · rw [State.settle_next _ _ _ (by simpa using hlen)]
      simp [hlen, State.die_modDie, hnext]
    · simp
    · simp
    · simp
  case reader =>
    obtain ⟨hlen, -⟩ := State.renders_live hr
    obtain ⟨hctl, hperim, hseq, -, hout, hlen', hdie⟩ := s.fetchBlock_frame die b
    obtain ⟨hcon, hlat, hsram, hce, hue⟩ := hdie hlen
    refine ⟨fun a hc hread => ⟨fun hlate => ?late, fun hin => ?place⟩, fun corrected hnone hacc hlate => ?checks,
      fun answer hnone hactive hwaiting hlost => ?loses⟩
    case late =>
      exact (execRenderAheadRead_place hblocks hr hok a hread).trans (by rw [State.placeFirst_late hblocks hlate])
    case place =>
      exact ⟨_, (execRenderAheadRead_place hblocks hr hok a hread).trans (by rw [State.placeFirst_checked hblocks hc hin]),
        s.placeRows_effect die b hlen⟩
    case checks =>
      refine ⟨_, execRenderAheadRead_checks hblocks hr hok hnone corrected hacc hlate, ?_⟩
      beta_reduce
      rw [State.die_modDie _ _ _ (hlen'.symm ▸ hlen)]
      simp [Die.checkBlock, hcon, hlat, hsram, hce, hseq, hout, hnone]
    case loses =>
      have hq : (s.fetchBlock die b).OnlyLinkFault die :=
        ⟨by rw [hperim, hactive], .inl (by rw [hperim, hwaiting])⟩
      obtain ⟨w, hanswer, hwq, hwlen, hwcon, hwlat, hwue, hwseq, hwdev⟩ :=
        State.blockAnswered_lost (hlen'.symm ▸ hlen) hq hlost
      have hwlen' : die < w.dies.length := by rw [hwlen, hlen']; exact hlen
      obtain ⟨htdie, hlog, hdev, htseq⟩ := State.skipBlock_effect b hwlen' hwq
      refine ⟨_, execRenderAheadRead_loses hblocks hr hok hnone hanswer hwq hwlen' (by rw [hwcon, hcon, hnone]), ?_⟩
      simp only [htdie, Die.loseBlock, Contour.release, hwcon, hwlat, hcon, hlat, true_and]
      exact ⟨fun hmiss => by rw [hwue hmiss, hue], hlog, by rw [hdev, hwdev, hctl],
        by rw [htseq, hwseq, hseq]⟩

end Sys2Proof.Machine
end

section
/-! SUPPORT. Status entries (02_host_commands.md R49, R54-R57, R60, Table 2-4): what a completion writes, and what it leaves. -/

namespace Sys2Proof.Machine

/-! ### A report changes what reports may change, and nothing else -/

section
variable (s : State) (e : Entry)

@[simp] theorem State.emits_unreported (es : List Emission) : (s.emits es).unreported = s.unreported := rfl

@[simp] theorem State.message_unreported (v : Nat) : (s.message v).unreported = s.unreported := by
  unfold State.message
  split <;> rfl

@[simp] theorem State.irqSeen_unreported (v : Nat) : (s.irqSeen v).unreported = s.unreported := rfl

@[simp] theorem State.signal_unreported (v : Nat) : (s.signal v).unreported = s.unreported := by
  unfold State.signal
  split
  · rw [State.message_unreported, State.irqSeen_unreported]
  · rfl

@[simp] theorem State.count_unreported (d i n : Nat) : (s.count d i n).unreported = s.unreported := by
  unfold State.count
  split
  · simp [State.unreported, State.modDie]
  · rfl

@[simp] theorem State.hostRead_unreported (n : Nat) : (s.hostRead n).unreported = s.unreported :=
  State.count_unreported _ _ _ _

/-- Vector 0 is signalled for an entry at once, or the entry is counted as unsignalled. -/
@[simp] theorem State.entryIrq_unreported : (s.entryIrq e).unreported = s.unreported := by
  unfold State.entryIrq
  dsimp only
  split
  · split
    · rfl
    · exact State.message_unreported _ _
  · split
    · rfl
    · split
      · exact State.message_unreported _ _
      · rfl

@[simp] theorem State.putEntry_unreported : (s.putEntry e).unreported = s.unreported := by
  unfold State.putEntry
  dsimp only
  rw [State.entryIrq_unreported, State.count_unreported, State.count_unreported]
  rfl

@[simp] theorem State.drain_unreported (es : List Entry) : (s.drain es).unreported = s.unreported := by
  induction es generalizing s with
  | nil => rfl
  | cons e es ih =>
    rw [State.drain]
    split
    · rw [ih, State.putEntry_unreported]
    · rfl

@[simp] theorem State.writeEntry_unreported (release : Nat) : (s.writeEntry e release).unreported = s.unreported := by
  unfold State.writeEntry
  split
  · rfl
  · extract_lets holds hif stat t
    have ht : t.unreported = s.unreported := by
      unfold t
      split <;> rfl
    split
    · exact ht
    · split
      · exact ht
      · split
        · rw [State.drainHolding, State.drain_unreported, State.putEntry_unreported, ht]
        · split
          · rw [State.putEntry_unreported, ht]
          · exact ht

variable (c : Ctx) (status : Nat) (res : List Nat)

/-- A completion is a report. -/
theorem State.finish_unreported : (s.finish c status res).unreported = s.unreported := State.writeEntry_unreported _ _ _

@[simp] theorem State.finish_tables : (s.finish c status res).tables = s.tables :=
  (congrArg State.tables (s.finish_unreported c status res) :)
@[simp] theorem State.finish_perim : (s.finish c status res).perim = s.perim :=
  (congrArg State.perim (s.finish_unreported c status res) :)
@[simp] theorem State.finish_libs : (s.finish c status res).libs = s.libs :=
  (congrArg State.libs (s.finish_unreported c status res) :)
@[simp] theorem State.finish_areas : (s.finish c status res).areas = s.areas :=
  (congrArg State.areas (s.finish_unreported c status res) :)
@[simp] theorem State.finish_seq : (s.finish c status res).seq = s.seq :=
  (congrArg State.seq (s.finish_unreported c status res) :)
@[simp] theorem State.finish_dmaD : (s.finish c status res).dmaD = s.dmaD :=
  (congrArg State.dmaD (s.finish_unreported c status res) :)
@[simp] theorem State.finish_locus : (s.finish c status res).locus = s.locus :=
  (congrArg State.locus (s.finish_unreported c status res) :)
@[simp] theorem State.finish_arc : (s.finish c status res).arc = s.arc :=
  (congrArg State.arc (s.finish_unreported c status res) :)
@[simp] theorem State.finish_datum : (s.finish c status res).datum = s.datum :=
  (congrArg State.datum (s.finish_unreported c status res) :)

end

/-! ### The entry at the tail (R55) -/

/-- The two writes of an entry that is the last of its command: words 0 and 2 to 7, then word 1 (Table 2-4). -/
theorem StatRing.writes_final (r : StatRing) (c : Ctx) (status : Nat) (res : List Nat) :
    r.writes { ctx := c, more := false, status := status, res := res } =
      [.entryHead (r.base.toNat + 32 * r.tail) (BitVec.ofNat 32 (c.tag % 65536 * 65536 + c.opcode % 65536))
          (BitVec.ofNat 32 (c.slot % 4096) :: (List.range 5).map fun i => BitVec.ofNat 32 (res.getD i 0)),
        .write (r.base.toNat + 32 * r.tail + 4)
          [BitVec.ofNat 32 ((if r.phase then 2 ^ 31 else 0) + (if c.urgent then 2 ^ 21 else 0) + min res.length 5 * 65536
            + status % 65536)]] := by
  cases hp : r.phase <;> cases hu : c.urgent <;> simp [StatRing.writes, Entry.words, b2n, hp, hu, Function.comp_def]

section
variable (s : State) (e : Entry)

/-- The interrupt of an entry changes the count of unsignalled entries at most in the host interface. -/
theorem State.entryIrq_hif : ∃ n, (s.entryIrq e).hif = { s.hif with unsignalled := n } := by
  unfold State.entryIrq
  dsimp only
  split
  · split
    · exact ⟨s.hif.unsignalled, rfl⟩
    · exact ⟨s.hif.unsignalled, by simp⟩
  · split
    · exact ⟨s.hif.unsignalled, rfl⟩
    · split
      · exact ⟨0, by simp⟩
      · exact ⟨s.hif.unsignalled + 1, rfl⟩

/-- A message is sent or left pending. -/
theorem State.message_out (v : Nat) : ∃ es, (s.message v).out = s.out ++ es := by
  unfold State.message
  split
  · exact ⟨[], (List.append_nil _).symm⟩
  · exact ⟨[.msix v], rfl⟩

theorem State.entryIrq_out : ∃ es, (s.entryIrq e).out = s.out ++ es := by
  unfold State.entryIrq
  dsimp only
  split
  · split
    · exact ⟨[], (List.append_nil _).symm⟩
    · exact State.message_out _ _
  · split
    · exact ⟨[], (List.append_nil _).symm⟩
    · split
      · exact State.message_out _ _
      · exact ⟨[], (List.append_nil _).symm⟩

/-- The tail goes on by one, and at the ring's end to 0, where the phase inverts. -/
def StatRing.next (r : StatRing) : StatRing :=
  { r with
    tail := if r.tail + 1 = 2 ^ r.log2 then 0 else r.tail + 1
    phase := if r.tail + 1 = 2 ^ r.log2 then !r.phase else r.phase }

theorem StatRing.next_tail {r : StatRing} (h : r.tail < 2 ^ r.log2) : r.next.tail = (r.tail + 1) % 2 ^ r.log2 := by
  unfold StatRing.next
  dsimp only
  split
  · next hlast => rw [hlast, Nat.mod_self]
  · rw [Nat.mod_eq_of_lt (by omega)]

theorem State.putEntry_hif :
    ∃ n, (s.putEntry e).hif = { s.hif with stat := s.hif.stat.next, unsignalled := n } := by
  unfold State.putEntry
  dsimp only
  obtain ⟨n, hn⟩ := State.entryIrq_hif ((State.count (State.count { s.emits (s.hif.stat.writes e) with
    hif.stat.tail := s.hif.stat.next.tail, hif.stat.phase := s.hif.stat.next.phase } 0 178 1) 0 180 32)) e
  exact ⟨n, hn.trans (by simp [StatRing.next])⟩

theorem State.putEntry_out : ∃ es, (s.putEntry e).out = s.out ++ s.hif.stat.writes e ++ es := by
  unfold State.putEntry
  dsimp only
  obtain ⟨es, hes⟩ := State.entryIrq_out ((State.count (State.count { s.emits (s.hif.stat.writes e) with
    hif.stat.tail := s.hif.stat.next.tail, hif.stat.phase := s.hif.stat.next.phase } 0 178 1) 0 180 32)) e
  exact ⟨es, hes.trans (by simp)⟩

end

/-! ### What becomes of an entry that holds no reservation -/

section
variable {s : State} {c : Ctx} {status : Nat} {res : List Nat}

/-- An entry of an ended ring generation is discarded (R49). -/
theorem State.finish_stale (hgen : c.gen ≠ s.hif.gen) : s.finish c status res = s := by
  simp [State.finish, State.writeEntry, hgen]

variable (hheld : c.held = none)
include hheld

/-- With the ring disabled it is discarded too (R56). -/
theorem State.finish_disabled (hen : s.hif.stat.enabled = false) : s.finish c status res = s := by
  simp [State.finish, State.writeEntry, Ctx.holds, hheld, hen]

variable (hgen : c.gen = s.hif.gen) (hen : s.hif.stat.enabled = true) (hd0 : s.ctl.d3hot = false)
include hgen hen hd0

/-- With room, and no entry before it, it is written (R54). -/
theorem State.finish_written (hnone : s.hif.holding = []) (hroom : 0 < s.hif.stat.room) :
    s.finish c status res = s.putEntry { ctx := c, more := false, status := status, res := res } := by
  simp [State.finish, State.writeEntry, Ctx.holds, hheld, hgen, hen, hd0, hnone, hroom]

/-- Without room it waits in the holding queue (R54). -/
theorem State.finish_waits (hroom : s.hif.stat.room = 0) :
    s.finish c status res =
      { s with hif.holding := s.hif.holding ++ [{ ctx := c, more := false, status := status, res := res }] } := by
  simp [State.finish, State.writeEntry, Ctx.holds, hheld, hgen, hen, hd0, hroom]

end

/-- The room beyond the reservations, by the entries in use (R54). -/
theorem StatRing.room_eq (r : StatRing) :
    r.room = 2 ^ r.log2 - 1 - (r.tail + 2 ^ r.log2 - r.head) % 2 ^ r.log2 - r.reserved := rfl

/-- Settles O60: an entry is discarded, written at the tail, or waits. -/
theorem statusEntry : Obligations.StatusEntry := by
  unfold Obligations.StatusEntry
  intro s c status res hheld
  refine ⟨State.finish_stale, State.finish_disabled hheld, fun hgen hen hd0 hnone hroom htail => ?written,
    fun hgen hen hd0 hfull => ?waits⟩
  case written =>
    have hput := State.finish_written (status := status) (res := res) hheld hgen hen hd0 hnone
      (by rw [StatRing.room_eq]; omega)
    obtain ⟨es, hout⟩ := s.putEntry_out { ctx := c, more := false, status := status, res := res }
    obtain ⟨n, hhif⟩ := s.putEntry_hif { ctx := c, more := false, status := status, res := res }
    rw [← hput] at hout hhif
    rw [StatRing.writes_final] at hout
    exact ⟨⟨es, hout⟩, by rw [hhif]; exact StatRing.next_tail htail, by rw [hhif]; rfl, by rw [hhif]; rfl,
      by rw [hhif]; exact hnone, by rw [hhif], by simp, by simp, by simp, by simp, by simp, by simp, by simp⟩
  case waits => exact State.finish_waits hheld hgen hen hd0 (by rw [StatRing.room_eq]; omega)

end Sys2Proof.Machine
end

section
/-! SUPPORT. Rings, link events and command fetches (02_host_commands.md R48-R57, R64-R66, R71; 03_dma.md R94). -/

namespace Sys2Proof.Machine

/-! ### Pending messages (R50) -/

/-- Clearing the bits of some vectors clears these and keeps the others. -/
theorem getLsbD_clearVectors (vs : List Nat) (b : BitVec 64) (v : Nat) :
    (vs.foldl (fun b w => b &&& ~~~(BitVec.ofNat 64 (2 ^ w))) b).getLsbD v = (b.getLsbD v && !vs.contains v) := by
  induction vs generalizing b with
  | nil => simp
  | cons w vs ih =>
    rw [List.foldl_cons, ih, BitVec.getLsbD_and, BitVec.getLsbD_not, BitVec.getLsbD_ofNat, Nat.testBit_two_pow]
    by_cases hv : v < 64
    · simp [hv, Bool.and_assoc, eq_comm]
    · simp [BitVec.getLsbD_of_ge b v (Nat.le_of_not_lt hv)]

/-- The vectors whose message is sent once the function is in D0. -/
def State.dueVectors (s : State) : List Nat :=
  (List.range 28).filter fun v => s.ctl.msixPending.getLsbD v && !s.ctl.msixMask.getLsbD v

theorem State.mem_dueVectors {s : State} {v : Nat} :
    v ∈ s.dueVectors ↔ v < 28 ∧ s.ctl.msixPending.getLsbD v = true ∧ s.ctl.msixMask.getLsbD v = false := by
  simp [State.dueVectors]

section
variable {s : State} (hd0 : s.ctl.d3hot = false)
include hd0

theorem State.sendPending_eq : s.sendPending = { s.emits (s.dueVectors.map Emission.msix) with
    ctl.msixPending := s.dueVectors.foldl (fun b v => b &&& ~~~(BitVec.ofNat 64 (2 ^ v))) s.ctl.msixPending } := by
  simp [State.sendPending, hd0, State.dueVectors]

/-- A vector that is due is sent, and pending no more. -/
theorem State.sendPending_due {v : Nat} (hv : v ∈ s.dueVectors) :
    Emission.msix v ∈ s.sendPending.out ∧ s.sendPending.ctl.msixPending.getLsbD v = false := by
  rw [State.sendPending_eq hd0]
  exact ⟨by simp [hv], (getLsbD_clearVectors _ _ _).trans (by simp [hv])⟩

/-- Any other vector stays as it is. -/
theorem State.sendPending_kept {v : Nat} (hv : v ∉ s.dueVectors) :
    s.sendPending.ctl.msixPending.getLsbD v = s.ctl.msixPending.getLsbD v := by
  rw [State.sendPending_eq hd0]
  exact (getLsbD_clearVectors _ _ _).trans (by simp [hv])

end

@[simp] theorem State.sendPending_hif (s : State) : s.sendPending.hif = s.hif := by
  unfold State.sendPending; split <;> rfl
@[simp] theorem State.sendPending_dies (s : State) : s.sendPending.dies = s.dies := by
  unfold State.sendPending; split <;> rfl
@[simp] theorem State.sendPending_d3hot (s : State) : s.sendPending.ctl.d3hot = s.ctl.d3hot := by
  unfold State.sendPending; split <;> rfl

/-- The message of a vector that is not masked is sent. -/
theorem State.message_sent {s : State} {v : Nat} (hd0 : s.ctl.d3hot = false) (hmask : s.ctl.msixMask.getLsbD v = false) :
    s.message v = s.emit (.msix v) := by
  unfold State.message
  rw [if_neg (by rw [hd0, hmask]; exact Bool.false_ne_true)]

/-! ### Link events (R48, R49, R94) -/

/-- With no stripe admitted there is none to remove. -/
theorem State.removeQueued_of_none {s : State} (h : s.seq.stripes = []) (status : Nat) : s.removeQueued status = s := by
  simp [State.removeQueued, h]

theorem Hif.without_entries {h : Hif} (hhold : h.holding = []) (hdef : h.deferred = []) :
    { h with holding := [], deferred := [] } = h := by
  cases h
  simp_all

theorem Hif.without_fenced {h : Hif} (hfenced : h.fenced = none) : { h with fenced := none } = h := by
  cases h
  simp_all

/-- The rings off and every entry still due discarded, with the function's registers back at reset (R49, R50). -/
def State.hostCut (s : State) : State :=
  ({ s with
    hif := { s.hif with
      ncmd := s.hif.ncmd.disable, ucmd := s.hif.ucmd.disable, stat := s.hif.stat.disable, holding := [], deferred := []
      fenced := none, owing := [], gen := s.hif.gen + 1, unsignalled := 0 } } : State).resetFunction

/-- The host's channels at reset, and the streams that went through them stopped (R94). -/
def State.hostChannelsReset (s : State) : State :=
  { s with
    dmaD := s.dmaD.zipIdx.map fun c => if c.1.firmware then c.1 else DmaD.reset (6 ≤ c.2)
    dmaT := List.replicate 8 DmaT.reset
    seq.stream := none, perf.stream := none, locus.captureCh := none, datum.captureCh := none, chord.receiveCh := none }

theorem State.linkReset_off {s : State} (h : s.domOn 0 7 = false) : s.linkReset = s := by
  simp [State.linkReset, h]

theorem State.linkReset_on {s : State} (h : s.domOn 0 7 = true) :
    s.linkReset = (s.hostCut.removeQueued wrongState).hostChannelsReset :=
  if_neg (by rw [h]; exact Bool.false_ne_true)

/-- D3HOT_EXIT with no entry due (R48): the pending messages are sent. -/
theorem execD3hotExit_idle {s : State} (hd3 : s.ctl.d3hot = true) (hdef : s.hif.deferred = []) (hhold : s.hif.holding = []) :
    execD3hotExit s = .next ({ s with ctl.d3hot := false } : State).sendPending := by
  have hhif := Hif.without_entries hhold hdef
  simp [execD3hotExit, hd3, hdef, hhold, State.drainHolding, State.drain, hhif]

/-- Settles O9: a link event resets the host interface, and D3hot's exit sends what was pending. -/
theorem linkEvents : Obligations.LinkEvents := by
  unfold Obligations.LinkEvents
  refine ⟨fun s hon hnone => ?reset, fun s => ⟨rfl, rfl⟩, fun s hoff => ?off, fun s hon => ?entry,
    fun s hd3 hdef hhold => ⟨_, execD3hotExit_idle hd3 hdef hhold, ?_⟩⟩
  case reset =>
    show Host.Outcome.next s.linkReset = _
    rw [State.linkReset_on hon, State.removeQueued_of_none (s := s.hostCut) hnone]
    rfl
  case off => exact congrArg Host.Outcome.next (State.linkReset_off hoff)
  case entry =>
    show execD3hotEntry s = _
    simp [execD3hotEntry, hon]
  refine ⟨by simp, by simp, by simp, fun v hv hpend hmask => State.sendPending_due rfl (State.mem_dueVectors.2 ⟨hv, hpend, hmask⟩),
    fun v hmask => State.sendPending_kept rfl fun hv => ?_⟩
  obtain ⟨-, -, hclear⟩ := State.mem_dueVectors.1 hv
  exact Bool.false_ne_true (hclear.symm.trans hmask)

/-! ### The rings' registers (R52, R56, R71) -/

section
variable {s : State} (hon : s.hifOn = true)
include hon

/-- A doorbell of the normal ring below the ring's size moves the host's index, another is an error (R52). -/
theorem execHifDbNcmdWrite_eq (v : Word) :
    execHifDbNcmdWrite v s =
      .next (if dbIndex v < s.hif.ncmd.size then { s with hif.ncmd.tail := dbIndex v } else s.hifErr 0) := by
  by_cases hv : dbIndex v < s.hif.ncmd.size <;> simp [execHifDbNcmdWrite, CmdRing.doorbell, hon, hv]

/-- Likewise of the urgent ring. -/
theorem execHifDbUcmdWrite_eq (v : Word) :
    execHifDbUcmdWrite v s =
      .next (if dbIndex v < s.hif.ucmd.size then { s with hif.ucmd.tail := dbIndex v } else s.hifErr 0) := by
  by_cases hv : dbIndex v < s.hif.ucmd.size <;> simp [execHifDbUcmdWrite, CmdRing.doorbell, hon, hv]

/-- Likewise of the status ring, where no entry waits for room. -/
theorem execHifDbStatWrite_eq (hnone : s.hif.holding = []) (v : Word) :
    execHifDbStatWrite v s =
      .next (if dbIndex v < 2 ^ s.hif.stat.log2 then { s with hif.stat.head := dbIndex v } else s.hifErr 0) := by
  by_cases hv : dbIndex v < 2 ^ s.hif.stat.log2
  · simp [execHifDbStatWrite, hon, hv, State.drainHolding, hnone, State.drain]
  · simp [execHifDbStatWrite, hon, hv]

end

/-- Settles O10: each register's meaning, with BAR0 answering. -/
theorem ringRegisters : Obligations.RingRegisters := by
  unfold Obligations.RingRegisters
  refine ⟨fun s v hon => ⟨execHifDbNcmdWrite_eq hon v, execHifDbUcmdWrite_eq hon v, fun hnone => execHifDbStatWrite_eq hon hnone v⟩,
    fun s hon => ⟨?normalOn, ?urgentOn, ?statusOn, ?normalOff, ?urgentOff, ?statusOff⟩, fun s hun hco hd0 hmask => ?coalesce⟩
  case normalOn =>
    show execNormalRingEnable s = _
    by_cases hen : s.hif.ncmd.enabled <;> simp [execNormalRingEnable, CmdRing.enable, hon, hen]
  case urgentOn =>
    show execUrgentRingEnable s = _
    by_cases hen : s.hif.ucmd.enabled <;> simp [execUrgentRingEnable, CmdRing.enable, hon, hen]
  case statusOn =>
    show execStatusRingEnable s = _
    by_cases hen : s.hif.stat.enabled <;> simp [execStatusRingEnable, StatRing.enable, hon, hen]
  case normalOff =>
    show execNormalRingDisable s = _
    simp [execNormalRingDisable, CmdRing.disable, hon]
  case urgentOff =>
    show execUrgentRingDisable s = _
    simp [execUrgentRingDisable, CmdRing.disable, hon]
  case statusOff =>
    refine ⟨s.disableStatus, congrArg Host.Outcome.next (if_pos hon), ?_, rfl, rfl, rfl, rfl, rfl, rfl, rfl, fun hen => ?_⟩
    · by_cases hen : s.hif.stat.enabled <;> simp [State.disableStatus, StatRing.disable, hen]
    · simp [State.disableStatus, StatRing.disable, hen]
  case coalesce =>
    show execIrqCoalesceTimeout s = _
    simp only [execIrqCoalesceTimeout, hun, hco, decide_true, Bool.and_true, if_true]
    exact congrArg Host.Outcome.next (State.message_sent (s := { s with hif.unsignalled := 0 }) hd0 hmask)

/-! ### Command fetches (R48, R53, R54, R57, R64-R66) -/

/-- A packet without the fence bit is not fenced (Table 2-3). -/
theorem Packet.fence_eq_false {p : Packet} (h : wordAt p.words 1 % 2 = 0) : p.fence = false := by
  have hbit : Sys2Proof.Packet.flags p % 2 = 0 := by
    unfold Sys2Proof.Packet.flags
    rw [Nat.mod_mod_of_dvd _ (by norm_num)]
    exact h
  simp [Sys2Proof.Packet.fence, hbit]

/-- Whether a command has its channel depends on the channels, the library loads and the staging. -/
theorem State.servable_congr {s t : State} (hd : t.dmaD = s.dmaD) (hl : t.libs = s.libs) (hf : t.flash = s.flash) (p : Packet) :
    t.servable p = s.servable p := by
  simp [State.servable, State.channelFree, hd, hl, hf]

section
variable {s : State}

theorem State.busyCheck_of_none (h : s.hif.busy = none) : s.busyCheck = s := by
  simp [State.busyCheck, h]

/-- A held command that neither its fence nor a channel holds any longer runs (R65, 03 R73). -/
theorem State.startFenced_runs {p : Packet} {env : List Word} {gen : Nat} (hfence : p.fence = false) (hbusy : s.hif.busy = none)
    (hserv : s.servable p = true) :
    s.startFenced p env gen = ({ s with hif.fenced := none } : State).run p env (some gen) := by
  simp [State.startFenced, hfence, hbusy, hserv]

/-- The device once it has read a slot of the normal ring: two entries are reserved, and the head is on the next slot (R54). -/
def State.slotTaken (s : State) : State :=
  { (s.hostRead 64).count 0 176 1 with hif.ncmd := s.hif.ncmd.advance, hif.stat.reserved := s.hif.stat.reserved + 2 }

@[simp] theorem State.slotTaken_fenced : s.slotTaken.hif.fenced = s.hif.fenced := by simp [State.slotTaken]
@[simp] theorem State.slotTaken_busy : s.slotTaken.hif.busy = s.hif.busy := by simp [State.slotTaken]
@[simp] theorem State.slotTaken_gen : s.slotTaken.hif.stat.gen = s.hif.stat.gen := by simp [State.slotTaken]

theorem State.slotTaken_servable (p : Packet) : s.slotTaken.servable p = s.servable p :=
  State.servable_congr (by simp [State.slotTaken]) (by simp [State.slotTaken]) (by simp [State.slotTaken]) p

theorem State.fetched_eq (ws env : List Word) :
    s.fetched ws env =
      ({ s.slotTaken with
        hif.fenced := some ({ urgent := false, slot := s.hif.ncmd.head, words := ws }, env, s.hif.stat.gen) } : State).startFenced
          { urgent := false, slot := s.hif.ncmd.head, words := ws } env s.hif.stat.gen := by
  simp [State.fetched, State.slotTaken]

/-- A command whose slot has been read runs at once, where neither its fence nor a channel holds it. -/
theorem State.fetched_runs {ws env : List Word} (hfenced : s.hif.fenced = none) (hbusy : s.hif.busy = none)
    (hfence : wordAt ws 1 % 2 = 0) (hserv : s.servable { urgent := false, slot := s.hif.ncmd.head, words := ws } = true) :
    s.fetched ws env =
      s.slotTaken.run { urgent := false, slot := s.hif.ncmd.head, words := ws } env (some s.hif.stat.gen) := by
  have hclear := Hif.without_fenced (h := s.slotTaken.hif) (by simpa using hfenced)
  refine (State.fetched_eq ws env).trans ((State.startFenced_runs (Packet.fence_eq_false hfence) ?_ ?_).trans ?_)
  · simpa using hbusy
  · exact (State.slotTaken_servable _).trans hserv
  · simp only [hclear]

section
variable (hfenced : s.hif.fenced = none) (hbusy : s.hif.busy = none)
include hfenced hbusy

theorem execNormalCommandFetch_idle (hmay : s.mayFetch = false) (slot : SlotRead) :
    execNormalCommandFetch slot s = .next s := by
  simp [execNormalCommandFetch, State.busyCheck_of_none hbusy, hfenced, hmay]

variable (hmay : s.mayFetch = true)
include hmay

theorem execNormalCommandFetch_words (ws env : List Word) :
    execNormalCommandFetch (.words ws env) s = .next (s.fetched ws env) := by
  simp [execNormalCommandFetch, State.busyCheck_of_none hbusy, hfenced, hmay]

theorem execNormalCommandFetch_error : execNormalCommandFetch .error s = .next (s.fetchError false) := by
  simp [execNormalCommandFetch, State.busyCheck_of_none hbusy, hfenced, hmay]

end

variable (hready : s.ctl.ready = true) (hd0 : s.ctl.d3hot = false) (hen : s.hif.ucmd.enabled = true)
  (hmore : s.hif.ucmd.head ≠ s.hif.ucmd.tail) (hhold : s.hif.holding.length < 64)
include hready hd0 hen hmore hhold

/-- An urgent command that has its channel runs at once, holding no reservation (R54, R66). -/
theorem execUrgentCommandFetch_runs {ws env : List Word}
    (hserv : s.servable { urgent := true, slot := s.hif.ucmd.head, words := ws } = true) :
    execUrgentCommandFetch (.words ws env) s =
      .next (({ (s.hostRead 64).count 0 177 1 with hif.ucmd := s.hif.ucmd.advance } : State).run
        { urgent := true, slot := s.hif.ucmd.head, words := ws } env none) := by
  simp [execUrgentCommandFetch, hready, hd0, hen, hmore, hhold, hserv]

theorem execUrgentCommandFetch_error : execUrgentCommandFetch .error s = .next (s.fetchError true) := by
  simp [execUrgentCommandFetch, hready, hd0, hen, hmore, hhold]

end

/-- Settles O11: with nothing held and nothing in progress a fetch takes the slot, fails, or does nothing. -/
theorem commandFetch : Obligations.CommandFetch := by
  unfold Obligations.CommandFetch
  refine ⟨fun s ws env hfenced hbusy hmay hfence hserv => ?runs, fun s hfenced hbusy hmay => ?error,
    fun s slot hfenced hbusy hmay => execNormalCommandFetch_idle hfenced hbusy hmay slot,
    fun s ws env hready hd0 hen hmore hhold hserv => ?urgent, fun s hready hd0 hen hmore hhold => ?urgentError⟩
  case runs =>
    exact (execNormalCommandFetch_words hfenced hbusy hmay ws env).trans
      (congrArg Host.Outcome.next (State.fetched_runs hfenced hbusy hfence hserv))
  case error => exact execNormalCommandFetch_error hfenced hbusy hmay
  case urgent => exact execUrgentCommandFetch_runs hready hd0 hen hmore hhold hserv
  case urgentError => exact execUrgentCommandFetch_error hready hd0 hen hmore hhold

end Sys2Proof.Machine
end

section
/-! SUPPORT. Table images: TABLE_LOAD and TABLE_READ (07_dose_correction.md R177, R178; 08_beam_mapping.md R213; 02 R62). -/

namespace Sys2Proof.Machine

/-! ### Lanes under reports -/

/-- What a report may change of a die leaves its lanes alone. -/
theorem State.die_lanes_of_sameBut {s t : State} (h : s.SameBut t) (j : Nat) : (t.die j).lanes = (s.die j).lanes := by
  have hrep (u : State) : (u.unreported.die j).lanes = (u.die j).lanes := by
    cases hd : u.dies[j]? <;> simp [State.unreported, State.die_eq_getElem?, hd]
  rw [← hrep t, ← hrep s, h]

theorem State.lane_of_sameBut {s t : State} (h : s.SameBut t) (n : Nat) : t.lane n = s.lane n := by
  unfold State.lane
  rw [State.die_lanes_of_sameBut h]

/-! ### Uncompensable columns (08 R213) -/

/-- Which columns are uncompensable depends on the tables, the admitted stripes and the lanes. -/
theorem State.uncompNow_congr {s t : State} (htables : t.tables = s.tables) (hseq : t.seq = s.seq)
    (hlanes : ∀ j, (t.die j).lanes = (s.die j).lanes) : t.uncompNow = s.uncompNow := by
  have hgroups : t.groupTable = s.groupTable := funext fun g => by simp [State.groupTable, State.laneOf, hlanes]
  simp only [State.uncompNow, htables, hseq, hgroups]

section
variable (s : State)

@[simp] theorem State.updateReplace_uncomp : s.updateReplace.perim.uncomp = s.perim.uncomp := by
  unfold State.updateReplace; dsimp only; split <;> simp
@[simp] theorem State.updateReplace_tables : s.updateReplace.tables = s.tables := by
  unfold State.updateReplace; dsimp only; split <;> simp
@[simp] theorem State.updateReplace_seq : s.updateReplace.seq = s.seq := by
  unfold State.updateReplace; dsimp only; split <;> simp
@[simp] theorem State.updateReplace_libs : s.updateReplace.libs = s.libs := by
  unfold State.updateReplace; dsimp only; split <;> simp
@[simp] theorem State.updateReplace_areas : s.updateReplace.areas = s.areas := by
  unfold State.updateReplace; dsimp only; split <;> simp

end

/-! ### TABLE_LOAD (R177, R178) -/

/-- A new generation counts one up, whatever the table. -/
theorem Tables.load_gens (t : Tables) (tid index : Nat) (ws : List Word) :
    (t.load tid index ws).gens = t.gens.modify (tid - 1) fun g => (g + 1) % 2 ^ 32 := by
  unfold Tables.load
  dsimp only
  split <;> rfl

@[simp] theorem State.hostRead_beams (s : State) (n : Nat) : (s.hostRead n).beams = s.beams := by
  simp [State.beams, State.nDies]

/-- The image that TABLE_LOAD reads for the table its packet names. -/
def State.loadImage (s : State) (p : Packet) (env : List Word) : List Word :=
  takeWords env (tableLength s.beams (p.param 0 % 256) (wordAt env 1) / 4)

/-- The device with the image read and made the newest generation of its table. -/
def State.tableLoaded (s : State) (p : Packet) (env : List Word) : State :=
  { s.hostRead (p.param 3) with tables := s.tables.load (p.param 0 % 256) (p.param 0 / 256 % 65536) (s.loadImage p env) }

section
variable {s : State} {p : Packet} {c : Ctx} {env : List Word}

theorem State.tableLoaded_tables :
    (s.tableLoaded p env).tables = s.tables.load (p.param 0 % 256) (p.param 0 / 256 % 65536) (s.loadImage p env) := rfl

variable (htarget : p.isDev = true ∨ p.param 0 % 256 = 6)
  (hnamed : tableNamed (p.param 0 % 256) (p.param 0 / 256 % 65536) = true)
include htarget hnamed

/-- The target and the table that TABLE_LOAD names pass its own check of them. -/
theorem tableLoad_named :
    ((!p.isDev && p.param 0 % 256 != 6) || !tableNamed (p.param 0 % 256) (p.param 0 / 256 % 65536)) = false := by
  rw [hnamed]
  obtain h | h := htarget <;> simp [h]

/-- A wrong image is answered with the offset of its first fault, and loads nothing. -/
theorem tableLoadBody_wrong {off : Nat}
    (hcheck : tableCheck s.beams (p.param 0 % 256) (p.param 3) (s.loadImage p env) = some off) :
    tableLoadBody env p c s = (s.hostRead (p.param 3)).finish c tableFormat [off] := by
  unfold State.loadImage at hcheck
  simp [tableLoadBody, tableLoad_named htarget hnamed, hcheck]

/-- A right image becomes the newest generation of its table. -/
theorem tableLoadBody_right
    (hcheck : tableCheck s.beams (p.param 0 % 256) (p.param 3) (s.loadImage p env) = none) :
    tableLoadBody env p c s =
      (if p.param 0 % 256 = 7 then (s.tableLoaded p env).updateUncomp else s.tableLoaded p env).finish c ok
        [(crcWords 0xFFFFFFFF (s.loadImage p env)).toNat,
          (s.tables.gens.modify (p.param 0 % 256 - 1) fun g => (g + 1) % 2 ^ 32).getD (p.param 0 % 256 - 1) 0] := by
  have hraw := hcheck
  unfold State.loadImage at hraw
  simp only [tableLoadBody, tableLoad_named htarget hnamed, State.hostRead_beams, hraw, Bool.false_eq_true, if_false,
    State.hostRead_tables, Tables.load_gens]
  rfl

end

/-- Settles O22: what the image's check finds decides what TABLE_LOAD does; TABLE_READ writes the newest generation. -/
theorem tableRows : Obligations.TableRows := by
  unfold Obligations.TableRows
  refine ⟨fun s p env htakes htarget hnamed => ⟨fun off hcheck => ?wrong, fun hcheck htid => ?right, fun hcheck htid => ?beams⟩,
    fun s p htakes hnamed => ?read⟩
  case read =>
    exact (State.direct_takes htakes tableReadBody).trans (by simp [tableReadBody, hnamed])
  all_goals
    have himage : s.loadImage (Packet.ofRow 0x0103 p) env =
        takeWords env (tableLength s.beams (p.param 0 % 256) (wordAt env 1) / 4) := by simp [State.loadImage]
    rw [← himage] at hcheck
    rw [← Packet.ofRow_isDev 0x0103, ← Packet.ofRow_param 0x0103] at htarget
    rw [← Packet.ofRow_param 0x0103 p 0] at hnamed hcheck
    rw [← Packet.ofRow_param 0x0103 p 3] at hcheck
  case wrong =>
    refine (State.direct_takes htakes (tableLoadBody env)).trans ?_
    rw [tableLoadBody_wrong htarget hnamed hcheck, Packet.ofRow_param]
    rfl
  case right =>
    refine (State.direct_takes htakes (tableLoadBody env)).trans ?_
    rw [tableLoadBody_right htarget hnamed hcheck, if_neg (by simpa using htid)]
    simp [State.tableLoaded, himage]
  case beams =>
    refine ⟨_, (State.direct_takes htakes (tableLoadBody env)).trans
      (by rw [tableLoadBody_right htarget hnamed hcheck, if_pos (by simpa using htid)]), ?_⟩
    have hload : (s.tableLoaded (Packet.ofRow 0x0103 p) env).tables =
        s.tables.load 7 0 (takeWords env (tableLength s.beams (p.param 0 % 256) (wordAt env 1) / 4)) := by
      rw [State.tableLoaded_tables, himage, Packet.ofRow_param, htid]
      rfl
    refine ⟨by simpa [State.updateUncomp] using hload, ?_, by simp [State.updateUncomp, State.tableLoaded],
      by simp [State.updateUncomp, State.tableLoaded], by simp [State.updateUncomp, State.tableLoaded]⟩
    rw [State.finish_perim]
    refine (State.updateReplace_uncomp _).trans (State.uncompNow_congr hload (by simp [State.tableLoaded]) fun j => ?_)
    exact State.die_lanes_of_sameBut (s := s) (t := s.hostRead _) (State.hostRead_unreported _ _) j

end Sys2Proof.Machine
end

section
/-! SUPPORT. One lane of the device after an update, what an entry depends on, and what a lane command's row has checked
(10_rolgo_lanes.md R248; 02_host_commands.md R54, R59). -/

namespace Sys2Proof.Machine

/-! ### One lane after an update -/

/-- Lane n is one of the device's. -/
def State.hasLane (s : State) (n : Nat) : Prop := n / 12 < s.dies.length ∧ n % 12 < (s.die (n / 12)).lanes.length

/-- The invariant gives every die its 12 lanes. -/
theorem State.Inv.hasLane {s : State} (hs : s.Inv) {n : Nat} (hn : n < s.nLanes) : s.hasLane n := by
  obtain ⟨-, -, hlen, hdies⟩ := hs
  have hdie : n / 12 < s.dies.length := by
    have hcount : s.dies.length = s.nDies := by simpa [State.nDies, State.shape, Fuses.lasting] using hlen
    rw [hcount]
    exact Nat.div_lt_of_lt_mul hn
  refine ⟨hdie, ?_⟩
  obtain ⟨-, hlanes, -⟩ := hdies (n / 12) s.dies[n / 12].shape (by simp [State.shape, hdie])
  have hlength := congrArg List.length hlanes
  rw [State.die_eq_getElem?, List.getElem?_eq_getElem hdie]
  simp only [Die.shape, List.length_map, List.length_range] at hlength
  simp only [Option.getD_some, hlength]
  exact Nat.mod_lt _ (by norm_num)

section
variable {s : State} {n m : Nat}

theorem State.lane_congr {t : State} (h : t.dies = s.dies) (n : Nat) : t.lane n = s.lane n := by
  unfold State.lane
  rw [State.die_congr h]

theorem State.hasLane_congr {t : State} (hlen : t.dies.length = s.dies.length)
    (h : ∀ j, (t.die j).lanes = (s.die j).lanes) : t.hasLane n ↔ s.hasLane n := by
  simp [State.hasLane, hlen, h]

theorem State.lane_modLane (h : s.hasLane n) (f : Lane → Lane) : (s.modLane n f).lane n = f (s.lane n) := by
  obtain ⟨hdie, hlane⟩ := h
  unfold State.modLane State.lane
  rw [State.die_modDie _ _ _ hdie]
  simp [List.getD_eq_getElem?_getD, hlane]

theorem State.lane_modLane_of_ne (hm : m ≠ n) (f : Lane → Lane) : (s.modLane n f).lane m = s.lane m := by
  unfold State.modLane State.lane
  by_cases hdie : m / 12 = n / 12
  · have hlane : n % 12 ≠ m % 12 := by omega
    rw [hdie]
    cases hd : s.dies[n / 12]? <;> simp [State.die_eq_getElem?, List.getD_eq_getElem?_getD, hd, hlane]
  · rw [State.die_modDie_of_ne _ _ _ _ hdie]

theorem State.modLane_modLane (s : State) (n : Nat) (f g : Lane → Lane) :
    (s.modLane n f).modLane n g = s.modLane n (g ∘ f) := by
  simp [State.modLane, State.modDie, List.modify_modify_eq, Function.comp_def]

/-- An update of a die that leaves its lanes alone. -/
theorem State.lane_modDie (i : Nat) {f : Die → Die} (h : ∀ d, (f d).lanes = d.lanes) (m : Nat) :
    (s.modDie i f).lane m = s.lane m := by
  unfold State.lane
  by_cases hi : m / 12 = i
  · cases hd : s.dies[m / 12]? <;> simp [State.die_eq_getElem?, hi ▸ hd, h, hi]
  · rw [State.die_modDie_of_ne _ _ _ _ hi]

/-- Updates of one lane in turn are one update of it. -/
theorem State.foldl_modLane {α : Type} (ks : List α) (g : α → Lane → Lane) (s : State) (n : Nat) :
    ks.foldl (fun s k => s.modLane n (g k)) s = s.modLane n fun l => ks.foldl (fun l k => g k l) l := by
  induction ks generalizing s with
  | nil =>
    show s = { s with dies := s.dies.modify (n / 12) fun d => { d with lanes := d.lanes.modify (n % 12) id } }
    simp only [List.modify_id]
    show s = { s with dies := s.dies.modify (n / 12) id }
    rw [List.modify_id]
  | cons k ks ih => rw [List.foldl_cons, ih, State.modLane_modLane]; rfl

end

/-! ### What an entry depends on: the host interface, the interrupt registers, and the emissions before it -/

/-- What reports read and write of the state, but for performance counters. -/
def State.reportView (s : State) : Hif × Ctl × List Emission := (s.hif, s.ctl, s.out)

section
variable {s t : State}

theorem State.reportView_eq_iff : t.reportView = s.reportView ↔ t.hif = s.hif ∧ t.ctl = s.ctl ∧ t.out = s.out := by
  simp [State.reportView]

@[simp] theorem State.count_reportView (s : State) (d i n : Nat) : (s.count d i n).reportView = s.reportView := by
  simp [State.reportView]

theorem State.message_reportView (h : t.reportView = s.reportView) (v : Nat) :
    (t.message v).reportView = (s.message v).reportView := by
  obtain ⟨hhif, hctl, hout⟩ := State.reportView_eq_iff.1 h
  unfold State.message
  rw [hctl]
  split <;> simp [State.reportView, State.emit, hhif, hctl, hout]

theorem State.irqSeen_reportView (h : t.reportView = s.reportView) (v : Nat) :
    (t.irqSeen v).reportView = (s.irqSeen v).reportView := by
  obtain ⟨hhif, hctl, hout⟩ := State.reportView_eq_iff.1 h
  simp [State.reportView, State.irqSeen, hhif, hctl, hout]

theorem State.entryIrq_reportView (h : t.reportView = s.reportView) (e : Entry) :
    (t.entryIrq e).reportView = (s.entryIrq e).reportView := by
  obtain ⟨hhif, hctl, hout⟩ := State.reportView_eq_iff.1 h
  have hseen : (t.irqSeen 0).hif = (s.irqSeen 0).hif := hhif
  have hcoal (x : Hif) : State.reportView { t.irqSeen 0 with hif := x } = State.reportView { s.irqSeen 0 with hif := x } := by
    simp [State.reportView, State.irqSeen, hctl, hout]
  unfold State.entryIrq
  dsimp only
  rw [hseen]
  split
  · split
    · exact State.irqSeen_reportView h 1
    · exact State.message_reportView (State.irqSeen_reportView h 1) 1
  · split
    · exact State.irqSeen_reportView h 0
    · split
      · exact State.message_reportView (hcoal _) 0
      · exact hcoal _

theorem State.putEntry_reportView (h : t.reportView = s.reportView) (e : Entry) :
    (t.putEntry e).reportView = (s.putEntry e).reportView := by
  obtain ⟨hhif, hctl, hout⟩ := State.reportView_eq_iff.1 h
  unfold State.putEntry
  dsimp only
  refine State.entryIrq_reportView ?_ e
  rw [State.count_reportView, State.count_reportView, State.count_reportView, State.count_reportView]
  simp [State.reportView, hhif, hctl, hout]

theorem State.drain_reportView (h : t.reportView = s.reportView) (es : List Entry) :
    (t.drain es).reportView = (s.drain es).reportView := by
  induction es generalizing s t with
  | nil =>
    obtain ⟨hhif, hctl, hout⟩ := State.reportView_eq_iff.1 h
    simp [State.drain, State.reportView, hhif, hctl, hout]
  | cons e es ih =>
    obtain ⟨hhif, hctl, hout⟩ := State.reportView_eq_iff.1 h
    rw [State.drain, State.drain, hhif, hctl]
    split
    · exact ih (State.putEntry_reportView h e)
    · simp [State.reportView, hout]

/-- An entry of a command that holds no reservation is discarded, kept for D0, written or made to wait (R48, R49, R54, R56). -/
theorem State.writeEntry_unheld (s : State) {e : Entry} (hheld : e.ctx.held = none) (release : Nat) :
    s.writeEntry e release =
      if e.ctx.gen ≠ s.hif.gen then s
      else if s.hif.stat.enabled = false then s
      else if s.ctl.d3hot then { s with hif.deferred := s.hif.deferred ++ [e] }
      else if s.hif.holding = [] ∧ 0 < s.hif.stat.room then s.putEntry e
      else { s with hif.holding := s.hif.holding ++ [e] } := by
  simp [State.writeEntry, Ctx.holds, hheld]

theorem State.writeEntry_reportView (h : t.reportView = s.reportView) {e : Entry} (hheld : e.ctx.held = none) (release : Nat) :
    (t.writeEntry e release).reportView = (s.writeEntry e release).reportView := by
  obtain ⟨hhif, hctl, hout⟩ := State.reportView_eq_iff.1 h
  rw [State.writeEntry_unheld t hheld, State.writeEntry_unheld s hheld, hhif, hctl]
  split
  · exact h
  · split
    · exact h
    · split
      · simp [State.reportView, hout]
      · split
        · exact State.putEntry_reportView h e
        · simp [State.reportView, hout]

theorem State.finish_reportView (h : t.reportView = s.reportView) {c : Ctx} (hheld : c.held = none) (status : Nat)
    (res : List Nat) : (t.finish c status res).reportView = (s.finish c status res).reportView :=
  State.writeEntry_reportView h hheld 2

end

/-! ### What a lane command's row has checked (R59) -/

/-- A row's packet has the row's opcode. -/
theorem Packet.ofRow_opcode {op : Nat} (hop : op < 2 ^ 16) (p : Packet) : (Packet.ofRow op p).opcode = op := by
  have hword : Sys2Proof.Packet.word (Packet.ofRow op p) 0 = (p.tag * 2 ^ 16 + op) % 2 ^ 32 := by
    simp [Sys2Proof.Packet.word, Packet.ofRow]
  unfold Sys2Proof.Packet.opcode
  rw [hword]
  omega

section
variable {s : State} {p : Packet} {r : OpRow}

/-- A packet that names one lane, of a row for the normal ring, passed every check: the lane is there and not retired. -/
theorem State.preCheck_none_lane (hr : opRow p.opcode = some r) (hu : r.urgent = false) (ht : r.target = .laneOrDev)
    (h : s.preCheck p = none) :
    p.urgent = false ∧ (p.isDev = false → p.target < s.nLanes ∧ (s.lane p.target).retired = false) := by
  have hpu : p.urgent = false := by
    by_contra hp
    exact absurd (State.preCheck_notUrgent hr (by simpa using hp) hu) (by rw [h]; nofun)
  have hring : ¬(p.urgent = true ∧ r.urgent = false) := by simp [hpu]
  have hk : s.packetOk p r = true := by
    by_contra hk
    exact absurd (State.preCheck_badPacket hr hring (by simpa using hk)) (by rw [h]; nofun)
  have hs : ¬(r.states / s.ctl.dev.mask % 2 = 0 ∨ s.ctl.dev.mask = 0) := fun hs =>
    absurd (State.preCheck_badState hr hring hk hs) (by rw [h]; nofun)
  refine ⟨hpu, fun hdev => ⟨?_, ?_⟩⟩
  · have htarget : s.targetOk r.target p.target = true := by
      simp only [State.packetOk, Bool.and_eq_true] at hk
      exact hk.2
    have hne : ¬p.target = 0xFFFF := by simpa [Sys2Proof.Packet.isDev] using hdev
    simpa [State.targetOk, ht, hne] using htarget
  · by_contra hret
    exact absurd (State.preCheck_retiredLane hr hring hk (fun hm => hs (.inr hm)) (by omega) (.inr ht) hdev (by simpa using hret))
      (by rw [h]; nofun)

end

/-- A lane command that runs: none is in progress, and the lane that it names is there and not retired. -/
theorem State.takes_lane {s : State} {op : Nat} {p : Packet} {r : OpRow} (hop : op < 2 ^ 16) (hr : opRow op = some r)
    (hu : r.urgent = false) (ht : r.target = .laneOrDev) (h : s.Takes op p) :
    s.hif.busy = none ∧ (p.isDev = false → p.target < s.nLanes ∧ (s.lane p.target).retired = false) := by
  obtain ⟨haccepts, hcheck⟩ := h
  obtain ⟨hurgent, hlane⟩ := State.preCheck_none_lane (by rwa [Packet.ofRow_opcode hop]) hu ht hcheck
  simp only [State.accepts, hurgent, Bool.false_or, Bool.and_eq_true, Option.isNone_iff_eq_none] at haccepts
  obtain ⟨⟨-, ⟨hbusy, -⟩, -⟩, -⟩ := haccepts
  exact ⟨hbusy, by simpa using hlane⟩

end Sys2Proof.Machine
end

section
/-! SUPPORT. Lane commands and the lane window (10_rolgo_lanes.md R257, R267, R270, R273; 08_beam_mapping.md R208; 02 R69, R70). -/

namespace Sys2Proof.Machine

/-! ### A command that waits for lanes (R64) -/

/-- The device with a one-entry command in progress. -/
def State.waitFor (s : State) (b : Busy) : State := { s with hif.busy := some b }

section
variable (s : State) (b : Busy)

@[simp] theorem State.waitFor_hif : (s.waitFor b).hif = { s.hif with busy := some b } := rfl
@[simp] theorem State.waitFor_out : (s.waitFor b).out = s.out := rfl
@[simp] theorem State.waitFor_lane (n : Nat) : (s.waitFor b).lane n = s.lane n := State.lane_congr rfl n

theorem State.busyCheck_laneTrain_waits {c : Ctx} {n target : Nat} (h : (s.lane n).state = .training) :
    (s.waitFor (.laneTrain c [n] target)).busyCheck = s.waitFor (.laneTrain c [n] target) := by
  have hany : [n].any (fun m => ((s.waitFor (.laneTrain c [n] target)).lane m).state == .training) = true := by simp [h]
  exact if_pos hany

theorem State.busyCheck_lanePower_waits {c : Ctx} {n power : Nat} (h : s.powerPends power n = true) :
    (s.waitFor (.lanePower c [n] power)).busyCheck = s.waitFor (.lanePower c [n] power) := by
  have hany : [n].any ((s.waitFor (.lanePower c [n] power)).powerPends power) = true := by
    simpa [State.powerPends] using h
  exact if_pos hany

/-- Where no lane has anything left to do, the entry follows at once. -/
theorem State.busyCheck_lanePower_ends {c : Ctx} {n power : Nat} (hnone : s.hif.busy = none) (h : s.powerPends power n = false) :
    (s.waitFor (.lanePower c [n] power)).busyCheck = s.finish c ok [] := by
  have hany : ¬[n].any ((s.waitFor (.lanePower c [n] power)).powerPends power) = true := by
    simpa [State.powerPends] using h
  have hclear : { s.hif with busy := none } = s.hif := by rw [← hnone]
  refine (if_neg hany).trans ?_
  show State.finish { s with hif := { s.hif with busy := none } } c ok [] = _
  rw [hclear]

theorem State.busyCheck_pulseTable_waits {c : Ctx} {n : Nat} {image : List Byte} (h : (s.lane n).retired = false) :
    (s.waitFor (.pulseTable c [n] image false [])).busyCheck = s.waitFor (.pulseTable c [n] image false []) := by
  have hlive : (s.waitFor (.pulseTable c [n] image false [])).liveOf [n] = [n] := by simp [State.liveOf, h]
  have hdone : (!((s.waitFor (.pulseTable c [n] image false [])).liveOf [n]).all ([] : List Nat).contains) = true := by
    simp [hlive]
  exact if_pos hdone

end

section
variable {s : State} {p : Packet} {c : Ctx} {n : Nat}

theorem State.laneTargets_one (hdev : p.isDev = false) : s.laneTargets p = [p.target] := by
  simp [State.laneTargets, hdev]

theorem State.hasLane_hostRead (k : Nat) : (s.hostRead k).hasLane n ↔ s.hasLane n :=
  State.hasLane_congr (State.count_length _ _ _ _) (State.die_lanes_of_sameBut (State.hostRead_unreported s k))

/-! ### LANE_TRAIN (R267) -/

theorem laneTrainBody_badParam (h : 3 < p.param 0 % 16) : laneTrainBody p c s = s.finish c badParam [] := by
  simp [laneTrainBody, h]

/-- The lane named begins its bring-up, and the entry waits for it. -/
theorem laneTrainBody_begins (h : p.param 0 % 16 ≤ 3) (hdev : p.isDev = false) (hlane : s.hasLane p.target) :
    laneTrainBody p c s =
      (s.modLane p.target fun l => l.beginTrain (p.param 0 % 16)).waitFor (.laneTrain c [p.target] (p.param 0 % 16)) := by
  simp only [laneTrainBody, Nat.not_lt.2 h, if_false, State.laneTargets_one hdev]
  exact State.busyCheck_laneTrain_waits (s.modLane p.target fun l => l.beginTrain (p.param 0 % 16))
    (by rw [State.lane_modLane hlane]; rfl)

/-! ### LANE_POWER (R270) -/

/-- LANE_POWER ends the hold of a hardware stop (R270, 16 R417). -/
def Lane.released (l : Lane) : Lane := { l with thermalL1 := false }

section
variable {want : Nat} (hlane : s.hasLane n)
include hlane

/-- A lane that has the power asked for only loses the mark of the hardware stop. -/
theorem State.lanePowerTo_same (h : (s.lane n).power.code = want) :
    s.lanePowerTo want n = s.modLane n Lane.released := by
  simp only [State.lanePowerTo, State.lane_modLane hlane, h, if_true]
  rfl

/-- A head in L0 is sent POWER. -/
theorem State.lanePowerTo_of_l0 (hl0 : (s.lane n).power = .l0) (hwant : want ≠ 0) :
    s.lanePowerTo want n =
      s.modLane n fun l => l.released.addElem 0x06 (BitVec.ofNat 32 want) [] true := by
  simp [State.lanePowerTo, State.lane_modLane hlane, hl0, LanePower.code, hwant.symm, State.modLane_modLane, Function.comp_def,
    Lane.released]

/-- A lane in L1 leaves it by training frames. -/
theorem State.lanePowerTo_of_l1 (hl1 : (s.lane n).power = .l1) (hwant : want ≠ 1) :
    s.lanePowerTo want n = s.modLane n fun l => l.released.leaveL1 := by
  simp [State.lanePowerTo, State.lane_modLane hlane, hl1, LanePower.code, hwant.symm, State.modLane_modLane, Function.comp_def,
    Lane.released]

end

theorem lanePowerBody_badParam (h : p.param 0 % 4 = 3) : lanePowerBody p c s = s.finish c badParam [] := by
  simp [lanePowerBody, h]

section
variable (hwant : p.param 0 % 4 ≠ 3) (hdev : p.isDev = false)
include hwant hdev

theorem lanePowerBody_notReady (h : (s.lane p.target).state = .down ∨ (s.lane p.target).state = .training) :
    lanePowerBody p c s = s.finish c laneNotReady [] := by
  obtain h | h := h <;> simp [lanePowerBody, hwant, hdev, State.laneTargets_one hdev, h]

/-- A lane that is up does its part, and the entry waits for it. -/
theorem lanePowerBody_up (h : (s.lane p.target).state = .up) :
    lanePowerBody p c s =
      ((s.lanePowerTo (p.param 0 % 4) p.target).waitFor (.lanePower c [p.target] (p.param 0 % 4))).busyCheck := by
  simp [lanePowerBody, hwant, State.laneTargets_one hdev, h, State.waitFor]

end

/-- A lane that is not retired is waited for while it trains, and while it is up with another power. -/
theorem State.powerPends_of {want : Nat} (hretired : (s.lane n).retired = false)
    (h : (s.lane n).state = .training ∨ ((s.lane n).state = .up ∧ (s.lane n).power.code ≠ want)) :
    s.powerPends want n = true := by
  obtain h | ⟨hup, hcode⟩ := h
  · simp [State.powerPends, hretired, h]
  · simp [State.powerPends, hretired, hup, hcode]

theorem execLanePower_up (htakes : s.Takes 0x0601 p) (hwant : p.param 0 % 4 ≠ 3) (hdev : p.isDev = false)
    (hup : (s.lane p.target).state = .up) :
    execLanePower p s = .next ((s.lanePowerTo (p.param 0 % 4) p.target).waitFor
      (.lanePower (s.cmd 0x0601 p) [p.target] (p.param 0 % 4))).busyCheck := by
  refine (State.direct_takes htakes lanePowerBody).trans ?_
  rw [lanePowerBody_up (by simpa using hwant) (by simpa using hdev) (by simpa using hup), Packet.ofRow_param, Packet.ofRow_target]

section
variable (htakes : s.Takes 0x0601 p) (hwant : p.param 0 % 4 ≠ 3) (hdev : p.isDev = false) (hlane : s.hasLane p.target)
  (hup : (s.lane p.target).state = .up)
include htakes hwant hdev hlane hup

/-- A lane in the state asked for: the entry follows at once. -/
theorem execLanePower_same (hnone : s.hif.busy = none) (hcode : (s.lane p.target).power.code = p.param 0 % 4) :
    execLanePower p s = .next ((s.modLane p.target Lane.released).finish (s.cmd 0x0601 p) ok []) := by
  have hpends : (s.modLane p.target Lane.released).powerPends (p.param 0 % 4) p.target = false := by
    simp [State.powerPends, State.lane_modLane hlane, Lane.released, hup, hcode]
  rw [execLanePower_up htakes hwant hdev hup, State.lanePowerTo_same hlane hcode,
    State.busyCheck_lanePower_ends (s.modLane p.target Lane.released) hnone hpends]

variable (hretired : (s.lane p.target).retired = false)
include hretired

/-- A lane in L0: POWER goes out to its head, whose answer the entry waits for. -/
theorem execLanePower_sends (hl0 : (s.lane p.target).power = .l0) (hwant0 : p.param 0 % 4 ≠ 0) :
    execLanePower p s = .next ((s.modLane p.target fun l =>
      l.released.addElem 0x06 (BitVec.ofNat 32 (p.param 0 % 4)) [] true).waitFor
        (.lanePower (s.cmd 0x0601 p) [p.target] (p.param 0 % 4))) := by
  rw [execLanePower_up htakes hwant hdev hup, State.lanePowerTo_of_l0 hlane hl0 hwant0,
    State.busyCheck_lanePower_waits _ (State.powerPends_of ?_ (.inr ?_))]
  · rw [State.lane_modLane hlane]
    simpa [Lane.released, Lane.addElem] using hretired
  · rw [State.lane_modLane hlane]
    simpa [Lane.released, Lane.addElem, hup, hl0, LanePower.code] using hwant0.symm

/-- A lane in L1: it trains on its way out, and the entry waits for it. -/
theorem execLanePower_leaves (hl1 : (s.lane p.target).power = .l1) (hwant1 : p.param 0 % 4 ≠ 1) :
    execLanePower p s = .next ((s.modLane p.target fun l => l.released.leaveL1).waitFor
      (.lanePower (s.cmd 0x0601 p) [p.target] (p.param 0 % 4))) := by
  rw [execLanePower_up htakes hwant hdev hup, State.lanePowerTo_of_l1 hlane hl1 hwant1,
    State.busyCheck_lanePower_waits _ (State.powerPends_of ?_ (.inl ?_))]
  · rw [State.lane_modLane hlane]
    simpa [Lane.released, Lane.leaveL1] using hretired
  · rw [State.lane_modLane hlane]
    rfl

end

/-! ### PULSE_TABLE_LOAD (08 R208) -/

/-- Elements queued one after another take consecutive sequences. -/
theorem Lane.addElem_range (type : Nat) (arg : Nat → Word) (data : Nat → List Byte) (l : Lane) (hseq : l.elemSeq < 65536)
    (k : Nat) :
    (List.range k).foldl (fun l k => l.addElem type (arg k) (data k) true) l =
      { l with
        elems := l.elems ++ (List.range k).map fun j =>
          { type := type, ackReq := true, seq := (l.elemSeq + j) % 65536, arg := arg j, data := data j, tries := 0, due := true }
        elemSeq := (l.elemSeq + k) % 65536 } := by
  induction k with
  | zero => simp [Nat.mod_eq_of_lt hseq]
  | succ k ih =>
    rw [List.range_succ, List.foldl_append, ih, List.map_append]
    simp [Lane.addElem, Elem.of, Nat.add_assoc]

theorem Lane.retired_of_inL0 {l : Lane} (h : l.inL0 = true) : l.retired = false := by
  simp only [Lane.inL0, Bool.and_eq_true, Bool.not_eq_true'] at h
  exact h.1.1

/-- The image of PULSE_TABLE_LOAD, from its outside data. -/
def pulseImage (env : List Word) : List Byte := (wordsBytes env ++ List.replicate 1024 0).take 1024

/-- An image's elements as one lane gets them: 32 bytes each. -/
def Lane.sentTable (image : List Byte) (l : Lane) : Lane :=
  (List.range 32).foldl (fun l k => l.addElem 0x08 (BitVec.ofNat 32 (32 * k)) ((image.drop (32 * k)).take 32) true) l

theorem Lane.sentTable_eq (image : List Byte) {l : Lane} (hseq : l.elemSeq < 65536) :
    l.sentTable image = { l with
      elems := l.elems ++ (List.range 32).map fun k =>
        { type := 8, ackReq := true, seq := (l.elemSeq + k) % 65536, arg := BitVec.ofNat 32 (32 * k)
          data := (image.drop (32 * k)).take 32, tries := 0, due := true }
      elemSeq := (l.elemSeq + 32) % 65536 } :=
  Lane.addElem_range 0x08 (fun k => BitVec.ofNat 32 (32 * k)) (fun k => (image.drop (32 * k)).take 32) l hseq 32

/-- The elements of an image sent to one lane. -/
theorem State.sendTable_one (s : State) (n : Nat) (image : List Byte) :
    (List.range 32).foldl (fun s k =>
      s.sendElems [n] 0x08 (BitVec.ofNat 32 (32 * k)) ((image.drop (32 * k)).take 32)) s = s.modLane n (Lane.sentTable image) :=
  State.foldl_modLane (List.range 32)
    (fun k l => l.addElem 0x08 (BitVec.ofNat 32 (32 * k)) ((image.drop (32 * k)).take 32) true) s n

theorem pulseTableLoadBody_wrongLength {env : List Word} (h : p.param 2 ≠ 1024) :
    pulseTableLoadBody env p c s = s.finish c tableFormat [0xFFFFFFFF] := by
  simp [pulseTableLoadBody, pulseLayoutFail, h]

/-- A right image goes out to the lane named, and the entry waits for its head. -/
theorem pulseTableLoadBody_sends {env : List Word} (hlen : p.param 2 = 1024) (hdev : p.isDev = false)
    (hlane : s.hasLane p.target) (hlayout : pulseLayoutFail 1024 (pulseImage env) = none)
    (hfirst : (imageCodes (pulseImage env)).headD 0 ≠ 0) (hrise : codesRise (imageCodes (pulseImage env)) = true)
    (hL0 : (s.lane p.target).inL0 = true) (hseq : (s.lane p.target).elemSeq < 65536) :
    pulseTableLoadBody env p c s =
      ((s.hostRead 1024).modLane p.target (Lane.sentTable (pulseImage env))).waitFor
        (.pulseTable c [p.target] (pulseImage env) false []) := by
  have hread : (s.hostRead 1024).lane p.target = s.lane p.target :=
    State.lane_of_sameBut (State.hostRead_unreported s 1024) p.target
  have hlane' := (State.hasLane_hostRead (n := p.target) 1024).2 hlane
  have hsent : (((s.hostRead 1024).modLane p.target (Lane.sentTable (pulseImage env))).lane p.target).retired = false := by
    rw [State.lane_modLane hlane', hread, Lane.sentTable_eq _ hseq]
    exact Lane.retired_of_inL0 hL0
  have hready : ([p.target].all fun n => ((s.hostRead 1024).lane n).inL0) = true := by simp [hread, hL0]
  have hfirst' : decide ((imageCodes (pulseImage env)).headD 0 = 0) = false := decide_eq_false hfirst
  simp only [pulseTableLoadBody, hlen, if_true]
  rw [show List.take 1024 (wordsBytes env ++ List.replicate 1024 0) = pulseImage env from rfl, hlayout]
  simp only [hfirst', hrise, State.laneTargets_one hdev, hready, Bool.not_true, Bool.or_false, Bool.false_eq_true, if_false]
  rw [State.sendTable_one]
  exact State.busyCheck_pulseTable_waits _ hsent

end

/-! ### The lane window (02 R69, R70) -/

section
variable {s : State} (hon : s.hifOn = true) (hsel : s.ctl.laneSel < s.nLanes)
include hon hsel

/-- A write to a retired lane's window is ignored and flagged. -/
theorem State.windowWrite_retired (h : (s.lane s.ctl.laneSel).retired = true) (f : Nat → State → State) :
    s.windowWrite f = { s with ctl.laneWrIgnored := true } := by
  simp [State.windowWrite, hon, hsel, h]

theorem State.windowWrite_live (h : (s.lane s.ctl.laneSel).retired = false) (f : Nat → State → State) :
    s.windowWrite f = f s.ctl.laneSel s := by
  simp [State.windowWrite, hon, hsel, h]

end

/-- What the beginning of a retrain makes of a lane (R273). -/
def Lane.retrained (now : Nat) (l : Lane) : Lane :=
  let l := { l with
    state := .retraining, retrains := min (l.retrains + 1) 0xFFFFFF
    retrainAt := (l.retrainAt.filter fun x => now < x + 4000000000) ++ [now]
    recs := l.recs.map Rec.lose, echoes := [], silent := false }
  { l with headWarn := l.warns }

/-- The device once lane n has begun a retrain, without its interrupt. -/
def State.retrainBegun (s : State) (n : Nat) : State :=
  ((s.modLane n (Lane.retrained s.now)).modDie (n / 12) fun d => d.dropLaneEq (n % 12)).count (n / 12) (69 + 8 * (n % 12)) 1

section
variable {s : State} {n : Nat}

/-- With fewer than three retrains in the last 10 s a lane in L0 begins one (R273, R274). -/
theorem State.retrain_begins (hL0 : (s.lane n).inL0 = true) (hrecent : s.recentRetrains (s.lane n) < 3) :
    s.retrain n = if (s.lane n).irqErr then (s.retrainBegun n).signal 25 else s.retrainBegun n := by
  simp only [State.retrain, hL0, Nat.not_le.2 hrecent, Bool.not_true, Bool.false_eq_true, if_false]
  rfl

theorem State.retrainBegun_lane (n m : Nat) : (s.retrainBegun n).lane m = (s.modLane n (Lane.retrained s.now)).lane m := by
  unfold State.retrainBegun
  rw [State.lane_of_sameBut (State.count_unreported _ _ _ _), State.lane_modDie _ (f := fun d => d.dropLaneEq (n % 12)) fun _ => rfl]

/-- The interrupt of a retrain is a report. -/
theorem State.retrain_sameBut (hL0 : (s.lane n).inL0 = true) (hrecent : s.recentRetrains (s.lane n) < 3) :
    (s.retrainBegun n).SameBut (s.retrain n) := by
  rw [State.retrain_begins hL0 hrecent]
  split
  · exact State.signal_unreported _ _
  · exact rfl

theorem State.retrain_lane (hL0 : (s.lane n).inL0 = true) (hrecent : s.recentRetrains (s.lane n) < 3) (m : Nat) :
    (s.retrain n).lane m = (s.modLane n (Lane.retrained s.now)).lane m :=
  (State.lane_of_sameBut (State.retrain_sameBut hL0 hrecent) m).trans (State.retrainBegun_lane n m)

theorem State.retrain_hif (hL0 : (s.lane n).inL0 = true) (hrecent : s.recentRetrains (s.lane n) < 3) :
    (s.retrain n).hif = s.hif := by
  rw [State.retrain_begins hL0 hrecent]
  split <;> simp [State.retrainBegun]

theorem State.retrain_perim (hL0 : (s.lane n).inL0 = true) (hrecent : s.recentRetrains (s.lane n) < 3) :
    (s.retrain n).perim = s.perim := by
  rw [State.retrain_begins hL0 hrecent]
  split <;> simp [State.retrainBegun]

end

/-- Settles O39: each row by its body above, and the window's writes by the lane that is selected. -/
theorem laneCommands : Obligations.LaneCommands := by
  unfold Obligations.LaneCommands
  refine ⟨fun s p htakes hinv => ⟨fun hbad => ?trainBad, fun hrate hdev => ?train⟩, fun s p htakes hinv => ?power,
    fun s p htakes => ?status, fun s p htakes => ?query,
    fun s p env htakes => ⟨fun hlen => ?pulseLength, fun hinv hlen hdev hlayout hfirst hrise hL0 hseq => ?pulse⟩,
    fun s v hon => ?select, fun s hon hsel hnone => ⟨fun hret => ?retired, fun hlive => ?inject, fun hinv hL0 hrecent => ?retrain⟩⟩
  case trainBad =>
    exact (State.direct_takes htakes laneTrainBody).trans (by rw [laneTrainBody_badParam (by simpa using hbad)])
  case train =>
    obtain ⟨hnone, hlane⟩ := State.takes_lane (by norm_num) (r := ⟨false, 1, .laneOrDev, 1⟩) rfl rfl rfl htakes
    have hhas := hinv.hasLane (hlane hdev).1
    refine ⟨_, (State.direct_takes htakes laneTrainBody).trans
      (by rw [laneTrainBody_begins (by simpa using hrate) (by simpa using hdev) (by simpa using hhas)]), ?_⟩
    simp only [Packet.ofRow_target, Packet.ofRow_param, State.waitFor_lane]
    exact ⟨State.lane_modLane hhas _, fun m hm => State.lane_modLane_of_ne hm _, rfl, rfl⟩
  case power =>
    obtain ⟨hnone, hlane⟩ := State.takes_lane (by norm_num) (r := ⟨false, 1, .laneOrDev, 1⟩) rfl rfl rfl htakes
    refine ⟨fun hbad => ?powerBad, fun hwant hdev hstate => ?notReady, fun hwant hdev hup hcode => ?same,
      fun hwant hdev hup hl0 => ?sends, fun hwant hwant1 hdev hup hl1 => ?leaves⟩
    case powerBad =>
      exact (State.direct_takes htakes lanePowerBody).trans (by rw [lanePowerBody_badParam (by simpa using hbad)])
    case notReady =>
      exact (State.direct_takes htakes lanePowerBody).trans
        (by rw [lanePowerBody_notReady (by simpa using hwant) (by simpa using hdev) (by simpa using hstate)])
    all_goals
      obtain ⟨hn, hretired⟩ := hlane hdev
      have hhas := hinv.hasLane hn
    case same =>
      refine ⟨_, execLanePower_same htakes hwant hdev hhas hup hnone hcode, ?_⟩
      have hlanes (m : Nat) :=
        State.lane_of_sameBut (State.finish_unreported (s.modLane p.target Lane.released) (s.cmd 0x0601 p) ok []) m
      obtain ⟨hhif, -, hout⟩ := State.reportView_eq_iff.1 (State.finish_reportView (s := s)
        (t := s.modLane p.target Lane.released) rfl (c := s.cmd 0x0601 p) rfl ok [])
      exact ⟨(hlanes _).trans (State.lane_modLane hhas _), fun m hm => (hlanes m).trans (State.lane_modLane_of_ne hm _),
        hhif, hout⟩
    case sends =>
      refine ⟨_, execLanePower_sends htakes (by omega) hdev hhas hup hretired hl0 (by omega), ?_⟩
      simp only [State.waitFor_lane, hwant]
      exact ⟨State.lane_modLane hhas _, fun m hm => State.lane_modLane_of_ne hm _, rfl, rfl⟩
    case leaves =>
      refine ⟨_, execLanePower_leaves htakes hwant hdev hhas hup hretired hl1 hwant1, ?_⟩
      simp only [State.waitFor_lane]
      exact ⟨State.lane_modLane hhas _, fun m hm => State.lane_modLane_of_ne hm _, rfl, rfl⟩
  case status => exact (State.direct_takes htakes laneStatusBody).trans (by simp [laneStatusBody])
  case query => exact (State.direct_takes htakes headQueryBody).trans (by simp [headQueryBody])
  case pulseLength =>
    exact (State.direct_takes htakes (pulseTableLoadBody env)).trans
      (by rw [pulseTableLoadBody_wrongLength (by simpa using hlen)])
  case pulse =>
    obtain ⟨hnone, hlane⟩ := State.takes_lane (by norm_num) (r := ⟨false, 1, .laneOrDev, 3⟩) rfl rfl rfl htakes
    have hhas := hinv.hasLane (hlane hdev).1
    refine ⟨_, (State.direct_takes htakes (pulseTableLoadBody env)).trans
      (by rw [pulseTableLoadBody_sends (by simpa using hlen) (by simpa using hdev) (by simpa using hhas) hlayout hfirst hrise
        (by simpa using hL0) (by simpa using hseq)]), ?_⟩
    have hread (m : Nat) := State.lane_of_sameBut (State.hostRead_unreported s 1024) m
    have hhas' := (State.hasLane_hostRead (n := p.target) 1024).2 hhas
    simp only [Packet.ofRow_target, State.waitFor_lane]
    refine ⟨by rw [State.lane_modLane hhas', hread, Lane.sentTable_eq _ hseq]; rfl,
      fun m hm => (State.lane_modLane_of_ne hm _).trans (hread m), ?_⟩
    rw [State.waitFor_hif, State.modLane_hif, State.hostRead_hif]
    rfl
  case select => exact congrArg Host.Outcome.next (if_pos hon)
  case retired =>
    refine ⟨congrArg Host.Outcome.next (State.windowWrite_retired hon hsel hret _), congrArg Host.Outcome.next ?_⟩
    rw [State.windowWrite_retired hon hsel hret]
    exact State.busyCheck_of_none (s := { s with ctl.laneWrIgnored := true }) hnone
  case inject => exact congrArg Host.Outcome.next (State.windowWrite_live hon hsel hlive _)
  case retrain =>
    have hlane := State.retrain_lane hL0 hrecent
    have hhif := State.retrain_hif hL0 hrecent
    refine ⟨_, congrArg Host.Outcome.next (by
      rw [State.windowWrite_live hon hsel (Lane.retired_of_inL0 hL0), State.busyCheck_of_none (by rw [hhif, hnone])]), ?_⟩
    simp only [hlane, State.lane_modLane (hinv.hasLane hsel)]
    exact ⟨rfl, rfl, rfl, fun m hm => State.lane_modLane_of_ne hm _, hhif, State.retrain_perim hL0 hrecent⟩

end Sys2Proof.Machine
end

section
/-! SUPPORT. Class D channels (03_dma.md R73, R76-R81, R84; 19 R462): a channel after an update, the end of a descriptor, and the
registers of the host. -/

namespace Sys2Proof.Machine

/-! ### One channel after an update -/

@[simp] theorem State.hostWrite_out (s : State) (addr : Nat) (ws : List Word) :
    (s.hostWrite addr ws).out = s.out ++ hostBursts addr ws := by simp [State.hostWrite]

/-- A signal sends its message, or nothing. -/
theorem State.signal_out (s : State) (v : Nat) : ∃ es, (s.signal v).out = s.out ++ es := by
  unfold State.signal
  split
  · exact State.message_out _ _
  · exact ⟨[], (List.append_nil _).symm⟩

/-- A signal that is sent on a condition. -/
def State.signalIf (s : State) (on : Bool) (v : Nat) : State := if on then s.signal v else s

section
variable (s : State) (on : Bool) (v : Nat)

theorem State.signalIf_out : ∃ es, (s.signalIf on v).out = s.out ++ es := by
  unfold State.signalIf
  split
  · exact State.signal_out _ _
  · exact ⟨[], (List.append_nil _).symm⟩
@[simp] theorem State.signalIf_seq : (s.signalIf on v).seq = s.seq := by unfold State.signalIf; split <;> simp
@[simp] theorem State.signalIf_dmaD : (s.signalIf on v).dmaD = s.dmaD := by unfold State.signalIf; split <;> simp
@[simp] theorem State.signalIf_dmaT : (s.signalIf on v).dmaT = s.dmaT := by unfold State.signalIf; split <;> simp

end

section
variable (s : State) (i : Nat) (f : DmaD → DmaD)

@[simp] theorem State.modDma_out : (s.modDma i f).out = s.out := rfl
@[simp] theorem State.modDma_seq : (s.modDma i f).seq = s.seq := rfl
@[simp] theorem State.modDma_areas : (s.modDma i f).areas = s.areas := rfl
@[simp] theorem State.modDma_dmaD : (s.modDma i f).dmaD = s.dmaD.modify i f := rfl

theorem State.modDma_modDma (g : DmaD → DmaD) : (s.modDma i f).modDma i g = s.modDma i (g ∘ f) := by
  simp [State.modDma, List.modify_modify_eq]

end

section
variable {s : State} {i : Nat} {c : DmaD} (hc : s.dmaD[i]? = some c)
include hc

theorem State.dmaChan_of_getElem? : s.dmaChan i = c := by
  simp [State.dmaChan, List.getD_eq_getElem?_getD, hc]

theorem State.modDma_eq_set (f : DmaD → DmaD) : s.modDma i f = { s with dmaD := s.dmaD.set i (f c) } := by
  simp [State.modDma, List.modify_eq_set_getElem?, hc]

theorem State.modDma_getElem? (f : DmaD → DmaD) : (s.modDma i f).dmaD[i]? = some (f c) := by simp [hc]

end

theorem State.modDma_getElem?_of_ne (s : State) (f : DmaD → DmaD) {i j : Nat} (h : j ≠ i) :
    (s.modDma i f).dmaD[j]? = s.dmaD[j]? := by simp [h.symm]

/-! ### The end of a descriptor (R76, R77) -/

/-- A channel whose descriptor has completed: it is on the next one, and stopped where run is clear. -/
def DmaD.completed (result : Nat) (irq : Bool) (c : DmaD) : DmaD :=
  let c := { c with
    index := (c.index + 1) % 2 ^ c.log2, desc := none, sgl := [], entry := 0, offset := 0, done := 0, ended := false
    abort := false, state := if c.run then c.ready else .stopped
    badCount := if 0x80 ≤ result then wrapAdd c.badCount 1 else c.badCount }
  let c := if 0x80 ≤ result then c.flag 1 else c
  if irq then c.flag 0 else c

section
variable (result : Nat) (irq : Bool) (c : DmaD)

@[simp] theorem DmaD.completed_desc : (c.completed result irq).desc = none := by
  unfold DmaD.completed; dsimp only; split <;> split <;> rfl
@[simp] theorem DmaD.completed_run : (c.completed result irq).run = c.run := by
  unfold DmaD.completed; dsimp only; split <;> split <;> rfl
@[simp] theorem DmaD.completed_index : (c.completed result irq).index = (c.index + 1) % 2 ^ c.log2 := by
  unfold DmaD.completed; dsimp only; split <;> split <;> rfl
@[simp] theorem DmaD.completed_state : (c.completed result irq).state = if c.run then c.ready else .stopped := by
  unfold DmaD.completed; dsimp only; split <;> split <;> rfl
@[simp] theorem DmaD.completed_badCount :
    (c.completed result irq).badCount = if 0x80 ≤ result then wrapAdd c.badCount 1 else c.badCount := by
  unfold DmaD.completed; dsimp only; split <;> split <;> rfl

/-- A bad descriptor without an interrupt of its own sets the flag of bad ones alone. -/
theorem DmaD.completed_err_bad (h : 0x80 ≤ result) : (c.completed result false).err = c.err ||| 2 := by
  simp [DmaD.completed, h, DmaD.flag]

end

/-- The device with the descriptor of channel c written back, before the channel's vector is signalled. -/
def State.descDone (s : State) (i : Nat) (c : DmaD) (ws : List Word) (result index : Nat) : State :=
  let base := c.ring.toNat + 32 * c.index
  let t := (s.hostWrite (base + 24) [BitVec.ofNat 32 c.done, BitVec.ofNat 32 (result * 2 ^ 24 + index)]).hostWrite base
    [BitVec.ofNat 32 (wordAt ws 0 % 2 ^ 31)]
  ((if c.firmware then t else t.partBlock c).count 0 181 1).modDma i (DmaD.completed result (bit (wordAt ws 0) 30))

section
variable (s : State) (i : Nat) (c : DmaD) (ws : List Word) (result index : Nat)

theorem State.descDone_out :
    let base := c.ring.toNat + 32 * c.index
    (s.descDone i c ws result index).out = s.out
      ++ hostBursts (base + 24) [BitVec.ofNat 32 c.done, BitVec.ofNat 32 (result * 2 ^ 24 + index)]
      ++ hostBursts base [BitVec.ofNat 32 (wordAt ws 0 % 2 ^ 31)] := by
  unfold State.descDone; dsimp only; split <;> simp [State.partBlock]
@[simp] theorem State.descDone_seq : (s.descDone i c ws result index).seq = s.seq := by
  unfold State.descDone; dsimp only; split <;> simp [State.partBlock]
@[simp] theorem State.descDone_dmaD : (s.descDone i c ws result index).dmaD =
    s.dmaD.modify i (DmaD.completed result (bit (wordAt ws 0) 30)) := by
  unfold State.descDone; dsimp only; split <;> simp [State.partBlock]

end

section
variable {s : State} {i : Nat} {c : DmaD} {ws : List Word} (hc : s.dmaD[i]? = some c) (hdesc : c.desc = some ws)
  (result index : Nat)
include hc hdesc

/-- A completion writes the descriptor back, and signals where the descriptor or its result asks for it. -/
theorem State.completeD_eq : s.completeD i result index =
    (s.descDone i c ws result index).signalIf (bit (wordAt ws 0) 30 || (decide (0x80 ≤ result) && c.irqBad)) (4 + i) := by
  unfold State.completeD
  rw [State.dmaChan_of_getElem? hc]
  dsimp only
  rw [hdesc]
  rfl

theorem State.completeD_silent (h : (bit (wordAt ws 0) 30 || (decide (0x80 ≤ result) && c.irqBad)) = false) :
    s.completeD i result index = s.descDone i c ws result index := by
  rw [State.completeD_eq hc hdesc, h]; rfl

/-- What a completion writes to the host comes before the message of its signal. -/
theorem State.completeD_out : ∃ es, (s.completeD i result index).out = (s.descDone i c ws result index).out ++ es := by
  rw [State.completeD_eq hc hdesc]
  exact State.signalIf_out _ _ _

theorem State.completeD_dmaD :
    (s.completeD i result index).dmaD = s.dmaD.modify i (DmaD.completed result (bit (wordAt ws 0) 30)) := by
  rw [State.completeD_eq hc hdesc, State.signalIf_dmaD, State.descDone_dmaD]

theorem State.completeD_getElem? :
    (s.completeD i result index).dmaD[i]? = some (c.completed result (bit (wordAt ws 0) 30)) := by
  simp [State.completeD_dmaD hc hdesc, hc]

theorem State.completeD_getElem?_of_ne {j : Nat} (h : j ≠ i) : (s.completeD i result index).dmaD[j]? = s.dmaD[j]? := by
  simp [State.completeD_dmaD hc hdesc, h.symm]

theorem State.completeD_seq : (s.completeD i result index).seq = s.seq := by
  rw [State.completeD_eq hc hdesc, State.signalIf_seq, State.descDone_seq]

end

/-! ### The host's registers of a channel -/

section
variable {s : State} {ch : Nat} (hon : s.hifOn = true) (hch : ch < 8)
include hon hch

/-- A write to a firmware-owned channel only sets DEV_ERR.owned (R462). -/
theorem State.hostDma_firmware (h : (s.dmaChan ch).firmware = true) (f : State → State) :
    s.hostDma ch f = .next (s.devErr 2) := by
  simp [State.hostDma, hon, Nat.not_le.2 hch, h]

variable {c : DmaD} (hc : s.dmaD[ch]? = some c) (hown : c.firmware = false)
include hc hown

theorem State.hostDma_host (f : State → State) : s.hostDma ch f = .next (f s) := by
  simp [State.hostDma, hon, Nat.not_le.2 hch, State.dmaChan_of_getElem? hc, hown]

/-- A write to a host-owned channel changes that channel. -/
theorem State.hostDma_modDma {f : DmaD → DmaD} {c' : DmaD} (h : f c = c') :
    s.hostDma ch (fun s => s.modDma ch f) = .next { s with dmaD := s.dmaD.set ch c' } := by
  rw [State.hostDma_host hon hch hc hown, State.modDma_eq_set hc, h]

/-- Between descriptors an abort stops the channel. -/
theorem execDmaAbort_idle (hdesc : c.desc = none) : execDmaAbort ch s =
    .next { s with dmaD := s.dmaD.set ch { c with run := false, state := if c.state = .error then .error else .stopped } } := by
  have hrun := State.dmaChan_of_getElem? (State.modDma_getElem? hc fun c => { c with run := false })
  unfold execDmaAbort
  rw [State.hostDma_host hon hch hc hown]
  dsimp only
  rw [hrun, hdesc, Option.isSome_none, if_neg Bool.false_ne_true, State.modDma_modDma, State.modDma_eq_set hc]
  cases hstate : c.state <;> simp [DmaD.clearRun, hdesc, hstate]

/-- In a descriptor it completes it as ABORTED, with run clear (R80). -/
theorem execDmaAbort_inDesc {ws : List Word} (hdesc : c.desc = some ws) :
    execDmaAbort ch s = .next ((s.modDma ch fun c => { c with run := false }).completeD ch 0x03 0) := by
  have hrun := State.dmaChan_of_getElem? (State.modDma_getElem? hc fun c => { c with run := false })
  unfold execDmaAbort
  rw [State.hostDma_host hon hch hc hown]
  dsimp only
  rw [hrun, hdesc, Option.isSome_some, if_pos rfl]

end

/-- What setting run makes of a host-owned channel with run clear (R79). -/
theorem DmaD.setRun_host {c : DmaD} (hown : c.firmware = false) (hrun : c.run = false) : c.setRun = { c with
    run := true
    state := if c.state = .error then .error else if c.state = .stopping then .active
      else if c.bound = none then .waitBind else .active } := by
  cases hstate : c.state <;> cases hbound : c.bound <;> simp [DmaD.setRun, DmaD.ready, hown, hrun, hstate, hbound]

theorem DmaD.clearRun_eq (c : DmaD) : c.clearRun = { c with
    run := false, state := if c.state = .error then .error else if c.desc.isSome then .stopping else .stopped } := by
  cases hstate : c.state <;> simp [DmaD.clearRun, hstate]

/-- A write of the owner that a channel has changes nothing. -/
theorem execDmaOwnerWrite_same {s : State} {ch : Nat} {c : DmaD} (hc : s.dmaD[ch]? = some c) :
    execDmaOwnerWrite ch c.firmware s = .next s := by
  simp [execDmaOwnerWrite, State.dmaChan_of_getElem? hc]

section
variable {s : State} {ch : Nat} {c : DmaD} (hon : s.hifOn = true) (hch : ch < 8) (hc : s.dmaD[ch]? = some c)
include hon hch hc

/-- The owner changes only in CONFIGURED and on a stopped channel (R73). -/
theorem execDmaOwnerWrite_denied {firmware : Bool} (hown : c.firmware ≠ firmware)
    (h : s.ctl.dev ≠ .configured ∨ c.state ≠ .stopped) : execDmaOwnerWrite ch firmware s = .next (s.devErr 3) := by
  simp [execDmaOwnerWrite, State.dmaChan_of_getElem? hc, hon, Nat.not_le.2 hch, hown, h]

variable (hdev : s.ctl.dev = .configured) (hstate : c.state = .stopped)
include hdev hstate

theorem execDmaOwnerWrite_firmware (hown : c.firmware = false) :
    execDmaOwnerWrite ch true s = .next { s with dmaD := s.dmaD.set ch { c with firmware := true } } := by
  simp [execDmaOwnerWrite, State.dmaChan_of_getElem? hc, hon, Nat.not_le.2 hch, hown, hdev, hstate, State.modDma_eq_set hc]

/-- The last firmware-owned channel stays one (R73). -/
theorem execDmaOwnerWrite_host (hown : c.firmware = true) : execDmaOwnerWrite ch false s = .next { s with
    dmaD := s.dmaD.set ch
      (if (s.dmaD.filter (·.firmware)).length ≤ 1 then { c with err := c.err ||| 16 } else { c with firmware := false }) } := by
  by_cases hlast : (s.dmaD.filter (·.firmware)).length ≤ 1 <;>
    simp [execDmaOwnerWrite, State.dmaChan_of_getElem? hc, hon, Nat.not_le.2 hch, hown, hdev, hstate, State.modDma_eq_set hc,
      hlast, DmaD.flag]

end

/-- Settles O49: each register's meaning on a firmware-owned and on a host-owned channel. -/
theorem dmaChannels : Obligations.DmaChannels := by
  unfold Obligations.DmaChannels
  refine ⟨fun s ch high v hon hch hown => ?firmware, fun s ch c hon hch hc hown => ?host,
    fun s ch c hon hch hc hown hdev hstate => execDmaOwnerWrite_host hon hch hc hdev hstate hown⟩
  case firmware =>
    have hdenied := State.hostDma_firmware hon hch hown
    show execDmaDoorbell ch s = _ ∧ execDmaRunSet ch s = _ ∧ execDmaRunClear ch s = _ ∧ execDmaAbort ch s = _
      ∧ execDmaFetchErrorClear ch s = _ ∧ execDmaRingBaseWrite ch high v s = _
    exact ⟨hdenied _, hdenied _, hdenied _, hdenied _, hdenied _, hdenied _⟩
  case host =>
    have hbecomes {f : DmaD → DmaD} {c' : DmaD} (h : f c = c') := State.hostDma_modDma hon hch hc hown h
    refine ⟨hbecomes ?doorbell, fun hrun => hbecomes ?run, fun hrun => hbecomes (DmaD.setRun_host hown hrun),
      hbecomes c.clearRun_eq, fun hdesc => execDmaAbort_idle hon hch hc hown hdesc, fun ws hdesc _ => ?abort, hbecomes ?error,
      fun high v hstate => hbecomes ?locked, fun v hstate => ⟨hbecomes ?low, hbecomes ?high⟩, ?same,
      fun h => execDmaOwnerWrite_denied hon hch hc (by simp [hown]) h,
      fun hdev hstate => execDmaOwnerWrite_firmware hon hch hc hdev hstate hown⟩
    case doorbell => by_cases hidle : c.state = .idle <;> simp [hidle]
    case run => simp [DmaD.setRun, hrun]
    case error => by_cases h : c.state = .error ∧ c.run = false <;> simp [h]
    case locked => simp [hstate, DmaD.flag]
    case low => simp [hstate]
    case high => simp [hstate]
    case same => exact hown ▸ execDmaOwnerWrite_same hc
    case abort =>
      have hrun := State.modDma_getElem? hc fun c => { c with run := false }
      obtain ⟨es, hout⟩ := State.completeD_out hrun hdesc 0x03 0
      refine ⟨_, execDmaAbort_inDesc hon hch hc hown hdesc, ⟨es, ?_⟩,
        ⟨_, State.completeD_getElem? hrun hdesc 0x03 0, by simp, by simp, by simp, by simp, by simp⟩, fun j hj => ?_, ?_⟩
      · rw [hout, State.descDone_out, State.modDma_out]; rfl
      · rw [State.completeD_getElem?_of_ne hrun hdesc _ _ hj, State.modDma_getElem?_of_ne _ _ hj]
      · rw [State.completeD_seq hrun hdesc, State.modDma_seq]

end Sys2Proof.Machine
end

section
/-! SUPPORT. Descriptor fetches and bursts of class D and move channels (03_dma.md R74, R76-R79, R83-R88). -/

namespace Sys2Proof.Machine

/-! ### The fetch of a descriptor (R78, R84) -/

theorem bit_eq_false {v i : Nat} : bit v i = false ↔ v / 2 ^ i % 2 = 0 := by
  unfold bit; rw [beq_eq_false_iff_ne]; omega

/-- A channel that takes up a descriptor, with its list not yet read. -/
def DmaD.start (ws : List Word) (c : DmaD) : DmaD :=
  { c with desc := some ws, sgl := [], entry := 0, offset := 0, done := 0 }

/-- A descriptor that names no list entry is wrong (Table 3-4). -/
theorem State.descOk_empty (s : State) (c : DmaD) {ws : List Word} (sgl : List Word) (h : wordAt ws 0 = 2 ^ 31) :
    s.descOk c ws sgl = none := by
  simp [State.descOk, h]

/-- A host-owned channel's descriptor is right with its reserved fields, dir and dev_addr 0 and a right list (Table 3-2). -/
theorem State.descOk_host (s : State) {c : DmaD} {ws sgl : List Word} {es : List (Nat × Nat)} {n : Nat}
    (hown : c.firmware = false) (h0 : wordAt ws 0 = 2 ^ 31 + n) (hpos : 0 < n) (hn : n < 4096) (haddr : word64 ws 3 = 0)
    (hlist : sglEntries n sgl = some es) : s.descOk c ws sgl = some es := by
  have hcount : wordAt ws 0 % 4096 = n := by omega
  have hreserved : bits (wordAt ws 0) 28 12 = 0 := by rw [h0, bits]; omega
  have hdir : bit (wordAt ws 0) 29 = false := by rw [bit_eq_false]; omega
  simp [State.descOk, hcount, hreserved, hpos.ne', hlist, hown, hdir, haddr]

section
variable {s : State} {i : Nat} {c : DmaD} (hc : s.dmaD[i]? = some c) (hdesc : c.desc = none) (hact : c.state = .active)
include hc hdesc hact

/-- A fetch that fails puts the channel in ERROR and signals its vector (R84). -/
theorem State.fetchD_error : s.fetchD i .error =
    ({ s with dmaD := s.dmaD.set i { c with err := c.err ||| 4, state := .error } } : State).signal (4 + i) := by
  simp [State.fetchD, State.dmaChan_of_getElem? hc, hdesc, hact, State.modDma_eq_set hc, DmaD.flag]

/-- A descriptor that the device does not own leaves the channel IDLE (R78). -/
theorem State.fetchD_notOwned {ws : List Word} (hown : bit (wordAt ws 0) 31 = false) (sgl : List Word) :
    s.fetchD i (.words ws sgl) = { s.hostRead 32 with dmaD := s.dmaD.set i { c with state := .idle } } := by
  have hread : (s.hostRead 32).dmaD[i]? = some c := by simp [hc]
  simp [State.fetchD, State.dmaChan_of_getElem? hc, hdesc, hact, hown, State.modDma_eq_set hread]

variable {ws sgl : List Word} (hown : bit (wordAt ws 0) 31 = true)
include hown

/-- A wrong descriptor is written back as FORMAT. -/
theorem State.fetchD_bad (hbad : (s.hostRead 32).descOk c ws sgl = none) :
    s.fetchD i (.words ws sgl) = ((s.hostRead 32).modDma i (DmaD.start ws)).completeD i 0x82 0 := by
  simp only [State.fetchD, State.dmaChan_of_getElem? hc, hdesc, hact, hown, hbad]
  rfl

/-- A right one is taken up. -/
theorem State.fetchD_good {es : List (Nat × Nat)} (hgood : (s.hostRead 32).descOk c ws sgl = some es) :
    s.fetchD i (.words ws sgl) = (((s.hostRead 32).modDma i (DmaD.start ws)).hostRead (4 * sgl.length)).modDma i
      fun c => { c with sgl := es } := by
  simp only [State.fetchD, State.dmaChan_of_getElem? hc, hdesc, hact, hown, hgood]
  rfl

end

/-! ### A burst of a class D channel (R79, R82, R83, R88) -/

@[simp] theorem State.stageBytes_out (s : State) (c : DmaD) (bs : List Byte) : (s.stageBytes c bs).out = s.out := rfl
@[simp] theorem State.stageBytes_dmaD (s : State) (c : DmaD) (bs : List Byte) : (s.stageBytes c bs).dmaD = s.dmaD := rfl

theorem State.burstD_idle {s : State} {i : Nat} (hdesc : (s.dmaChan i).desc = none) (answer : BurstRead) :
    s.burstD i answer = s := by
  simp [State.burstD, hdesc]

/-- A channel's place in its list after a burst of n bytes. -/
def DmaD.advance (n : Nat) (c : DmaD) : DmaD :=
  let left := ((c.sgl.getD c.entry (0, 0)).2) - c.offset
  if left ≤ n then { c with done := c.done + n, entry := c.entry + 1, offset := 0 }
  else { c with done := c.done + n, offset := c.offset + n }

section
variable {c : DmaD} {n addr len : Nat} (hsgl : c.sgl = [(addr, len)]) (hentry : c.entry = 0)
include hsgl hentry

theorem DmaD.advance_within (hn : n < len - c.offset) :
    c.advance n = { c with done := c.done + n, offset := c.offset + n } := by
  simp [DmaD.advance, hsgl, hentry, Nat.not_le.2 hn]

theorem DmaD.advance_last (hn : len - c.offset ≤ n) : c.advance n = { c with done := c.done + n, entry := 1, offset := 0 } := by
  simp [DmaD.advance, hsgl, hentry, hn]

end

section
variable {s : State} {i : Nat} {c : DmaD} (hc : s.dmaD[i]? = some c)
include hc

/-- After a burst the descriptor completes where no list entry is left. -/
theorem State.advanceD_eq (n : Nat) : s.advanceD i n =
    if (c.advance n).sgl.length ≤ (c.advance n).entry then
      (s.modDma i (DmaD.advance n)).completeD i (if (c.advance n).ended then 0x02 else 0x01) 0
    else s.modDma i (DmaD.advance n) := by
  rw [← State.dmaChan_of_getElem? (State.modDma_getElem? hc (DmaD.advance n))]
  rfl

/-- A host-to-device burst of a host-owned channel: bytes that fit the entry, the boundary, the read size and the staging all
reach the staging of its stripe (R74, R88). -/
theorem State.burstD_staged {ws : List Word} {bs : List Byte} {addr len : Nat} (hown : c.firmware = false)
    (hdesc : c.desc = some ws) (hdir : wordAt ws 0 / 2 ^ 29 % 2 = 0) (hpaused : c.paused = false) (hended : c.ended = false)
    (hsgl : c.sgl = [(addr, len)]) (hentry : c.entry = 0) (hleft : bs.length ≤ len - c.offset)
    (hpage : bs.length ≤ 4096 - (addr + c.offset) % 4096) (hmrr : bs.length ≤ s.pcie.maxReadRequest)
    (hroom : bs.length ≤ s.stageRoom c) (hpos : 0 < s.stageRoom c) :
    s.burstD i (.bytes bs) = ((s.hostRead bs.length).stageBytes c bs).advanceD i bs.length := by
  have hbit : bit (wordAt ws 0) 29 = false := bit_eq_false.2 hdir
  have hread : (s.hostRead bs.length).dmaD[i]? = some c := by simp [hc]
  have hall : min (min bs.length (burstRoom (addr + c.offset) (len - c.offset))) (min s.pcie.maxReadRequest (s.stageRoom c))
      = bs.length := by unfold burstRoom; omega
  simp only [State.burstD, State.burstData, State.deliver, State.dmaChan_of_getElem? hc, State.dmaChan_of_getElem? hread, hdesc,
    hpaused, hpos.ne', hbit, hsgl, hentry, hown, hended, Bool.false_eq_true, if_false, Bool.false_or, decide_false,
    List.getD_cons_zero, hall, List.take_length]

end

/-! ### A burst of a move channel (R87, R88) -/

/-- Updates of a die that keep the bytes of its DRAM. -/
theorem State.modDie_dram {f : Die → Die} (hf : ∀ d, (f d).mem.dram = d.mem.dram) (s : State) (i j : Nat) :
    ((s.modDie i f).die j).mem.dram = (s.die j).mem.dram := by
  by_cases hj : i = j
  · subst hj
    cases hx : s.dies[i]? <;> simp [State.die_eq_getElem?, hx, hf]
  · rw [State.die_modDie_of_ne _ _ _ _ (Ne.symm hj)]

@[simp] theorem State.dramAccess_dram (s : State) (d j : Nat) (as : List (Nat × Nat)) :
    ((s.dramAccess d as).die j).mem.dram = (s.die j).mem.dram := by
  unfold State.dramAccess
  rw [State.count_mem]
  exact State.modDie_dram (by intro; rfl) s d j

/-- An access opens and closes pages, and keeps the bytes. -/
@[simp] theorem State.devAccess_dram (s : State) (a : DevAddr) (i n j : Nat) :
    ((s.devAccess a i n).die j).mem.dram = (s.die j).mem.dram := by
  unfold State.devAccess
  split
  · rfl
  · split
    · generalize s.liveDies = live
      induction live generalizing s with
      | nil => rfl
      | cons d live ih => rw [List.foldl_cons, ih, State.dramAccess_dram]
    · exact State.dramAccess_dram _ _ _ _

@[simp] theorem State.linkAnswer_bytes_dram (s : State) (a : DevAddr) (bs : List Byte) (j : Nat) :
    ((s.linkAnswer a (.bytes bs)).die j).mem.dram = (s.die j).mem.dram := by
  unfold State.linkAnswer
  split
  · rfl
  · exact State.modDie_dram (f := fun d => { d with mem.linkCe := satAdd d.mem.linkCe 0 }) (fun _ => rfl) s a.die j

/-- Bytes of DRAM are never withheld, and their read changes nothing. -/
theorem State.devBytes_dram (s : State) {a : DevAddr} (ha : a.sram = false) (i n : Nat) :
    s.devBytes a i n = (some ((List.range n).map fun k => sparseGet 0 (s.die a.die).mem.dram (a.off + i + k)), s) := by
  induction n generalizing i with
  | zero => rfl
  | succ n ih =>
    have hbyte : s.devByte a i = (some (sparseGet 0 (s.die a.die).mem.dram (a.off + i)), s) := by simp [State.devByte, ha]
    rw [State.devBytes, hbyte]
    dsimp only
    rw [ih, List.range_succ_eq_map, List.map_cons, List.map_map]
    simp [Function.comp_def, Nat.add_assoc, Nat.add_comm 1]

theorem State.devRead_dram (s : State) {a : DevAddr} (ha : a.sram = false) (n : Nat) :
    s.devRead a 0 n = (some ((List.range n).map fun k => sparseGet 0 (s.die a.die).mem.dram (a.off + k)), s.devAccess a 0 n) := by
  simp [State.devRead, State.devBytes_dram _ ha]

section
variable {s : State} {d k : Nat} {ws : List Word} {a b : DevAddr} {len : Nat} (hdesc : (s.moveChan d k).desc = some ws)
  (hmove : s.moveDesc ws = some (a, b, len))
include hdesc hmove

/-- A bus error ends the descriptor as bad (R83). -/
theorem State.burstMove_error (e : Nat) : s.burstMove d k (.error e) = (s.linkAnswer a (.error e)).completeMove d k 0x81 := by
  simp [State.burstMove, hdesc, hmove]

/-- Bytes of one die's DRAM that no peripheral paces are read, and written to another die. -/
theorem State.burstMove_dram (hreq : moveReq ws = none) (ha : a.sram = false) (hbcast : b.bcast = false) (hdie : a.die ≠ b.die)
    (bs : List Byte) :
    let c := s.moveChan d k
    let n := min (min (max 1 bs.length) 256) (len - c.done)
    let data := (List.range n).map fun i => sparseGet 0 (s.die a.die).mem.dram (a.off + c.done + i)
    s.burstMove d k (.bytes bs) =
      (((s.linkAnswer a (.bytes bs)).devAccess { a with off := a.off + c.done } 0 n).devWrite { b with off := b.off + c.done }
        data).movedBytes d k len n := by
  have hdown : (a.sram == b.sram && (b.bcast || a.die == b.die) && decide (a.off < b.off) && decide (b.off < a.off + len))
      = false := by simp [hbcast, hdie]
  intro c n data
  have hread := State.devRead_dram (s.linkAnswer a (.bytes bs)) (a := { a with off := a.off + c.done }) ha n
  simp only [State.linkAnswer_bytes_dram] at hread
  simp only [State.burstMove, hdesc, hmove, hreq, hdown, Bool.false_eq_true, if_false]
  rw [hread]

end

/-! ### Fetches and bursts of channels that the device has -/

section
variable {s : State} (hrun : s.running = true)
include hrun

theorem exec_dmaDescriptorFetch_classD {i : Nat} (hi : i < 8) (answer : DescRead) :
    exec (.dmaDescriptorFetch (.classD i) answer) s = .next (s.fetchD i answer) := by
  show execDmaDescriptorFetch (.classD i) answer s = _
  simp [execDmaDescriptorFetch, hrun, hi]

theorem exec_dmaBurst_classD {i : Nat} (hi : i < 8) (answer : BurstRead) :
    exec (.dmaBurst (.classD i) answer) s = .next (s.burstD i answer) := by
  show execDmaBurst (.classD i) answer s = _
  simp [execDmaBurst, hrun, hi]

theorem exec_dmaBurst_move {d k : Nat} (hd : d < s.nDies) (hk : k < 4) (answer : BurstRead) :
    exec (.dmaBurst (.move d k) answer) s = .next (s.burstMove d k answer) := by
  show execDmaBurst (.move d k) answer s = _
  simp [execDmaBurst, hrun, hd, hk]

end

/-- Settles O50: a fetch by its answer, a burst by the bytes left of its list entry, a move by the read of its source. -/
theorem dmaTransfers : Obligations.DmaTransfers := by
  unfold Obligations.DmaTransfers
  refine ⟨fun s i c hrun hi hc hown hdesc hact => ?fetch,
    fun s i c ws bs addr len hrun hi hc hown hdesc hdir hpaused hended hsgl hentry hoff hpage hmrr hroom hpos => ?burst,
    fun s i answer hrun hi hdesc => ?idle,
    fun s d k ws bs a b len hrun hd hk hdesc hreq hmove ha hb hbcast hdie hdone => ?move⟩
  case fetch =>
    simp only [exec_dmaDescriptorFetch_classD hrun hi]
    have hread : (s.hostRead 32).dmaD[i]? = some c := by simp [hc]
    refine ⟨congrArg _ (State.fetchD_error hc hdesc hact), fun ws sgl h0 => ?notOwned, fun ws sgl h0 hirq => ?bad,
      fun ws sgl es n h0 hpos hn haddr hlist => ?good⟩
    case notOwned =>
      refine congrArg _ (State.fetchD_notOwned hc hdesc hact ?_ sgl)
      rw [bit_eq_false, Nat.div_eq_of_lt h0]
    case bad =>
      have hstart := State.modDma_getElem? hread (DmaD.start ws)
      refine ⟨_, congrArg _ (State.fetchD_bad hc hdesc hact (by rw [h0]; rfl) (State.descOk_empty _ c sgl h0)), ?_,
        ⟨_, State.completeD_getElem? hstart rfl 0x82 0, by simp, by simp [DmaD.start], by simp [DmaD.start], ?_⟩, fun j hj => ?_⟩
      · have hsilent : (bit (wordAt ws 0) 30 || (decide (0x80 ≤ 0x82) && (c.start ws).irqBad)) = false := by
          simp [h0, bit, DmaD.start, hirq]
        rw [State.completeD_silent hstart rfl _ _ hsilent, State.descDone_out, State.modDma_out, State.hostRead_out, h0]
        rfl
      · have hquiet : bit (wordAt ws 0) 30 = false := by rw [h0]; rfl
        rw [hquiet, DmaD.completed_err_bad _ _ (by norm_num)]
        rfl
      · rw [State.completeD_getElem?_of_ne hstart rfl _ _ hj, State.modDma_getElem?_of_ne _ _ hj, State.hostRead_dmaD]
    case good =>
      have hgood := (s.hostRead 32).descOk_host hown h0 hpos hn haddr hlist
      refine ⟨_, congrArg _ (State.fetchD_good hc hdesc hact ?_ hgood), ?_, by simp, fun j hj => ?_⟩
      · rw [← Bool.not_eq_false, bit_eq_false]; omega
      · simp [hc, DmaD.start]
      · simp [hj.symm]
  case burst =>
    rw [exec_dmaBurst_classD hrun hi]
    have hstaged (hleft : bs.length ≤ len - c.offset) :=
      State.burstD_staged hc hown hdesc hdir hpaused hended hsgl hentry hleft hpage hmrr hroom hpos
    have hc' : ((s.hostRead bs.length).stageBytes c bs).dmaD[i]? = some c := by simp [hc]
    refine ⟨fun hwithin => ?within, fun hlast => ?last⟩
    case within =>
      have hplace := DmaD.advance_within hsgl hentry hwithin
      have hadvance := State.advanceD_eq hc' bs.length
      rw [hplace, if_neg (by simp [hsgl, hentry])] at hadvance
      refine ⟨_, congrArg _ ((hstaged hwithin.le).trans hadvance), ?_, by simp, ?_, fun j hj => ?_⟩
      · rw [State.modDma_getElem? hc', hplace]
      · rw [State.modDma_areas, State.stageBytes, State.hostRead_areas]
      · rw [State.modDma_getElem?_of_ne _ _ hj, State.stageBytes_dmaD, State.hostRead_dmaD]
    case last =>
      have hplace := DmaD.advance_last hsgl hentry hlast.ge
      have hadvance := State.advanceD_eq hc' bs.length
      rw [hplace, if_pos (by simp [hsgl]), hended] at hadvance
      have hnext := State.modDma_getElem? hc' (DmaD.advance bs.length)
      rw [hplace] at hnext
      obtain ⟨es, hout⟩ := State.completeD_out hnext hdesc 0x01 0
      refine ⟨_, congrArg _ ((hstaged hlast.le).trans hadvance), ⟨es, ?_⟩,
        ⟨_, State.completeD_getElem? hnext hdesc 0x01 0, by simp, by simp, by simp⟩, fun j hj => ?_⟩
      · refine hout.trans ?_
        rw [State.descDone_out, State.modDma_out, State.stageBytes_out, State.hostRead_out]
        rfl
      · refine (State.completeD_getElem?_of_ne hnext hdesc _ _ hj).trans ?_
        rw [State.modDma_getElem?_of_ne _ _ hj, State.stageBytes_dmaD, State.hostRead_dmaD]
  case idle =>
    rw [exec_dmaBurst_classD hrun hi, State.burstD_idle hdesc]
  case move =>
    simp only [exec_dmaBurst_move hrun hd hk]
    exact ⟨congrArg _ (State.burstMove_dram hdesc hmove hreq ha hbcast hdie bs),
      fun e => congrArg _ (State.burstMove_error hdesc hmove e)⟩

end Sys2Proof.Machine
end

section
/-! SUPPORT. Class T streams (03_dma.md R89-R93). -/

namespace Sys2Proof.Machine

/-! ### The registers of a stream (R90, R93) -/

section
variable {s : State} {ch : Nat} {c : DmaT} (hon : s.hifOn = true) (hc : s.dmaT[ch]? = some c)
include hon hc

theorem execDmaTEnable_eq : execDmaTEnable ch s = .next { s with dmaT := s.dmaT.set ch c.enable } := by
  simp [execDmaTEnable, hon, List.modify_eq_set_getElem?, hc]

theorem execDmaTRdptrWrite_eq (v : Word) :
    execDmaTRdptrWrite ch v s = .next { s with dmaT := s.dmaT.set ch (c.setRd v.toNat) } := by
  simp [execDmaTRdptrWrite, hon, List.modify_eq_set_getElem?, hc]

end

/-- A read pointer beyond the write pointer is ignored and flagged (R90). -/
theorem DmaT.setRd_eq (c : DmaT) (v : Nat) : c.setRd v =
    if (c.wr + 2 ^ 32 - c.rd) % 2 ^ 32 < (v + 2 ^ 32 - c.rd) % 2 ^ 32 then { c with rdRange := true } else { c with rd := v } := by
  simp only [DmaT.setRd, ← Nat.not_lt, ite_not]

/-! ### A record is written (R90, R91) -/

/-- A record fits where the bytes between the pointers and its own do not exceed the buffer. -/
theorem DmaT.room_lt_iff (c : DmaT) {n : Nat} (hn : 0 < n) :
    c.room < n ↔ 2 ^ c.log2 < (c.wr + 2 ^ 32 - c.rd) % 2 ^ 32 + n := by
  unfold DmaT.room; omega

/-- Words of an n-word record that lie before the buffer's end. -/
def DmaT.headWords (c : DmaT) (n : Nat) : Nat := min n ((2 ^ c.log2 - c.wr % 2 ^ c.log2) / 4)

/-- The writes of a record: up to the buffer's end, and from its base on. -/
def DmaT.recordWrites (c : DmaT) (r : List Word) : List Emission :=
  hostBursts (c.buf.toNat + c.wr % 2 ^ c.log2) (r.take (c.headWords r.length))
    ++ if c.headWords r.length < r.length then hostBursts c.buf.toNat (r.drop (c.headWords r.length)) else []

theorem DmaT.recordWrites_whole {c : DmaT} {r : List Word} (h : c.wr % 2 ^ c.log2 + 4 * r.length ≤ 2 ^ c.log2) :
    c.recordWrites r = hostBursts (c.buf.toNat + c.wr % 2 ^ c.log2) r := by
  have hhead : c.headWords r.length = r.length := by unfold DmaT.headWords; omega
  simp [DmaT.recordWrites, hhead]

theorem DmaT.recordWrites_wraps {c : DmaT} {r : List Word} (h : 2 ^ c.log2 < c.wr % 2 ^ c.log2 + 4 * r.length) :
    let head := (2 ^ c.log2 - c.wr % 2 ^ c.log2) / 4
    c.recordWrites r = hostBursts (c.buf.toNat + c.wr % 2 ^ c.log2) (r.take head) ++ hostBursts c.buf.toNat (r.drop head) := by
  intro head
  have hhead : c.headWords r.length = head := by unfold DmaT.headWords; omega
  have hmore : head < r.length := by omega
  simp only [DmaT.recordWrites, hhead, hmore, if_true]

/-- Whether a write of n bytes passes the middle of the buffer, and whether it passes its end (R91). -/
def DmaT.passes (c : DmaT) (n : Nat) : Bool × Bool :=
  let half := 2 ^ c.log2 / 2
  let passed := (c.wr + n) / half - c.wr / half
  let odd := (c.wr / half + 1) % 2 == 1
  (passed != 0 && (odd || 2 ≤ passed), passed != 0 && (!odd || 2 ≤ passed))

/-- A channel whose oldest record, of n bytes, has been written. -/
def DmaT.recordDone (c : DmaT) (n : Nat) : DmaT :=
  { c with
    waiting := c.waiting.tail, wr := (c.wr + n) % 2 ^ 32, half := c.half || (c.passes n).1, full := c.full || (c.passes n).2 }

/-- The device with a channel's record written, before the channel's vector is signalled. -/
def State.recordWritten (s : State) (ch : Nat) (c : DmaT) (r : List Word) : State :=
  let head := c.headWords r.length
  let t := s.hostWrite (c.buf.toNat + c.wr % 2 ^ c.log2) (r.take head)
  let t := if head < r.length then t.hostWrite c.buf.toNat (r.drop head) else t
  { t.count 0 182 1 with dmaT := t.dmaT.set ch (c.recordDone (4 * r.length)) }

section
variable (s : State) (ch : Nat) (c : DmaT) (r : List Word)

theorem State.recordWritten_out : (s.recordWritten ch c r).out = s.out ++ c.recordWrites r := by
  unfold State.recordWritten DmaT.recordWrites; dsimp only; split <;> simp
@[simp] theorem State.recordWritten_seq : (s.recordWritten ch c r).seq = s.seq := by
  unfold State.recordWritten; dsimp only; split <;> simp
@[simp] theorem State.recordWritten_dmaT : (s.recordWritten ch c r).dmaT = s.dmaT.set ch (c.recordDone (4 * r.length)) := by
  unfold State.recordWritten; dsimp only; split <;> simp

end

section
variable {s : State} {ch : Nat} {c : DmaT} (hc : s.dmaT[ch]? = some c)
include hc

theorem execClassTRecordWrite_none (hnone : c.waiting = []) : execClassTRecordWrite ch s = .next s := by
  simp [execClassTRecordWrite, hc, hnone]

variable {r : List Word} {rest : List (List Word)} (hwait : c.waiting = r :: rest)
include hwait

theorem execClassTRecordWrite_noRoom (hfull : c.room < 4 * r.length) : execClassTRecordWrite ch s = .next s := by
  simp [execClassTRecordWrite, hc, hwait, hfull]

/-- With room the record is written whole, and passing the buffer's middle or end is signalled where that is enabled. -/
theorem execClassTRecordWrite_written (hrun : s.running = true) (hen : c.enabled = true) (hroom : ¬c.room < 4 * r.length) :
    execClassTRecordWrite ch s = .next
      (((s.recordWritten ch c r).signalIf ((c.passes (4 * r.length)).1 && c.halfIrq) (12 + ch)).signalIf
        ((c.passes (4 * r.length)).2 && c.fullIrq) (12 + ch)) := by
  have hgo : (!c.enabled || decide (c.room < 4 * r.length) || !s.running) = false := by simp [hen, hroom, hrun]
  simp only [execClassTRecordWrite, hc, hwait, hgo, State.recordWritten, DmaT.recordDone]
  rfl

end

/-- Settles O51: the registers by their equations, a record by the room for it and the bytes before the buffer's end. -/
theorem classTStreams : Obligations.ClassTStreams := by
  unfold Obligations.ClassTStreams
  refine ⟨fun s ch c v hon hc => ⟨execDmaTEnable_eq hon hc, ?rdptr⟩, fun s ch v hoff => ?off,
    fun s ch c r rest hc hwait hrun hen hr => ?record, fun s ch c hc hnone => execClassTRecordWrite_none hc hnone⟩
  case rdptr =>
    rw [← DmaT.setRd_eq]
    exact execDmaTRdptrWrite_eq hon hc v
  case off =>
    have hstays : ¬s.hifOn = true := by simp [hoff]
    exact ⟨congrArg Host.Outcome.next (if_neg hstays), congrArg Host.Outcome.next (if_neg hstays)⟩
  case record =>
    have hroom := c.room_lt_iff (n := 4 * r.length) (by have := List.length_pos_of_ne_nil hr; omega)
    refine ⟨fun hfull => execClassTRecordWrite_noRoom hc hwait (hroom.2 hfull), fun hfits => ?_⟩
    refine ⟨_, execClassTRecordWrite_written hc hwait hrun hen (mt hroom.1 (Nat.not_lt.2 hfits)), ?_⟩
    obtain ⟨es, hhalf⟩ :=
      (s.recordWritten ch c r).signalIf_out ((c.passes (4 * r.length)).1 && c.halfIrq) (12 + ch)
    obtain ⟨fs, hboth⟩ := ((s.recordWritten ch c r).signalIf ((c.passes (4 * r.length)).1 && c.halfIrq) (12 + ch)).signalIf_out
      ((c.passes (4 * r.length)).2 && c.fullIrq) (12 + ch)
    rw [hhalf, State.recordWritten_out, List.append_assoc] at hboth
    refine ⟨fun hwhole => ⟨es ++ fs, ?_⟩, fun hwraps => ⟨es ++ fs, ?_⟩, ?channel, fun j hj => by simp [hj.symm], by simp⟩
    · rw [hboth, DmaT.recordWrites_whole hwhole]
    · rw [hboth, DmaT.recordWrites_wraps hwraps, ← List.append_assoc s.out]
    case channel =>
      have hch : ch < s.dmaT.length := (List.getElem?_eq_some_iff.1 hc).1
      exact ⟨c.recordDone (4 * r.length), by simp [hch], by simp [DmaT.recordDone, hwait], rfl, rfl, hen,
        fun h => by simp [DmaT.recordDone, h], fun h => by simp [DmaT.recordDone, h]⟩

end Sys2Proof.Machine
end

section
/-! SUPPORT. The SRAM's check bits (04_memory.md R110, R111, Table 4-4): what a read computes of a stored byte, and the rows of
the table. The code is linear, so upsets move the syndrome and the parity by those of the flipped bits alone. -/

namespace Sys2Proof.Machine

/-! ### Check bits beside a byte -/

/-- A byte stored with the given check bits. -/
def storedOf (c4 c3 c2 c1 c0 : Bool) (b : Byte) : Stored :=
  BitVec.ofBool c4 ++ BitVec.ofBool c3 ++ BitVec.ofBool c2 ++ BitVec.ofBool c1 ++ BitVec.ofBool c0 ++ b

/-- Four check bits as a number. -/
def checkOf (c3 c2 c1 c0 : Bool) : BitVec 4 := BitVec.ofBool c3 ++ BitVec.ofBool c2 ++ BitVec.ofBool c1 ++ BitVec.ofBool c0

section
variable (c4 c3 c2 c1 c0 e4 e3 e2 e1 e0 : Bool) (b e : Byte) (i : Nat)

theorem storedOf_xor : storedOf c4 c3 c2 c1 c0 b ^^^ storedOf e4 e3 e2 e1 e0 e
    = storedOf (c4 ^^ e4) (c3 ^^ e3) (c2 ^^ e2) (c1 ^^ e1) (c0 ^^ e0) (b ^^^ e) := by
  simp only [storedOf, ← BitVec.ofBool_xor_ofBool, ← BitVec.xor_append]

theorem checkOf_xor :
    checkOf c3 c2 c1 c0 ^^^ checkOf e3 e2 e1 e0 = checkOf (c3 ^^ e3) (c2 ^^ e2) (c1 ^^ e1) (c0 ^^ e0) := by
  simp only [checkOf, ← BitVec.ofBool_xor_ofBool, ← BitVec.xor_append]

theorem checkOf_toNat : (checkOf c3 c2 c1 c0).toNat = b2n c0 + 2 * b2n c1 + 4 * b2n c2 + 8 * b2n c3 := by
  revert c3 c2 c1 c0; decide

theorem checkOf_getLsbD : (checkOf c3 c2 c1 c0).getLsbD i = [c0, c1, c2, c3].getD i false := by
  show BitVec.getLsbD (w := 1 + 1 + 1 + 1) (_ ++ _) i = _
  simp only [BitVec.getLsbD_append, BitVec.getLsbD_ofBool]
  match i with
  | 0 | 1 | 2 | 3 => rfl
  | i + 4 => simp

theorem storedOf_getLsbD_low (hi : i < 8) : (storedOf c4 c3 c2 c1 c0 b).getLsbD i = b.getLsbD i := by
  show BitVec.getLsbD (w := 1 + 1 + 1 + 1 + 1 + 8) (_ ++ _) i = _
  simp only [BitVec.getLsbD_append, hi, if_true]

theorem storedOf_getLsbD_high (hi : 8 ≤ i) :
    (storedOf c4 c3 c2 c1 c0 b).getLsbD i = [c0, c1, c2, c3, c4].getD (i - 8) false := by
  show BitVec.getLsbD (w := 1 + 1 + 1 + 1 + 1 + 8) (_ ++ _) i = _
  simp only [BitVec.getLsbD_append, BitVec.getLsbD_ofBool, Nat.not_lt.2 hi, if_false]
  match i - 8 with
  | 0 | 1 | 2 | 3 | 4 => rfl
  | i + 5 => simp

end

theorem checkBits_eq (w : Stored) :
    w.extractLsb' 8 4 = checkOf (w.getLsbD 11) (w.getLsbD 10) (w.getLsbD 9) (w.getLsbD 8) := by
  apply BitVec.eq_of_getLsbD_eq
  intro i hi
  rw [checkOf_getLsbD, BitVec.getLsbD_extractLsb']
  match i, hi with
  | 0, _ | 1, _ | 2, _ | 3, _ => rfl

theorem checkBits_storedOf (c4 c3 c2 c1 c0 : Bool) (b : Byte) :
    (storedOf c4 c3 c2 c1 c0 b).extractLsb' 8 4 = checkOf c3 c2 c1 c0 := by
  simp only [checkBits_eq, storedOf_getLsbD_high, Nat.reduceLeDiff]
  rfl

/-! ### The parity of the 13 bits -/

/-- A parity taken bit by bit is that of the number of set bits. -/
theorem foldl_xor_eq_filter {α : Type} (f : α → Bool) (l : List α) (p : Bool) :
    l.foldl (fun r i => r ^^ f i) p = (p ^^ decide ((l.filter f).length % 2 = 1)) := by
  induction l generalizing p with
  | nil => simp
  | cons x l ih =>
    rw [List.foldl_cons, ih, List.filter_cons]
    cases f x with
    | false => simp
    | true =>
      have hflip : decide ((x :: l.filter f).length % 2 = 1) = !decide ((l.filter f).length % 2 = 1) := by
        rw [List.length_cons, ← decide_not, decide_eq_decide]; omega
      rw [if_pos rfl, hflip, Bool.xor_true, Bool.not_xor, Bool.xor_not]

theorem oddParity_iff (w : Stored) :
    oddParity w = true ↔ ((List.range 13).filter fun i => w.getLsbD i).length % 2 = 1 := by
  rw [oddParity, foldl_xor_eq_filter, Bool.false_xor, decide_eq_true_iff]

theorem foldl_xor_xor {α : Type} (f g : α → Bool) (l : List α) (p q : Bool) :
    l.foldl (fun r i => r ^^ (f i ^^ g i)) (p ^^ q) = (l.foldl (fun r i => r ^^ f i) p ^^ l.foldl (fun r i => r ^^ g i) q) := by
  induction l generalizing p q with
  | nil => rfl
  | cons x l ih =>
    have hstep : ((p ^^ q) ^^ (f x ^^ g x)) = ((p ^^ f x) ^^ (q ^^ g x)) := by
      rw [Bool.xor_assoc, Bool.xor_left_comm q, ← Bool.xor_assoc]
    rw [List.foldl_cons, hstep, ih, List.foldl_cons, List.foldl_cons]

theorem oddParity_xor (w e : Stored) : oddParity (w ^^^ e) = (oddParity w ^^ oddParity e) := by
  simp only [oddParity, BitVec.getLsbD_xor]
  exact foldl_xor_xor w.getLsbD e.getLsbD (List.range 13) false false

theorem oddParity_storedOf (c4 c3 c2 c1 c0 : Bool) (b : Byte) : oddParity (storedOf c4 c3 c2 c1 c0 b)
    = ((b.getLsbD 0 ^^ b.getLsbD 1 ^^ b.getLsbD 2 ^^ b.getLsbD 3 ^^ b.getLsbD 4 ^^ b.getLsbD 5 ^^ b.getLsbD 6 ^^ b.getLsbD 7
      ^^ c0 ^^ c1 ^^ c2 ^^ c3) ^^ c4) := by
  have hbits : List.range 13 = [0, 1, 2, 3, 4, 5, 6, 7, 8, 9, 10, 11, 12] := rfl
  simp only [oddParity, hbits, List.foldl_cons, List.foldl_nil, storedOf_getLsbD_low, storedOf_getLsbD_high, Nat.reduceLT,
    Nat.reduceLeDiff, Bool.false_xor]
  rfl

/-! ### Data, syndrome and parity of a byte as read (R111) -/

/-- The data bits of a stored byte. -/
def storedData (w : Stored) : Byte := w.extractLsb' 0 8

/-- The syndrome of a stored byte: recomputed xor stored c3 to c0. -/
def storedSyndrome (w : Stored) : BitVec 4 := (sramEncode (storedData w)).extractLsb' 8 4 ^^^ w.extractLsb' 8 4

/-- The syndrome by the equations of R110. -/
theorem storedSyndrome_toNat (w : Stored) : (storedSyndrome w).toNat
    = b2n (w.getLsbD 0 ^^ w.getLsbD 1 ^^ w.getLsbD 3 ^^ w.getLsbD 4 ^^ w.getLsbD 6 ^^ w.getLsbD 8)
      + 2 * b2n (w.getLsbD 0 ^^ w.getLsbD 2 ^^ w.getLsbD 3 ^^ w.getLsbD 5 ^^ w.getLsbD 6 ^^ w.getLsbD 9)
      + 4 * b2n (w.getLsbD 1 ^^ w.getLsbD 2 ^^ w.getLsbD 3 ^^ w.getLsbD 7 ^^ w.getLsbD 10)
      + 8 * b2n (w.getLsbD 4 ^^ w.getLsbD 5 ^^ w.getLsbD 6 ^^ w.getLsbD 7 ^^ w.getLsbD 11) := by
  have hdata (i : Nat) (hi : i < 8) : (storedData w).getLsbD i = w.getLsbD i := by simp [storedData, hi]
  have hcheck : (sramEncode (storedData w)).extractLsb' 8 4 = _ := checkBits_storedOf ..
  simp only [storedSyndrome, hcheck, checkBits_eq w, checkOf_xor, checkOf_toNat, hdata, Nat.reduceLT]

theorem sramEncode_xor (a b : Byte) : sramEncode (a ^^^ b) = sramEncode a ^^^ sramEncode b := by
  have hcomm : Std.Commutative Bool.xor := ⟨Bool.xor_comm⟩
  show storedOf _ _ _ _ _ _ = storedOf _ _ _ _ _ _ ^^^ storedOf _ _ _ _ _ _
  rw [storedOf_xor]
  simp only [BitVec.getLsbD_xor]
  congr 1 <;> ac_rfl

theorem storedData_xor (w e : Stored) : storedData (w ^^^ e) = storedData w ^^^ storedData e := BitVec.extractLsb'_xor

theorem storedSyndrome_xor (w e : Stored) : storedSyndrome (w ^^^ e) = storedSyndrome w ^^^ storedSyndrome e := by
  simp only [storedSyndrome, storedData_xor, sramEncode_xor, BitVec.extractLsb'_xor]
  ac_rfl

@[simp] theorem storedData_encode (b : Byte) : storedData (sramEncode b) = b := BitVec.extractLsb'_append_eq_right

@[simp] theorem storedSyndrome_encode (b : Byte) : storedSyndrome (sramEncode b) = 0#4 := by
  rw [storedSyndrome, storedData_encode, BitVec.xor_self]

/-- c4 makes the number of set bits even. -/
@[simp] theorem oddParity_encode (b : Byte) : oddParity (sramEncode b) = false :=
  (oddParity_storedOf ..).trans (Bool.xor_self _)

/-! ### The rows of Table 4-4 -/

section
variable {w : Stored}

theorem sramDecode_even (hp : oddParity w = false) :
    sramDecode w = if (storedSyndrome w).toNat = 0 then .clean (storedData w) else .uncorrectable := by
  simp only [sramDecode, hp, Bool.not_false, if_true]; rfl

theorem sramDecode_beyond (hp : oddParity w = true) (hs : 12 < (storedSyndrome w).toNat) : sramDecode w = .uncorrectable := by
  simp only [sramDecode, hp, Bool.not_true, Bool.false_eq_true, if_false]
  exact if_pos hs

/-- A syndrome up to 12 with odd parity names the bit that was upset, where it is a data bit. -/
theorem sramDecode_odd (hp : oddParity w = true) (hs : ¬12 < (storedSyndrome w).toNat) : sramDecode w =
    match syndromeBit (storedSyndrome w).toNat with
    | some i => .corrected (storedData w ^^^ BitVec.ofNat 8 (2 ^ i))
    | none => .corrected (storedData w) := by
  simp only [sramDecode, hp, Bool.not_true, Bool.false_eq_true, if_false]
  exact if_neg hs

theorem sramDecode_checkBit (hp : oddParity w = true) (hs : (storedSyndrome w).toNat ∈ [0, 1, 2, 4, 8]) :
    sramDecode w = .corrected (storedData w) := by
  have hpos : ∀ s ∈ [0, 1, 2, 4, 8], ¬12 < s ∧ syndromeBit s = none := by decide
  obtain ⟨hle, hbit⟩ := hpos _ hs
  rw [sramDecode_odd hp hle, hbit]

theorem sramDecode_dataBit (hp : oddParity w = true) {s i : Nat}
    (hmem : (s, i) ∈ [(3, 0), (5, 1), (6, 2), (7, 3), (9, 4), (10, 5), (11, 6), (12, 7)]) (hs : (storedSyndrome w).toNat = s) :
    sramDecode w = .corrected (storedData w ^^^ BitVec.ofNat 8 (2 ^ i)) := by
  have hpos : ∀ x ∈ [(3, 0), (5, 1), (6, 2), (7, 3), (9, 4), (10, 5), (11, 6), (12, 7)],
      ¬12 < x.1 ∧ syndromeBit x.1 = some x.2 := by decide
  obtain ⟨hle, hbit⟩ := hpos _ hmem
  rw [sramDecode_odd hp (hs ▸ hle), hs, hbit]

end

/-- Settles O13: each clause is a row of the table, the syndrome being that of R110's equations. -/
theorem syndromeTable : Obligations.SyndromeTable := by
  unfold Obligations.SyndromeTable
  intro w
  dsimp only
  rw [← storedSyndrome_toNat, ← oddParity_iff, Bool.not_eq_true]
  refine ⟨fun ⟨hs, hp⟩ => ?_, fun ⟨hs, hp⟩ => sramDecode_checkBit hp hs, fun x hx hs hp => sramDecode_dataBit hp hx hs,
    fun ⟨hs, hp⟩ => ?_, fun ⟨hs, hp⟩ => sramDecode_beyond hp hs⟩
  · rw [sramDecode_even hp, if_pos hs]; rfl
  · rw [sramDecode_even hp, if_neg hs]

/-! ### Upsets of a byte as stored -/

/-- The syndrome of a stored byte with one of its bits flipped: the flipped bit's position (R111), 0 for c4. -/
def bitSyndromes : List (BitVec 4) := [3, 5, 6, 7, 9, 10, 11, 12, 1, 2, 4, 8, 0]

/-- One of the 13 bits alone. -/
def storedBit (i : Nat) : Stored := BitVec.ofNat 13 (2 ^ i)

theorem oddParity_bit : ∀ i < 13, oddParity (storedBit i) = true := by decide
theorem storedSyndrome_bit : ∀ i < 13, storedSyndrome (storedBit i) = bitSyndromes.getD i 0 := by decide
theorem storedData_bit : ∀ i < 13, storedData (storedBit i) = BitVec.ofNat 8 (2 ^ i) := by decide

/-- An upset of a data bit is flipped back; an upset of a check bit leaves the data as it was. -/
theorem sramDecode_upset (b : Byte) (i : Nat) (hi : i < 13) : sramDecode (sramEncode b ^^^ storedBit i) = .corrected b := by
  have hp : oddParity (sramEncode b ^^^ storedBit i) = true := by simp [oddParity_xor, oddParity_bit i hi]
  have hs : storedSyndrome (sramEncode b ^^^ storedBit i) = bitSyndromes.getD i 0 := by
    simp [storedSyndrome_xor, storedSyndrome_bit i hi]
  have hd : storedData (sramEncode b ^^^ storedBit i) = b ^^^ BitVec.ofNat 8 (2 ^ i) := by
    simp [storedData_xor, storedData_bit i hi]
  by_cases hdata : i < 8
  · have hmem : ∀ i < 8, ((bitSyndromes.getD i 0).toNat, i)
        ∈ [(3, 0), (5, 1), (6, 2), (7, 3), (9, 4), (10, 5), (11, 6), (12, 7)] := by decide
    rw [sramDecode_dataBit hp (hmem i hdata) (by rw [hs]), hd, BitVec.xor_assoc, BitVec.xor_self, BitVec.xor_zero]
  · have hmem : ∀ i < 13, 8 ≤ i → (bitSyndromes.getD i 0).toNat ∈ [0, 1, 2, 4, 8] ∧ BitVec.ofNat 8 (2 ^ i) = 0#8 := by decide
    obtain ⟨hcheck, hzero⟩ := hmem i hi (Nat.not_lt.1 hdata)
    rw [sramDecode_checkBit hp (by rw [hs]; exact hcheck), hd, hzero, BitVec.xor_zero]

/-- Two upsets leave the parity even, and their positions differ, so the syndrome is not 0. -/
theorem sramDecode_two_upsets (b : Byte) {i j : Nat} (hi : i < 13) (hj : j < 13) (hij : i ≠ j) :
    sramDecode (sramEncode b ^^^ storedBit i ^^^ storedBit j) = .uncorrectable := by
  have hp : oddParity (sramEncode b ^^^ storedBit i ^^^ storedBit j) = false := by
    simp [oddParity_xor, oddParity_bit i hi, oddParity_bit j hj]
  have hs : storedSyndrome (sramEncode b ^^^ storedBit i ^^^ storedBit j)
      = bitSyndromes.getD i 0 ^^^ bitSyndromes.getD j 0 := by
    simp [storedSyndrome_xor, storedSyndrome_bit i hi, storedSyndrome_bit j hj]
  have hdistinct : bitSyndromes.getD i 0 ≠ bitSyndromes.getD j 0 := by
    have hinj : ∀ i < 13, ∀ j < 13, bitSyndromes.getD i 0 = bitSyndromes.getD j 0 → i = j := by decide
    exact fun h => hij (hinj i hi j hj h)
  have hne : (storedSyndrome (sramEncode b ^^^ storedBit i ^^^ storedBit j)).toNat ≠ 0 := fun h0 =>
    hdistinct (BitVec.xor_eq_zero_iff.1 (hs.symm.trans (BitVec.eq_of_toNat_eq h0)))
  rw [sramDecode_even hp, if_neg hne]

/-- Settles O14: a byte as stored has syndrome 0 and even parity, and upsets add those of their bits. -/
theorem secdedCorrects : Obligations.SecdedCorrects := by
  unfold Obligations.SecdedCorrects
  refine fun b => ⟨?_, fun i hi => sramDecode_upset b i hi, fun i hi j hj hij => sramDecode_two_upsets b hi hj hij⟩
  simp [sramDecode_even]

end Sys2Proof.Machine
end

section
/-! SUPPORT. Canonical memories are equal where every read agrees (03_dma.md Table 3-6, 04_memory.md R109). -/

namespace Sys2Proof.Machine

variable {α : Type} {dflt : α} {m m' : List (Nat × α)}

theorem sparseGet_cons_same (x : Nat × α) : sparseGet dflt (x :: m) x.1 = x.2 := if_pos rfl

theorem sparseGet_cons_other {x : Nat × α} {a : Nat} (h : x.1 ≠ a) : sparseGet dflt (x :: m) a = sparseGet dflt m a := if_neg h

variable [DecidableEq α]

/-- A canonical memory's first key is the least, its value is not the default, and the rest is canonical. -/
theorem sparseWf_cons {x : Nat × α} :
    sparseWf dflt (x :: m) = true ↔ x.2 ≠ dflt ∧ (∀ y ∈ m, x.1 < y.1) ∧ sparseWf dflt m = true := by
  simp only [sparseWf_iff, List.forall_mem_cons, List.pairwise_cons]
  tauto

/-- The first key of a canonical memory reads otherwise than as the default, so it is not below another's keys. -/
theorem sparseWf_head_le {x y : Nat × α} (h : sparseWf dflt (x :: m) = true) (h' : sparseWf dflt (y :: m') = true)
    (hget : sparseGet dflt (y :: m') x.1 = sparseGet dflt (x :: m) x.1) : y.1 ≤ x.1 := by
  by_contra hlt
  obtain ⟨hx, -, -⟩ := sparseWf_cons.1 h
  obtain ⟨-, hy, -⟩ := sparseWf_cons.1 h'
  have hbelow : ∀ z ∈ y :: m', x.1 < z.1 := List.forall_mem_cons.2 ⟨by omega, fun z hz => by have := hy z hz; omega⟩
  rw [sparseGet_below dflt _ _ hbelow, sparseGet_cons_same] at hget
  exact hx hget.symm

theorem sparse_ext (h : sparseWf dflt m = true) (h' : sparseWf dflt m' = true)
    (hget : ∀ a, sparseGet dflt m a = sparseGet dflt m' a) : m = m' := by
  induction m generalizing m' with
  | nil =>
    cases m' with
    | nil => rfl
    | cons y m' => exact absurd ((hget y.1).trans (sparseGet_cons_same y)).symm (sparseWf_cons.1 h').1
  | cons x m ih =>
    cases m' with
    | nil => exact absurd ((sparseGet_cons_same x).symm.trans (hget x.1)) (sparseWf_cons.1 h).1
    | cons y m' =>
      have hkey : x.1 = y.1 := Nat.le_antisymm (sparseWf_head_le h' h (hget _)) (sparseWf_head_le h h' (hget _).symm)
      have hval : x.2 = y.2 := by rw [← sparseGet_cons_same x, hget, hkey, sparseGet_cons_same]
      obtain ⟨-, hx, hm⟩ := sparseWf_cons.1 h
      obtain ⟨-, hy, hm'⟩ := sparseWf_cons.1 h'
      have hrest : ∀ a, sparseGet dflt m a = sparseGet dflt m' a := fun a => by
        by_cases ha : x.1 = a
        · rw [sparseGet_below dflt m a (ha ▸ hx), sparseGet_below dflt m' a (ha ▸ hkey ▸ hy)]
        · rw [← sparseGet_cons_other ha, hget, sparseGet_cons_other (hkey ▸ ha)]
      rw [ih hm hm' hrest, Prod.ext hkey hval]

theorem sparseSet_get (h : sparseWf dflt m = true) (a : Nat) : sparseSet dflt m a (sparseGet dflt m a) = m := by
  refine sparse_ext (sparseSet_wf dflt m a _ h) h fun b => ?_
  by_cases hb : b = a
  · rw [hb, sparseGet_set_same dflt m a _ h]
  · exact sparseGet_set_other dflt m a b _ h hb

/-- Settles O15: read after write and frame by the laws of the sparse lists, the rest because reads determine the list. -/
theorem canonicalCells : Obligations.CanonicalCells := by
  unfold Obligations.CanonicalCells
  exact fun z m a v h => ⟨sparseGet_set_same z m a v h, fun b hb => sparseGet_set_other z m a b v h hb, sparseSet_wf z m a v h,
    sparseSet_get h a, fun m' h' hget => sparse_ext h' h hget⟩

end Sys2Proof.Machine
end

section
/-! SUPPORT. A check-value unit at its reset parameters is the CRC-32C loop (05_geometry_stream.md R119; 14_compression_crc.md R364,
R365). The loop takes a byte at once and shifts eight times; the unit takes its bits one by one. One step of the loop on a
register with bits still to come is one bit into the unit, with the remaining bits moved up. -/

namespace Sys2Proof.Machine

section
variable {u : CrcUnit} (hrefin : u.refin = true) (hpoly : reflect u.width u.poly = 0x82F63B78)
include hrefin hpoly

/-- A step of the loop with bits still to come in the register takes the lowest of them as the unit does. -/
theorem crcStep_xor (v x : Word) : crcStep (v ^^^ x) = u.bitIn v (x.getLsbD 0) ^^^ (x >>> 1) := by
  simp only [crcStep, CrcUnit.bitIn, hrefin, hpoly, if_true, BitVec.getLsbD_xor, BitVec.ushiftRight_xor_distrib,
    Bool.bne_eq_xor]
  split <;> ac_rfl

/-- n steps of the loop are n bits into the unit, the remaining bits moved up by n. -/
theorem crcStep_iterate_xor (v x : Word) (n : Nat) :
    crcStep^[n] (v ^^^ x) = (List.range n).foldl (fun v i => u.bitIn v (x.getLsbD i)) v ^^^ (x >>> n) := by
  induction n with
  | zero => simp
  | succ n ih =>
    rw [Function.iterate_succ_apply', ih, crcStep_xor hrefin hpoly, List.range_succ, List.foldl_append]
    simp [BitVec.shiftRight_add]

theorem CrcUnit.byteIn_eq_crcByte : u.byteIn = crcByte := by
  funext v b
  have hbits (i : Nat) : (b.setWidth 32).getLsbD i = b.getLsbD i := by
    simpa using fun h => (BitVec.lt_of_getLsbD h).trans (by decide : 8 < 32)
  have hrest : b.setWidth 32 >>> 8 = 0#32 := BitVec.eq_of_toNat_eq (by simp [Nat.shiftRight_eq_div_pow]; omega)
  calc u.byteIn v b
      = (List.range 8).foldl (fun v i => u.bitIn v ((b.setWidth 32).getLsbD i)) v ^^^ (b.setWidth 32 >>> 8) := by
        simp only [CrcUnit.byteIn, hrefin, if_true, hbits, hrest, BitVec.xor_zero]
    _ = crcByte v b := (crcStep_iterate_xor hrefin hpoly v (b.setWidth 32) 8).symm

/-- The unit's result after bytes is the CRC of the loop from the register's value, as far as the output is that of R119. -/
theorem CrcUnit.feed_result (hrefout : u.refout = true) (hxorout : u.xorout = 0xFFFFFFFF) (bs : List Byte) :
    (u.feed bs).result = crc32c u.value bs := by
  simp [CrcUnit.result, CrcUnit.feed, crc32c, hrefin, hrefout, hxorout, CrcUnit.byteIn_eq_crcByte hrefin hpoly]

end

/-- The polynomial of Table 14-2 in reverse order is that of R119's loop. -/
theorem reflect_resetPoly : reflect CrcUnit.reset.width CrcUnit.reset.poly = 0x82F63B78 := by decide

/-- The check value of R119: the CRC of the string 123456789. -/
theorem crc32c_checkString :
    crc32c 0xFFFFFFFF [0x31, 0x32, 0x33, 0x34, 0x35, 0x36, 0x37, 0x38, 0x39] = 0xE3069283 := by decide +kernel

/-- Settles O54: the unit takes each byte as the loop does, and the loop of the string is computed. -/
theorem crcUnitIsCrc32c : Obligations.CrcUnitIsCrc32c := by
  unfold Obligations.CrcUnitIsCrc32c
  have hunit (seed : Word) (bs : List Byte) : ({ CrcUnit.reset with value := seed }.feed bs).result = crc32c seed bs :=
    CrcUnit.feed_result (u := { CrcUnit.reset with value := seed }) rfl reflect_resetPoly rfl rfl bs
  exact ⟨hunit, (hunit _ _).trans crc32c_checkString⟩

end Sys2Proof.Machine
end

section
/-! SUPPORT. LIB_DROP (05_geometry_stream.md R133, R134): which libraries are in use, and the space that a drop frees. -/

namespace Sys2Proof.Machine

/-- A library is named by an admitted stripe, or by a staged block of a bound area (R133). -/
theorem State.libNamed_iff (s : State) (id : Nat) : s.libNamed id = true ↔
    (∃ st ∈ s.seq.stripes, st.root.lib = id) ∨ ∃ a ∈ s.areas, a.bound.isSome = true ∧ ∃ b ∈ a.blocks, b.lib = id := by
  simp [State.libNamed]

/-- The space used is that of the libraries which a test selects and that of the others (R134). -/
theorem State.libUsed_split (s : State) (q : Library → Bool) : s.libUsed =
    ((s.libs.filter fun l => !q l).map Library.bytes).sum + ((s.libs.filter q).map Library.bytes).sum := by
  have hperm := ((List.filter_append_perm q s.libs).map Library.bytes).sum_eq
  rw [List.map_append, List.sum_append] at hperm
  exact hperm.symm.trans (Nat.add_comm _ _)

section
variable {s : State} {p : Packet} {c : Ctx} {id : Nat} (hid : p.param 0 = id)
include hid

theorem libDropBody_unknown (h : ∀ l ∈ s.libs, l.id ≠ id) : libDropBody p c s = s.finish c libUnknown [] := by
  have hnone : s.libs.find? (fun l => l.id == id) = none := List.find?_eq_none.2 (by simpa using h)
  simp [libDropBody, hid, hnone]

variable {l : Library} (hfound : s.libs.find? (fun l => l.id == id) = some l)
include hfound

theorem libDropBody_inUse (h : l.load.isSome = true ∨ s.libNamed id = true) :
    libDropBody p c s = s.finish c libInUse [] := by
  simp [libDropBody, hid, hfound, h]

theorem libDropBody_removes (hload : l.load = none) (hnamed : ¬s.libNamed id = true) :
    libDropBody p c s = ({ s with libs := s.libs.filter fun l => l.id != id }).finish c ok [] := by
  simp [libDropBody, hid, hfound, hload, hnamed]

end

/-- Settles O19: the library found and its use decide what LIB_DROP answers, and a drop keeps the other libraries' space. -/
theorem libDrop : Obligations.LibDrop := by
  unfold Obligations.LibDrop
  intro s p htakes
  have hrun : exec (.libDrop p) s = .next (libDropBody (Packet.ofRow 0x0201 p) (s.cmd 0x0201 p) s) :=
    State.direct_takes htakes libDropBody
  have hid := Packet.ofRow_param 0x0201 p 0
  rw [hrun]
  refine ⟨fun hunknown => ?unknown, fun l hfound huse => ?inUse, fun l hfound hload hstripes hareas => ⟨?removes, ?space⟩⟩
  case unknown => rw [libDropBody_unknown hid hunknown]; rfl
  case inUse =>
    rw [← State.libNamed_iff] at huse
    rw [libDropBody_inUse hid hfound huse]; rfl
  case removes =>
    have hnamed : ¬s.libNamed (p.param 0) = true := by
      rw [State.libNamed_iff]
      rintro (⟨st, hst, hlib⟩ | ⟨a, ha, hbound, b, hb, hlib⟩)
      · exact hstripes st hst hlib
      · exact hareas a ha hbound b hb hlib
    rw [libDropBody_removes hid hfound hload hnamed]; rfl
  case space => exact s.libUsed_split fun l => l.id == p.param 0

end Sys2Proof.Machine
end

section
/-! SUPPORT. What the bookkeeping of rendering leaves alone: counters, flits, bounds, released blocks, a stripe's update. -/

namespace Sys2Proof.Machine

section
variable (s : State) (d i n j : Nat)

@[simp] theorem State.count_tess : ((s.count d i n).die j).tess = (s.die j).tess := by rw [State.die_count]
@[simp] theorem State.count_facetFailed : ((s.count d i n).die j).facetFailed = (s.die j).facetFailed := by rw [State.die_count]
@[simp] theorem State.count_facetCount : ((s.count d i n).die j).facetCount = (s.die j).facetCount := by rw [State.die_count]

end

/-! ### Flits are counted one by one (01 R33, R35) -/

/-- What no single count changes, the count of a packet's flits does not change. -/
theorem State.countFlits_keeps {α : Type} (φ : State → α) (hφ : ∀ t d i n, φ (State.count t d i n) = φ t) (s : State)
    (src bytes : Nat) : φ (s.countFlits src bytes) = φ s := by
  have hports (x n : Nat) (ports : List Nat) (t : State) :
      φ (ports.foldl (fun t i => t.count x (48 + i) n) t) = φ t := by
    induction ports generalizing t with
    | nil => rfl
    | cons i ports ih => rw [List.foldl_cons, ih, hφ]
  unfold State.countFlits
  generalize List.range s.nDies = xs
  generalize s.nDies = dies
  induction xs generalizing s with
  | nil => rfl
  | cons x xs ih => exact (ih _).trans (hports _ _ _ _)

section
variable (s : State) (src bytes j : Nat)

@[simp] theorem State.countFlits_seq : (s.countFlits src bytes).seq = s.seq :=
  State.countFlits_keeps (·.seq) (by simp) ..
@[simp] theorem State.countFlits_out : (s.countFlits src bytes).out = s.out :=
  State.countFlits_keeps (·.out) (by simp) ..
@[simp] theorem State.countFlits_perim : (s.countFlits src bytes).perim = s.perim :=
  State.countFlits_keeps (·.perim) (by simp) ..
@[simp] theorem State.countFlits_length : (s.countFlits src bytes).dies.length = s.dies.length :=
  State.countFlits_keeps (·.dies.length) (by simp) ..
@[simp] theorem State.countFlits_con : ((s.countFlits src bytes).die j).con = (s.die j).con :=
  State.countFlits_keeps (fun s => (s.die j).con) (by simp) ..
@[simp] theorem State.countFlits_tess : ((s.countFlits src bytes).die j).tess = (s.die j).tess :=
  State.countFlits_keeps (fun s => (s.die j).tess) (by simp) ..
@[simp] theorem State.countFlits_sram : ((s.countFlits src bytes).die j).sram = (s.die j).sram :=
  State.countFlits_keeps (fun s => (s.die j).sram) (by simp) ..

end

/-! ### The declared bounds, and blocks read past (05 R145, R155) -/

/-- A check of a segment's bounds changes staging areas alone. -/
theorem State.checkBounds_eq (s : State) (st : Stripe) (die seg : Nat) :
    s.checkBounds st die seg = { s with areas := (s.checkBounds st die seg).areas } := by
  unfold State.checkBounds
  dsimp only
  split
  · rfl
  · split <;> rfl

section
variable (s : State) (st : Stripe) (die seg j : Nat)

@[simp] theorem State.checkBounds_die : (s.checkBounds st die seg).die j = s.die j := by
  rw [State.checkBounds_eq]; rfl
@[simp] theorem State.checkBounds_seq : (s.checkBounds st die seg).seq = s.seq := by rw [State.checkBounds_eq]
@[simp] theorem State.checkBounds_perim : (s.checkBounds st die seg).perim = s.perim := by rw [State.checkBounds_eq]
@[simp] theorem State.checkBounds_out : (s.checkBounds st die seg).out = s.out := by rw [State.checkBounds_eq]

end

section
variable {s : State} {st : Stripe} (h : st.root.streamBlocks ≤ 2048) (pass : Nat)
include h

/-- The blocks of a retained stream stand to the stripe's end. -/
theorem State.releaseRead_retained : s.releaseRead st pass = s := if_pos h

theorem State.releasePasses_retained : s.releasePasses st pass = s := if_pos h

end

/-- An update of the stripe that an id names, where it keeps the id. -/
theorem State.stripe?_modStripe (s : State) (id : Nat) {f : Stripe → Stripe} (hf : ∀ st, (f st).id = st.id) :
    (s.modStripe id f).stripe? id = (s.stripe? id).map f := by
  have hid : ((fun st : Stripe => st.id == id) ∘ fun st => if st.id = id then f st else st) = fun st => st.id == id := by
    funext st
    by_cases h : st.id = id <;> simp [h, hf]
  unfold State.stripe? State.modStripe
  dsimp only
  rw [List.find?_map, hid]
  cases hfind : s.seq.stripes.find? fun st => st.id == id with
  | some st =>
    have hst : st.id = id := by simpa using List.find?_some hfind
    simp [hst]
  | none =>
    cases s.seq.last with
    | none => rfl
    | some st => by_cases h : st.id = id <;> simp [h, hf, Option.filter]

end Sys2Proof.Machine
end

section
/-! SUPPORT. A stripe-pass begins, and Tessera's bands (06 R150-R157, R166, R167; 07 R184, R185; 09 R221). -/

namespace Sys2Proof.Machine

/-! ### A stripe-pass begins on every live die (R150, R184, R221) -/

/-- A live die begins a stripe-pass. -/
def Die.beginLive (st : Stripe) (d : Die) : Die :=
  if d.retired then d else d.beginPass st (st.root.hasColumn (512 * d.id))

/-- A stripe has one more pass begun. -/
def Stripe.passBegun (x : Stripe) : Stripe :=
  { x with rendered := x.rendered + 1, phase := if x.phase = .queued then .prefill else x.phase }

/-- The state in which a stripe's next pass is begun. -/
def State.passBegun (s : State) (st : Stripe) : State :=
  ((s.modDies (Die.beginLive st)).modStripe st.id Stripe.passBegun).resumeArea st

theorem execStripeRenderBegin_none {s : State} (h : s.nextRender = none) : execStripeRenderBegin s = .next s := by
  simp only [execStripeRenderBegin, h]

/-- With every live die free of the pass before, the next one begins. -/
theorem execStripeRenderBegin_begins {s : State} {st : Stripe} (h : s.nextRender = some st) (hready : s.ctl.ready = true)
    (hactive : s.active = true) (hfree : ∀ d ∈ s.dies, d.retired = false → d.tess.work = none ∧ d.con.ringOf = none)
    (hkept : st.root.streamBlocks ≤ 2048) : execStripeRenderBegin s = .next (s.passBegun st) := by
  have hidle : (s.dies.any fun d => !d.retired && (d.tess.work.isSome || d.con.ringOf.isSome)) = false := by
    refine List.any_eq_false.2 fun d hd => ?_
    cases hret : d.retired with
    | true => simp
    | false => simp [hfree d hd hret]
  simp only [execStripeRenderBegin, h, hready, hactive, hidle, State.releasePasses_retained hkept]
  rfl

/-- A live die's fields once its pass is begun. -/
theorem State.passBegun_die {s : State} {st : Stripe} {i : Nat} {d : Die} (hd : s.dies[i]? = some d)
    (hlive : d.retired = false) :
    (s.passBegun st).dies[i]? = some (d.beginPass st (st.root.hasColumn (512 * d.id))) := by
  have hdies : (s.passBegun st).dies = s.dies.map (Die.beginLive st) := rfl
  simp [hdies, hd, Die.beginLive, hlive]

theorem State.passBegun_stripe (s : State) {st x : Stripe} (h : s.stripe? st.id = some x) :
    (s.passBegun st).stripe? st.id = some x.passBegun := by
  have hmod := (s.modDies (Die.beginLive st)).stripe?_modStripe st.id (f := Stripe.passBegun) fun _ => rfl
  exact hmod.trans (congrArg (Option.map Stripe.passBegun) h)

/-! ### Without a stripe-pass nothing is expanded -/

section
variable {s : State} {die : Nat} (h : s.workOf die = none)
include h

theorem execTesseraCoarseBand_idle : execTesseraCoarseBand die s = .next s := by simp only [execTesseraCoarseBand, h]

theorem execTesseraFineBand_idle : execTesseraFineBand die s = .next s := by simp only [execTesseraFineBand, h]

theorem execLibraryFetch_idle (corrected ok1 ok2 : Bool) : execLibraryFetch die corrected ok1 ok2 s = .next s := by
  simp only [execLibraryFetch, h]

end

/-! ### The coarse pass (R153, R154, R166, R167, 07 R185) -/

/-- A packet is on its way to a live die other than its sender. -/
def Die.queuePacket (die : Nat) (packet : Nat × List Word) (d : Die) : Die :=
  if d.retired || d.id = die then d else { d with con.fabric := d.con.fabric ++ [packet] }

section
variable (die : Nat) (packet : Nat × List Word) (d : Die)

@[simp] theorem Die.queuePacket_tess : (d.queuePacket die packet).tess = d.tess := by unfold Die.queuePacket; split <;> rfl
@[simp] theorem Die.queuePacket_sram : (d.queuePacket die packet).sram = d.sram := by unfold Die.queuePacket; split <;> rfl
@[simp] theorem Die.queuePacket_ring : (d.queuePacket die packet).con.ring = d.con.ring := by
  unfold Die.queuePacket; split <;> rfl
@[simp] theorem Die.queuePacket_expect : (d.queuePacket die packet).con.expect = d.con.expect := by
  unfold Die.queuePacket; split <;> rfl

end

/-- The densities of an owner's columns of a coarse row. -/
def Stripe.rowDensities (st : Stripe) (dies owner : Nat) (row : Int) (ps : List Piece) : List Nat :=
  let span := ownerSpan dies st.tables.lrK owner
  (List.range span.2).map fun (i : Nat) => cellDensity st.dose st.root.additive ps (span.1 + i) row

section
variable (s : State) (st : Stripe) (pass die owner : Nat) (row : Int) (ps : List Piece)

/-- A row's densities enter the die's own ring, then go out to the other dies. -/
theorem State.sendDensity_eq : ∃ packet bytes, s.sendDensity st pass die owner row ps =
    ((s.modDie die (Die.putDensity row owner (ownerSpan s.nDies st.tables.lrK owner).1
      (st.rowDensities s.nDies owner row ps))).modDies (Die.queuePacket die packet)).countFlits die bytes :=
  ⟨_, _, rfl⟩

@[simp] theorem State.sendDensity_seq : (s.sendDensity st pass die owner row ps).seq = s.seq := by
  obtain ⟨_, _, h⟩ := s.sendDensity_eq st pass die owner row ps
  simp [h]

@[simp] theorem State.sendDensity_out : (s.sendDensity st pass die owner row ps).out = s.out := by
  obtain ⟨_, _, h⟩ := s.sendDensity_eq st pass die owner row ps
  simp [h]

@[simp] theorem State.sendDensity_perim : (s.sendDensity st pass die owner row ps).perim = s.perim := by
  obtain ⟨_, _, h⟩ := s.sendDensity_eq st pass die owner row ps
  simp [h]

@[simp] theorem State.sendDensity_length : (s.sendDensity st pass die owner row ps).dies.length = s.dies.length := by
  obtain ⟨_, _, h⟩ := s.sendDensity_eq st pass die owner row ps
  simp [h]

variable {die} (hlen : die < s.dies.length)
include hlen

/-- What a sent row leaves in the sender: its ring and its SRAM hold the row. -/
theorem State.sendDensity_die : let t := s.sendDensity st pass die owner row ps
    (t.die die).con.ring = addDensity row owner (s.die die).con.ring
    ∧ (t.die die).con.expect = (s.die die).con.expect.set owner (row + 1)
    ∧ (t.die die).sram = (s.die die).sram.writeHalves (ringAddr row (ownerSpan s.nDies st.tables.lrK owner).1)
        (st.rowDensities s.nDies owner row ps) := by
  obtain ⟨_, _, h⟩ := s.sendDensity_eq st pass die owner row ps
  simp [h, State.die_modDies, State.die_modDie, hlen, Die.putDensity]

end

/-- A coarse row of Tessera's is complete: its number, a count, and how far the stream is read. -/
def State.coarseRowDone (s : State) (st : Stripe) (die seq : Nat) (row : Int) : State :=
  let t := (s.modDie die fun d => { d with tess := { d.tess with coarseRow := row, waitRing := false } }).count die 11 1
  { t with areas := t.areas.modify st.area fun a => { a with expect := max a.expect seq } }

section
variable (s : State) (st : Stripe) (die seq : Nat) (row : Int)

@[simp] theorem State.coarseRowDone_seq : (s.coarseRowDone st die seq row).seq = s.seq := by simp [State.coarseRowDone]
@[simp] theorem State.coarseRowDone_out : (s.coarseRowDone st die seq row).out = s.out := by simp [State.coarseRowDone]
@[simp] theorem State.coarseRowDone_perim : (s.coarseRowDone st die seq row).perim = s.perim := by simp [State.coarseRowDone]

theorem State.coarseRowDone_die (hlen : die < s.dies.length) : let t := s.coarseRowDone st die seq row
    (t.die die).tess = { (s.die die).tess with coarseRow := row, waitRing := false }
    ∧ (t.die die).con = (s.die die).con ∧ (t.die die).sram = (s.die die).sram := by
  intro t
  have hdie : t.die die = ((s.modDie die fun d =>
    { d with tess := { d.tess with coarseRow := row, waitRing := false } }).count die 11 1).die die := rfl
  simp [hdie, State.die_modDie, hlen]

end

/-- What a die's own row leaves once it is sent and complete. -/
theorem State.sentRow_effect (s : State) (st : Stripe) {die : Nat} (pass seq : Nat) (row : Int) (ps : List Piece)
    (hlen : die < s.dies.length) : let t := (s.sendDensity st pass die die row ps).coarseRowDone st die seq row
    (t.die die).tess.coarseRow = row ∧ (t.die die).tess.waitRing = false
    ∧ (t.die die).con.ring = addDensity row die (s.die die).con.ring
    ∧ (t.die die).con.expect = (s.die die).con.expect.set die (row + 1)
    ∧ (t.die die).sram = (s.die die).sram.writeHalves (ringAddr row (ownerSpan s.nDies st.tables.lrK die).1)
        (st.rowDensities s.nDies die row ps)
    ∧ t.seq = s.seq ∧ t.out = s.out ∧ t.perim = s.perim := by
  obtain ⟨hring, hexpect, hsram⟩ := s.sendDensity_die st pass die row ps hlen
  obtain ⟨htess, hcon, hsram'⟩ :=
    (s.sendDensity st pass die die row ps).coarseRowDone_die st die seq row (by simpa using hlen)
  simp only [htess, hcon, hsram', hring, hexpect, hsram, State.coarseRowDone_seq, State.coarseRowDone_out,
    State.coarseRowDone_perim, State.sendDensity_seq, State.sendDensity_out, State.sendDensity_perim, true_and]

/-- The pieces that a band of the coarse pass gives an owner's columns of a row. -/
def State.rowPieces (s : State) (st : Stripe) (ps : List BodyRec) (owner : Nat) (row : Int) : List Piece :=
  let span := ownerSpan s.nDies st.tables.lrK owner
  let region : Box := { x0 := 8192 * span.1, y0 := 8192 * row, x1 := 8192 * (span.1 + span.2), y1 := 8192 * (row + 1) }
  (bodyInsts (s.cellsOf st) region (bandPlaces st.root ps)).map fun i => Piece.of (i.cls, i.shape)

/-- The ten tiles of a tile row, each with its pieces by class (R151, R156). -/
def State.rowTiles (s : State) (st : Stripe) (pass die : Nat) (ps : List BodyRec) (ty : Int) : List Tile :=
  let insts := fun (b : Box) => (bodyInsts (s.cellsOf st) b (bandPlaces st.root ps)).filter fun i => i.box.meetsInside b
  (List.range 10).map fun col =>
    { stripe := st.id, pass := pass, col := col, ty := ty
      pieces := byClass ((insts (tileBox die st.root.rows col ty)).map fun i => (i.cls, i.shape)) }

/-- A tile row enters the tile queue. -/
def Die.queueTiles (tiles : List Tile) (ty : Int) (seg prims n : Nat) (d : Die) : Die :=
  { d with tess := { d.tess with
      fineRow := ty + 1, queue := d.tess.queue ++ tiles, instances := wrapAdd d.tess.instances n
      counts := addCounts seg prims 0 d.tess.counts, waitCoarse := false, waitQueue := false } }

section
variable {s : State} {die : Nat} {st : Stripe} {pass : Nat} (hwork : s.workOf die = some (st, pass))
  (hr : s.renders die = true) (hblock : s.blockMissing st = false)
include hwork hr hblock

section
variable (hring : (s.die die).con.ringOf = some (st.id, pass))
  (hlast : (s.die die).tess.coarseRow + 1 ≤ (st.root.coarseRows : Int) - 1 + st.tables.lrK)
include hring hlast

/-- A band whose ring slot still holds a row that is needed waits. -/
theorem execTesseraCoarseBand_waits (hslot : (s.die die).con.ringLow ≤ (s.die die).tess.coarseRow + 1 - 128) :
    execTesseraCoarseBand die s = .next (s.modDie die fun d => { d with tess.waitRing := true }) := by
  simp only [execTesseraCoarseBand, hwork, hr, hblock, bne_eq_false_iff_eq.2 hring, decide_eq_false (not_lt.2 hlast), hslot]
  rfl

/-- A band whose blocks are there sends its row, where the die computes only its own columns. -/
theorem execTesseraCoarseBand_row {ps : List BodyRec} {seq : Nat} (hkept : st.root.streamBlocks ≤ 2048)
    (hslot : (s.die die).tess.coarseRow + 1 - 128 < (s.die die).con.ringLow) (howner : s.ownersOf die = [die])
    (hbody : s.body st pass (st.root.segmentOf (32 * ((s.die die).tess.coarseRow + 1) + 31)) = .read ps seq) :
    let row := (s.die die).tess.coarseRow + 1
    execTesseraCoarseBand die s = .next
      ((s.sendDensity st pass die die row (s.rowPieces st ps die row)).coarseRowDone st die seq row) := by
  simp only [execTesseraCoarseBand, hwork, hr, hblock, bne_eq_false_iff_eq.2 hring,
    decide_eq_false (not_lt.2 hlast), if_neg (not_le.2 hslot), hbody, howner, State.releaseRead_retained hkept]
  rfl

end

/-! ### The fine pass (R151, R154-R156, R167) -/

section
variable (hpart : st.root.hasColumn (512 * die) = true) (hlast : (s.die die).tess.fineRow ≤ st.root.lastTile)
include hpart hlast

/-- A tile row waits until the coarse pass leads it by the kernel radius. -/
theorem execTesseraFineBand_waitsCoarse (hlead : (s.die die).tess.coarseRow <
      min (2 * (s.die die).tess.fineRow + 1 + (st.tables.lrK : Int)) ((st.root.coarseRows : Int) - 1 + st.tables.lrK)) :
    execTesseraFineBand die s = .next (s.modDie die fun d => { d with tess := { d.tess with waitCoarse := true } }) := by
  simp only [execTesseraFineBand, hwork, hr, hblock, hpart, decide_eq_false (not_lt.2 hlast), hlead]
  rfl

section
variable {ps : List BodyRec} {seq : Nat}
  (hlead : min (2 * (s.die die).tess.fineRow + 1 + (st.tables.lrK : Int)) ((st.root.coarseRows : Int) - 1 + st.tables.lrK)
    ≤ (s.die die).tess.coarseRow)
  (hbody : s.body st pass (st.root.segmentOf (64 * (s.die die).tess.fineRow + 63)) = .read ps seq)
include hlead hbody

/-- A tile row waits until the tile queue takes it. -/
theorem execTesseraFineBand_waitsQueue
    (hroom : (s.die die).tess.takes (s.rowTiles st pass die ps (s.die die).tess.fineRow) = false) :
    execTesseraFineBand die s = .next (s.modDie die fun d =>
      { d with tess := { d.tess with waitQueue := true, waitCoarse := false } }) := by
  unfold State.rowTiles at hroom
  simp only [execTesseraFineBand, hwork, hr, hblock, hpart, decide_eq_false (not_lt.2 hlast),
    if_neg (not_lt.2 hlead), hbody, hroom]
  rfl

/-- A tile row that the queue takes is queued and counted. -/
theorem execTesseraFineBand_row (hkept : st.root.streamBlocks ≤ 2048)
    (hroom : (s.die die).tess.takes (s.rowTiles st pass die ps (s.die die).tess.fineRow) = true) :
    ∃ seg prims n, execTesseraFineBand die s = .next
      ((((s.modDie die (Die.queueTiles (s.rowTiles st pass die ps (s.die die).tess.fineRow) (s.die die).tess.fineRow seg prims
        n)).count die 8 n).count die 12 1).checkBounds st die seg) := by
  unfold State.rowTiles at hroom
  simp only [execTesseraFineBand, hwork, hr, hblock, hpart, decide_eq_false (not_lt.2 hlast),
    if_neg (not_lt.2 hlead), hbody, hroom, State.releaseRead_retained hkept, Bool.not_true, Bool.or_false,
    Bool.false_eq_true, if_false]
  exact ⟨_, _, _, rfl⟩

end
end
end

/-- A library fetch that succeeds at once counts the miss, and a correctable error if the read had one (R157, 04 R108). -/
theorem execLibraryFetch_fetched {s : State} {die : Nat} {st : Stripe} {pass : Nat} (hwork : s.workOf die = some (st, pass))
    (hr : s.renders die = true) (corrected ok2 : Bool) : execLibraryFetch die corrected true ok2 s = .next
      (let t := (s.modDie die fun d => { d with tess.cacheMiss := satInc d.tess.cacheMiss }).count die 10 1
       if corrected = true then t.linkCe die 1 else t) := by
  simp only [execLibraryFetch, hwork, hr]
  rfl

end Sys2Proof.Machine
end

section
/-! SUPPORT. Facet's tiles (06 R162-R172; 15 R387), and what the rows of Tessera and Facet do. -/

namespace Sys2Proof.Machine

/-! ### A die's first mismatch (15 R379-R387) -/

section
variable {s : State} {die : Nat} {d0 d1 : Word}

/-- A mismatch is counted on its die. -/
def Die.countMismatch (d : Die) : Die := { d with facetCount := satInc d.facetCount }

/-- A mismatch that is not permanent fails no unit. -/
theorem State.failUnit_mismatch (unit : Nat) : s.failUnit 0x0001 die unit false = s := by
  have hid : s.modDie die (fun d => d) = s := by
    show { s with dies := s.dies.modify die id } = s
    rw [List.modify_id]
  simpa [State.failUnit] using hid

/-- A die's first mismatch is counted, and enters an idle queue as a minor fault. -/
theorem State.detect_firstMismatch (hlen : die < s.dies.length) (hfirst : (s.die die).facetCount = 0)
    (ha : s.perim.active = none) (hw : s.perim.waiting = []) :
    let t := s.modDie die Die.countMismatch
    s.detect 0x0001 die 0 d0 d1 =
      t.enqueue (t.newRecord 0x0001 die 0 1 false false d0 d1 (s.before 0x0001 die 0)) := by
  have hcount : s.countCause 0x0001 die = (1, s.modDie die Die.countMismatch) := by
    have hdie : (s.modDie die Die.countMismatch).die die = (s.die die).countMismatch := State.die_modDie _ _ _ hlen
    refine Prod.ext ?_ rfl
    calc ((s.modDie die Die.countMismatch).die die).facetCount
        = satInc (s.die die).facetCount := by rw [hdie]; rfl
      _ = 1 := by rw [hfirst]; rfl
  simp [State.detect, State.react, State.failUnit_mismatch, hcount, ha, hw, causePermCount, causeClass,
    causePermAtDetection, mergeWaiting, State.queueDepth]

/-- What the first mismatch leaves: its count, and the device and the sequencer as they were. -/
theorem State.detect_firstMismatch_effect (hlen : die < s.dies.length) (hfirst : (s.die die).facetCount = 0)
    (ha : s.perim.active = none) (hw : s.perim.waiting = []) : let t := s.detect 0x0001 die 0 d0 d1
    t.die die = (s.die die).countMismatch ∧ t.ctl.dev = s.ctl.dev ∧ t.seq = s.seq := by
  rw [State.detect_firstMismatch hlen hfirst ha hw]
  exact ⟨(State.die_congr (State.enqueue_dies _ _) die).trans (State.die_modDie _ _ _ hlen), by simp, by simp⟩

end

/-! ### A tile is rendered (R162-R170) -/

/-- The check sums of a tile. -/
def Tile.sums (x : Tile) (st : Stripe) (die : Nat) : TileSum :=
  renderTile st.dose st.root.additive (x.pieces.map Piece.of) (tileSpan die st.root.rows x.col x.ty)

theorem Tile.renderTile_sums (x : Tile) (st : Stripe) (die : Nat) : renderTile st.dose st.root.additive
    (x.pieces.map Piece.of) (tileSpan die st.root.rows x.col x.ty) = x.sums st die := rfl

/-- The coverage buffer has room for a tile. -/
def Die.tileFits (d : Die) (st : Stripe) (die : Nat) (x : Tile) : Prop :=
  let span := tileSpan die st.root.rows x.col x.ty
  d.tess.outBytes + 4 * (span.2.1 * span.2.2.2) ≤ 2 ^ 21

theorem Die.tileFits_iff {d : Die} {st : Stripe} {die : Nat} {x : Tile} : d.tileFits st die x ↔
    decide (2 ^ 21 < d.tess.outBytes + 4 * ((tileSpan die st.root.rows x.col x.ty).2.1
      * (tileSpan die st.root.rows x.col x.ty).2.2.2)) = false := by
  rw [decide_eq_false_iff_not, not_lt]; rfl

/-- The counts of a rendered tile: edges, full pixels, passes of the union, excess cycles. -/
def State.countTile (s : State) (die edges full union excess : Nat) : State :=
  ((((s.count die 17 edges).count die 18 full).count die 19 union).modDie die fun d =>
    { d with tess := { d.tess with excess := satAdd d.tess.excess excess } }).count die 21 excess

/-- A tile passes on to the coverage buffer. -/
def Die.passTile (x : Tile) (rest : List Tile) (sum : TileSum) (seg : Nat) (d : Die) : Die :=
  { d with tess := { d.tess with
      queue := rest, rerender := false, passed := wrapAdd d.tess.passed 1
      tiles := d.tess.tiles ++ [{ col := x.col, ty := x.ty, px := sum.px }]
      counts := addCounts seg 0 sum.edges d.tess.counts } }

/-- A tile is kept to be rendered again. -/
def Die.keepTile (x : Tile) (diff : Int) (d : Die) : Die :=
  { d with tess := { d.tess with
      rerender := true, chkCol := x.col, chkRow := x.ty, chkStripe := x.stripe, chkDiff := diff } }

section
variable (s : State) (die edges full union excess : Nat)

@[simp] theorem State.countTile_seq : (s.countTile die edges full union excess).seq = s.seq := by simp [State.countTile]
@[simp] theorem State.countTile_out : (s.countTile die edges full union excess).out = s.out := by simp [State.countTile]
@[simp] theorem State.countTile_perim : (s.countTile die edges full union excess).perim = s.perim := by simp [State.countTile]
@[simp] theorem State.countTile_ctl : (s.countTile die edges full union excess).ctl = s.ctl := by simp [State.countTile]
@[simp] theorem State.countTile_length : (s.countTile die edges full union excess).dies.length = s.dies.length := by
  simp [State.countTile]

variable {die} (hlen : die < s.dies.length)
include hlen

/-- The counts of a tile touch counters of the die, and the excess cycles of its Facet. -/
theorem State.countTile_die : let t := s.countTile die edges full union excess
    (t.die die).tess = { (s.die die).tess with excess := satAdd (s.die die).tess.excess excess }
    ∧ (t.die die).con = (s.die die).con ∧ (t.die die).facetFailed = (s.die die).facetFailed
    ∧ (t.die die).facetCount = (s.die die).facetCount := by
  simp [State.countTile, State.die_modDie, hlen]

end

theorem execFacetTileRender_empty {s : State} {die : Nat} (h : (s.die die).tess.queue = []) (upset : Int) :
    execFacetTileRender die upset s = .next s := by
  simp only [execFacetTileRender, h]

section
variable {s : State} {die : Nat} {st : Stripe} {x : Tile} {rest : List Tile} {upset : Int}
  (hqueue : (s.die die).tess.queue = x :: rest) (hst : s.stripe? x.stripe = some st) (hr : s.renders die = true)
  (hok : (s.die die).facetFailed = false) (hfits : (s.die die).tileFits st die x)
include hqueue hst hr hok hfits

/-- A tile whose sums agree within the tolerance passes on (R170). -/
theorem execFacetTileRender_passes
    (h : ((x.sums st die).f + upset - (x.sums st die).t).natAbs ≤ (x.sums st die).tolerance) :
    ∃ union excess seg, execFacetTileRender die upset s = .next
      ((((s.countTile die (x.sums st die).edges (x.sums st die).full union excess).modDie die
        (Die.passTile x rest (x.sums st die) seg)).count die 16 1).checkBounds st die seg) := by
  unfold Tile.sums at h
  simp only [execFacetTileRender, hqueue, hst, hr, hok, Die.tileFits_iff.1 hfits, if_pos h, Bool.not_true,
    Bool.or_false, Bool.false_eq_true, if_false]
  exact ⟨_, _, _, rfl⟩

/-- A tile whose sums differ is kept and reported (R171, R172). -/
theorem execFacetTileRender_differs
    (h : (x.sums st die).tolerance < ((x.sums st die).f + upset - (x.sums st die).t).natAbs) :
    ∃ union excess d0 d1, execFacetTileRender die upset s = .next
      ((((s.countTile die (x.sums st die).edges (x.sums st die).full union excess).modDie die
        (Die.keepTile x ((x.sums st die).f + upset - (x.sums st die).t))).count die 20 1).detect 0x0001 die 0 d0 d1) := by
  unfold Tile.sums at h
  simp only [execFacetTileRender, hqueue, hst, hr, hok, Die.tileFits_iff.1 hfits, if_neg (not_le.2 h), Bool.not_true,
    Bool.or_false, Bool.false_eq_true, if_false]
  exact ⟨_, _, _, _, rfl⟩

end

/-- Settles O56: each row by the equations of its command, and the fields of the state that the equation names. -/
theorem renderRows : Obligations.RenderRows := by
  unfold Obligations.RenderRows
  refine ⟨fun s hnone => execStripeRenderBegin_none hnone, fun s st hnext hst hready hactive hfree hkept => ?begin,
    fun s die upset a b hidle => ⟨execTesseraCoarseBand_idle hidle, execTesseraFineBand_idle hidle,
      execLibraryFetch_idle hidle _ _ _, fun hempty => execFacetTileRender_empty hempty upset⟩,
    fun s die st pass hwork hr hblock hkept => ?bands,
    fun s die st pass c b hwork hr => execLibraryFetch_fetched hwork hr c b,
    fun s die st x rest upset hqueue hst hr hok hfits => ⟨fun hagree => ?passes,
      fun hdiffer hfirst hactive hwaiting => ?differs⟩⟩
  case begin =>
    refine ⟨_, execStripeRenderBegin_begins hnext hready hactive hfree hkept, fun i d hd hlive => ?_,
      ⟨_, s.passBegun_stripe hst, rfl, rfl⟩, rfl, rfl⟩
    exact ⟨_, State.passBegun_die hd hlive, rfl, rfl, rfl, rfl, rfl, rfl, rfl, rfl, rfl, rfl, rfl⟩
  case bands =>
    obtain ⟨hlen, -⟩ := State.renders_live hr
    refine ⟨fun hring hlast hslot => execTesseraCoarseBand_waits hwork hr hblock hring hlast hslot,
      fun ps seq hring hlast hslot hbody howner => ?row,
      fun hpart hlast hlead => execTesseraFineBand_waitsCoarse hwork hr hblock hpart hlast hlead,
      fun ps seq hpart hlast hlead hbody => ⟨fun hfull =>
        execTesseraFineBand_waitsQueue hwork hr hblock hpart hlast hlead hbody hfull, fun hroom => ?tiles⟩⟩
    case row =>
      exact ⟨_, execTesseraCoarseBand_row hwork hr hblock hring hlast hkept hslot howner hbody,
        s.sentRow_effect st pass seq _ _ hlen⟩
    case tiles =>
      obtain ⟨seg, prims, n, hexec⟩ := execTesseraFineBand_row hwork hr hblock hpart hlast hlead hbody hkept hroom
      refine ⟨_, hexec, ?_⟩
      simp [State.die_modDie, hlen, Die.queueTiles, State.rowTiles]
  case passes =>
    obtain ⟨hlen, -⟩ := State.renders_live hr
    obtain ⟨union, excess, seg, hexec⟩ := execFacetTileRender_passes hqueue hst hr hok hfits hagree
    obtain ⟨htess, hcon, -, -⟩ := s.countTile_die (x.sums st die).edges (x.sums st die).full union excess hlen
    refine ⟨_, hexec, ?_⟩
    beta_reduce
    simp [State.die_modDie, hlen, Die.passTile, htess, hcon, Tile.renderTile_sums]
  case differs =>
    obtain ⟨hlen, -⟩ := State.renders_live hr
    obtain ⟨union, excess, d0, d1, hexec⟩ := execFacetTileRender_differs hqueue hst hr hok hfits hdiffer
    obtain ⟨htess, -, hfailed, hcount⟩ := s.countTile_die (x.sums st die).edges (x.sums st die).full union excess hlen
    obtain ⟨hdie, hdev, hseq⟩ := State.detect_firstMismatch_effect (d0 := d0) (d1 := d1) (die := die)
      (s := ((s.countTile die (x.sums st die).edges (x.sums st die).full union excess).modDie die
        (Die.keepTile x ((x.sums st die).f + upset - (x.sums st die).t))).count die 20 1)
      (by simpa using hlen) (by simpa [State.die_modDie, hlen, Die.keepTile, hcount] using hfirst) (by simpa using hactive)
      (by simpa using hwaiting)
    refine ⟨_, hexec, ?_⟩
    beta_reduce
    rw [hdie, hdev, hseq]
    simp [Die.countMismatch, State.die_modDie, hlen, Die.keepTile, htess, hfailed, hok, hqueue, Tile.renderTile_sums]

end Sys2Proof.Machine
end

section
/-! SUPPORT. Submission and abort (09_stripes_ledger.md R222, R225, R226, R236): what the checks of a submission answer, the
stripe that joins the queue, and the end of a queued stripe. -/

namespace Sys2Proof.Machine

/-! ### What closing the gates, giving back the axes and reporting leave of the stripes -/

/-- What stripes are written from, and the stripes admitted: tables, libraries, staging areas, the queue. -/
def State.stripeView (s : State) : Tables × List Library × List Area × List Stripe :=
  (s.tables, s.libs, s.areas, s.seq.stripes)

/-- Steps that each keep the view keep it together. -/
theorem State.foldl_stripeView {α : Type} {f : State → α → State} (h : ∀ s x, (f s x).stripeView = s.stripeView)
    (xs : List α) (s : State) : (xs.foldl f s).stripeView = s.stripeView := by
  induction xs generalizing s with
  | nil => rfl
  | cons x xs ih => rw [List.foldl_cons, ih, h]

section
variable (s : State)

theorem State.stripeView_eq_iff {t : State} : t.stripeView = s.stripeView ↔
    t.tables = s.tables ∧ t.libs = s.libs ∧ t.areas = s.areas ∧ t.seq.stripes = s.seq.stripes := by
  simp [State.stripeView]

/-- A report keeps the view. -/
theorem State.stripeView_of_sameBut {t : State} (h : s.SameBut t) : t.stripeView = s.stripeView :=
  (congrArg State.stripeView h :)

@[simp] theorem State.signal_stripeView (v : Nat) : (s.signal v).stripeView = s.stripeView := by simp [State.stripeView]

@[simp] theorem State.count_stripeView (d i n : Nat) : (s.count d i n).stripeView = s.stripeView := by
  simp [State.stripeView]

@[simp] theorem State.modDies_stripeView (f : Die → Die) : (s.modDies f).stripeView = s.stripeView := rfl

@[simp] theorem State.modLanes_stripeView (f : Lane → Lane) : (s.modLanes f).stripeView = s.stripeView := rfl

@[simp] theorem State.modAxis_stripeView (a : Nat) (f : Axis → Axis) : (s.modAxis a f).stripeView = s.stripeView := rfl

@[simp] theorem State.modCompare_stripeView (u : Nat) (f : Compare → Compare) :
    (s.modCompare u f).stripeView = s.stripeView := rfl

@[simp] theorem State.shiftSource_stripeView (n : Nat) (d : Int) : (s.shiftSource n d).stripeView = s.stripeView := rfl

@[simp] theorem State.record_stripeView (ch : Nat) (src : TSource) (ws : List Word) :
    (s.record ch src ws).stripeView = s.stripeView := by
  unfold State.record
  extract_lets lost t
  have ht : t.stripeView = s.stripeView := by
    unfold t
    split
    · exact State.count_stripeView _ _ _ _
    · rfl
  exact ht

@[simp] theorem State.capture_stripeView (kind unit info : Nat) (pos : Int) :
    (s.capture kind unit info pos).stripeView = s.stripeView := by
  unfold State.capture
  split
  · rfl
  · exact State.record_stripeView _ _ _ _

@[simp] theorem State.locusIrq_stripeView (b : Nat) : (s.locusIrq b).stripeView = s.stripeView := by
  simp [State.locusIrq, apply_ite State.stripeView]

@[simp] theorem State.compareEnd_stripeView (u : Nat) (st : CmpState) : (s.compareEnd u st).stripeView = s.stripeView := by
  simp [State.compareEnd, apply_ite State.stripeView]

@[simp] theorem State.runCompares_stripeView (axis : Nat) (before : Int) :
    (s.runCompares axis before).stripeView = s.stripeView :=
  State.foldl_stripeView (fun t u => by simp [apply_ite State.stripeView]) _ s

/-- Index corrections that were put off are Locus's alone. -/
@[simp] theorem State.applyDeferred_stripeView : s.applyDeferred.stripeView = s.stripeView := by
  unfold State.applyDeferred
  extract_lets before d shift moved locus t
  have hshift (u : State) (n : Option Nat) (d : Int) : (shift u n d).stripeView = u.stripeView := by
    cases n with
    | none => rfl
    | some n => exact State.shiftSource_stripeView u n d
  have ht : t.stripeView = s.stripeView := (hshift _ _ _).trans (hshift _ _ _)
  split
  · exact ht
  · rw [State.runCompares_stripeView, ht]

@[simp] theorem State.countSlots_stripeView (st : Stripe) (p n : Nat) : (s.countSlots st p n).stripeView = s.stripeView :=
  State.foldl_stripeView (fun t d => by simp) _ s

@[simp] theorem State.endSlots_stripeView : s.endSlots.stripeView = s.stripeView := by
  unfold State.endSlots
  split
  · split
    · exact State.foldl_stripeView (fun t n => State.countSlots_stripeView t _ _ n) _ s
    · rfl
  · rfl

/-- The gates close on the lanes, Locus and the counters; the stripes stay. -/
@[simp] theorem State.closeGates_stripeView : s.closeGates.stripeView = s.stripeView := by
  unfold State.closeGates
  dsimp only
  rw [State.modDies_stripeView, State.applyDeferred_stripeView, State.modLanes_stripeView]
  exact State.endSlots_stripeView s

@[simp] theorem State.releaseAxes_stripeView : s.releaseAxes.stripeView = s.stripeView :=
  State.foldl_stripeView (fun t a => by simp [apply_ite State.stripeView]) _ _

@[simp] theorem State.setDev_stripeView (d : DevState) : (s.setDev d).stripeView = s.stripeView := by
  unfold State.setDev
  split
  · rfl
  · dsimp only
    rw [State.signal_stripeView]
    split <;> rfl

@[simp] theorem State.afterStripe_stripeView : s.afterStripe.stripeView = s.stripeView := by
  simp [State.afterStripe, apply_ite State.stripeView]

@[simp] theorem State.pruneSources_stripeView : s.pruneSources.stripeView = s.stripeView := rfl

@[simp] theorem State.updateUncomp_stripeView : s.updateUncomp.stripeView = s.stripeView := by
  simp [State.updateUncomp, State.stripeView]

variable (c : Ctx) (status : Nat) (res : List Nat)

/-- An interim entry is a report, and so is a final one (R60). -/
theorem State.interim_unreported : (s.interim c status res).unreported = s.unreported := by
  unfold State.interim
  dsimp only
  rw [← State.writeEntry_unreported s { ctx := c, more := true, status := status, res := res } 1]
  split <;> rfl

theorem State.final_unreported : (s.final c status res).unreported = s.unreported :=
  State.writeEntry_unreported s { ctx := c, more := false, status := status, res := res } 1

@[simp] theorem State.finish_stripeView : (s.finish c status res).stripeView = s.stripeView :=
  s.stripeView_of_sameBut (s.finish_unreported c status res)
@[simp] theorem State.final_stripeView : (s.final c status res).stripeView = s.stripeView :=
  s.stripeView_of_sameBut (s.final_unreported c status res)

@[simp] theorem State.updateUncomp_seq : s.updateUncomp.seq = s.seq := by simp [State.updateUncomp]
@[simp] theorem State.updateUncomp_areas : s.updateUncomp.areas = s.areas := by simp [State.updateUncomp]
@[simp] theorem State.updateUncomp_libs : s.updateUncomp.libs = s.libs := by simp [State.updateUncomp]
@[simp] theorem State.updateUncomp_hif : s.updateUncomp.hif = s.hif := by
  unfold State.updateUncomp State.updateReplace
  dsimp only
  split
  · exact State.signal_hif _ _
  · rfl

@[simp] theorem State.interim_seq : (s.interim c status res).seq = s.seq :=
  (congrArg State.seq (s.interim_unreported c status res) :)
@[simp] theorem State.interim_areas : (s.interim c status res).areas = s.areas :=
  (congrArg State.areas (s.interim_unreported c status res) :)
@[simp] theorem State.interim_libs : (s.interim c status res).libs = s.libs :=
  (congrArg State.libs (s.interim_unreported c status res) :)

end

/-! ### The command that owes its final entry (R60) -/

/-- Writing an entry that holds no reservation changes neither the commands that owe a final entry nor the ring generation. -/
theorem State.writeEntry_owing (s : State) {e : Entry} (hheld : e.ctx.held = none) (release : Nat) :
    (s.writeEntry e release).hif.owing = s.hif.owing ∧ (s.writeEntry e release).hif.gen = s.hif.gen := by
  rw [State.writeEntry_unheld s hheld]
  split
  · exact ⟨rfl, rfl⟩
  · split
    · exact ⟨rfl, rfl⟩
    · split
      · exact ⟨rfl, rfl⟩
      · split
        · obtain ⟨n, hhif⟩ := s.putEntry_hif e
          rw [hhif]
          exact ⟨rfl, rfl⟩
        · exact ⟨rfl, rfl⟩

/-- A command of the normal ring owes its final entry once its interim entry is accepted. -/
theorem State.interim_owing {s : State} {c : Ctx} (hheld : c.held = none) (hurgent : c.urgent = false)
    (hgen : c.gen = s.hif.gen) (status : Nat) (res : List Nat) :
    (s.interim c status res).hif.owing = s.hif.owing ++ [c] := by
  obtain ⟨howing, hgen'⟩ :=
    s.writeEntry_owing (e := { ctx := c, more := true, status := status, res := res }) hheld 1
  simp [State.interim, hurgent, hgen', hgen, howing]

/-! ### The checks of a submission (R220, R222) -/

/-- The header section of the area bound to a stripe is checked again. -/
def State.recheck (s : State) (id : Nat) : State :=
  { s with areas := s.areas.map fun (a : Area) => if a.bound == some id then s.checkHeader a else a }

/-- Without an area of the stripe's there is nothing to check. -/
theorem State.recheck_unbound {s : State} {id : Nat} (h : ∀ a ∈ s.areas, a.bound ≠ some id) : s.recheck id = s := by
  have hareas : s.areas.map (fun a => if a.bound == some id then s.checkHeader a else a) = s.areas :=
    (List.map_congr_left fun a ha => if_neg (by simpa using h a ha)).trans (List.map_id' _)
  unfold State.recheck
  rw [hareas]

theorem descriptor_id {p : Packet} {mk : Bool} {d : Desc} (h : descriptor p mk = some d) : d.id = p.param 0 := by
  unfold descriptor at h
  dsimp only at h
  split at h
  · nomatch h
  · rw [← Option.some.inj h]

/-- A stripe that waits in the queue and does not execute (R221). -/
def Stripe.Queued (st : Stripe) : Prop := st.executing = false ∧ st.phase = .queued

section
variable {s : State} {c : Ctx} {d : Desc} {st : Stripe}

theorem State.newStripe_queued (s : State) (c : Ctx) (d : Desc) (area : Nat) (root : Root) (mk : Option (Source × Makeup)) :
    (s.newStripe c d area root mk).Queued := ⟨rfl, rfl⟩

/-- Check 6 adds only the uncompensable columns. -/
theorem State.columnCheck_queued {x : Stripe × List (Nat × Rect)} (h : s.columnCheck st = .inr x) (hq : st.Queued) :
    x.1.Queued := by
  unfold State.columnCheck at h
  dsimp only at h
  split at h
  · nomatch h
  · split at h
    · nomatch h
    · split at h
      · nomatch h
      · rw [← Sum.inr.inj h]
        exact hq

/-- Check 7 adds only the rate and the prefill depth. -/
theorem State.rateCheck_queued {rects : List (Nat × Rect)} {a : Admitted} (h : s.rateCheck d st rects = .inr a)
    (hq : st.Queued) : a.stripe.Queued := by
  unfold State.rateCheck at h
  dsimp only at h
  split at h
  · nomatch h
  · rw [← Sum.inr.inj h]
    exact hq

variable {p : Packet} {mk : Bool}

/-- A submission that passes every check gives a queued stripe. -/
theorem State.admission_queued {a : Admitted} (h : s.admission p c mk = .inr a) : a.stripe.Queued := by
  unfold State.admission at h
  split at h
  · nomatch h
  · split at h
    · nomatch h
    · split at h
      · nomatch h
      · generalize (if mk = true then _ else none) = source at h
        dsimp only at h
        split at h
        · nomatch h
        · split at h
          · nomatch h
          · next hcolumns => exact State.rateCheck_queued h (State.columnCheck_queued hcolumns (s.newStripe_queued ..))

/-- Check 1: the descriptor. -/
theorem State.admission_wrong (h : descriptor p mk = none) : s.admission p c mk = .inl (refuse badParam) := by
  simp [State.admission, h]

/-- Check 2: the stripe's area. -/
theorem State.admission_unbound (hd : descriptor p mk = some d) (h : ∀ a ∈ s.areas, a.bound ≠ some d.id) :
    s.admission p c mk = .inl (refuse stripeUnbound) := by
  have hnone : s.areas.findIdx? (fun a => a.bound == some d.id) = none := by simpa using h
  simp [State.admission, State.bound, hd, hnone]

end

/-! ### STRIPE_SUBMIT and MAKEUP_SUBMIT (R225, R226) -/

/-- The stripe is the youngest of the queue, and the latest one with an uncompensable column if it has one. -/
def State.joined (s : State) (st : Stripe) : State :=
  { s with seq := { s.seq with
      stripes := s.seq.stripes ++ [st]
      worn := if st.uncomp.isEmpty then s.seq.worn else some st } }

/-- A stripe that loses no group-shot joins the queue, with no entry open to close. -/
theorem State.queueStripe_eq_joined {s : State} {a : Admitted} (hrects : a.rects = []) (hopened : s.seq.opened = []) :
    s.queueStripe a = (s.joined a.stripe).updateUncomp := by
  simp [State.queueStripe, State.joined, hrects, State.flushStripe, State.closeEntries, hopened]

/-- What an admitted submission answers: whether its rate is the one asked for, and the results of R225. -/
def Admitted.status (a : Admitted) (p : Packet) : Nat :=
  if a.stripe.rate = p.param 2 % 65536 then ok else admitRateLimited

def Admitted.results (a : Admitted) : List Nat := [a.stripe.rate, a.stripe.prefill, a.stripe.uncompColumns, a.rMin]

/-- Outside the ledger's reserve nothing is cut short (R241). -/
theorem State.checkReserve_free {s : State} (h : s.seq.reserve = false) : s.checkReserve = s := by
  simp [State.checkReserve, h]

section
variable {s : State} {p : Packet} {c : Ctx} {mk : Bool}

theorem submitBody_wrong (h : descriptor p mk = none) : submitBody mk p c s = s.finish c badParam [] := by
  simp [submitBody, h, State.admission_wrong, refuse]

/-- A refusal that leaves no cause in the area answers its status. -/
theorem submitBody_refused {r : Refused} (hd : (descriptor p mk).isSome = true)
    (h : (s.recheck (p.param 0)).admission p c mk = .inl r) (hcause : r.cause = none) :
    submitBody mk p c s = (s.recheck (p.param 0)).finish c r.status r.res := by
  unfold State.recheck at h
  simp only [submitBody, hd, h, hcause, if_true]
  rfl

variable {a : Admitted} (hd : (descriptor p mk).isSome = true)
  (h : (s.recheck (p.param 0)).admission p c mk = .inr a)
include hd h

/-- With admit_only the submission is answered and nothing more (R226). -/
theorem submitBody_admitOnly (honly : p.admitOnly = true) :
    submitBody mk p c s = (s.recheck (p.param 0)).finish c (a.status p) a.results := by
  unfold State.recheck at h
  simp only [submitBody, hd, h, honly, if_true]
  rfl

/-- Else the stripe joins the queue and the interim entry is written. -/
theorem submitBody_queues (honly : p.admitOnly = false) : submitBody mk p c s =
    (((s.recheck (p.param 0)).queueStripe a).interim c (a.status p) a.results).checkReserve := by
  unfold State.recheck at h
  simp only [submitBody, hd, h, honly, if_true, Bool.false_eq_true, if_false]
  rfl

/-- One that loses no group-shot changes no more of the queue, outside the ledger's reserve. -/
theorem submitBody_joins (honly : p.admitOnly = false) (hrects : a.rects = []) (hopened : s.seq.opened = [])
    (hreserve : s.seq.reserve = false) : submitBody mk p c s =
      ((s.recheck (p.param 0)).joined a.stripe).updateUncomp.interim c (a.status p) a.results := by
  rw [submitBody_queues hd h honly, State.queueStripe_eq_joined (s := s.recheck _) hrects hopened, State.checkReserve_free]
  rw [State.interim_seq, State.updateUncomp_seq]
  exact hreserve

end

/-! ### The end of a queued stripe (R236) -/

/-- What is open of a queued stripe goes unwritten. -/
theorem State.closeStripe_queued (s : State) {st : Stripe} (hqueued : st.executing = false) :
    s.closeStripe st = { s with seq.opened := s.seq.opened.filter fun e => e.stripe != st.id } := by
  simp [State.closeStripe, hqueued]

/-- A queued stripe leaves the queue and frees its area. -/
theorem State.endStripe_queued {s : State} {id : Nat} {st : Stripe}
    (hfind : s.seq.stripes.find? (fun x => x.id == id) = some st) (hqueued : st.executing = false) (status : Option Nat) :
    (s.endStripe id status).stripeView =
      (s.tables, s.libs, (s.freeArea id).areas, s.seq.stripes.filter fun x => x.id != id) := by
  unfold State.endStripe
  rw [hfind]
  dsimp -zeta only
  rw [State.closeStripe_queued s hqueued]
  extract_lets closedSeq closed last code head leftSeq left unpausedSeq unpaused freed
  have hunpaused : unpaused.stripeView = (s.tables, s.libs, s.areas, s.seq.stripes.filter fun x => x.id != id) := by
    unfold unpaused
    split <;> rfl
  obtain ⟨htables, hlibs, hareas, hstripes⟩ := by simpa [State.stripeView] using hunpaused
  rw [State.final_stripeView, State.updateUncomp_stripeView, State.pruneSources_stripeView, State.modDies_stripeView]
  simp [State.stripeView, State.freeArea, htables, hlibs, hareas, hstripes]

/-- No area is bound to a stripe once its area is free. -/
theorem State.freeArea_bound (s : State) (id : Nat) : ∀ a ∈ (s.freeArea id).areas, a.bound ≠ some id := by
  intro a ha
  obtain ⟨b, -, rfl⟩ := List.mem_map.1 ha
  split
  · exact nofun
  · assumption

/-- The removal of a queued stripe ends it, whether or not its start compare was armed. -/
theorem State.removeStripe_queued {s : State} {st : Stripe}
    (hfind : s.seq.stripes.find? (fun x => x.id == st.id) = some st) (hqueued : st.executing = false) (status : Nat) :
    (s.removeStripe st status).stripeView =
      (s.tables, s.libs, (s.freeArea st.id).areas, s.seq.stripes.filter fun x => x.id != st.id) := by
  unfold State.removeStripe
  extract_lets head closed ended
  have hclosed : closed.stripeView = s.stripeView := by
    unfold closed
    split
    · exact s.closeGates_stripeView
    · rfl
  obtain ⟨htables, hlibs, hareas, hstripes⟩ := s.stripeView_eq_iff.1 hclosed
  have hended : ended.stripeView =
      (s.tables, s.libs, (s.freeArea st.id).areas, s.seq.stripes.filter fun x => x.id != st.id) := by
    rw [State.endStripe_queued (by rw [hstripes, hfind]) hqueued]
    simp [State.freeArea, htables, hlibs, hareas, hstripes]
  split
  · rw [State.afterStripe_stripeView, hended]
  · exact hended

section
variable {s : State} {p : Packet} {c : Ctx}

/-- An id that no admitted stripe has is unknown, but for the one that names every stripe. -/
theorem stripeAbortBody_unknown (hall : p.param 0 ≠ 0xFFFFFFFF) (h : ∀ st ∈ s.seq.stripes, st.id ≠ p.param 0) :
    stripeAbortBody p c s = s.finish c stripeUnknown [] := by
  have hnone : s.seq.stripes.filter (fun st => p.param 0 == 0xFFFFFFFF || st.id == p.param 0) = [] := by
    simpa [hall] using h
  simp [stripeAbortBody, hnone, hall]

/-- The only stripe, queued, is removed. -/
theorem stripeAbortBody_queued {st : Stripe} (hstripes : s.seq.stripes = [st]) (hid : p.param 0 = st.id)
    (hqueued : st.executing = false) :
    stripeAbortBody p c s = (s.removeStripe st stripeAborted).finish c ok [1, 0] := by
  simp [stripeAbortBody, State.executing?, hstripes, hid, hqueued]

end

/-- A submission that runs does what its body makes of the packet. -/
theorem exec_submit {s : State} {p : Packet} (mk : Bool) (h : s.Takes (if mk then 0x0302 else 0x0300) p) :
    exec (if mk then .makeupSubmit p else .stripeSubmit p) s =
      .next (submitBody mk (Packet.ofRow (if mk then 0x0302 else 0x0300) p) (s.cmd (if mk then 0x0302 else 0x0300) p) s) := by
  cases mk
  · exact State.direct_takes h (submitBody false)
  · exact State.direct_takes h (submitBody true)

/-- Settles O25: the checks of a submission decide its answer, and an abort removes the stripes it names. -/
theorem submitRows : Obligations.SubmitRows := by
  unfold Obligations.SubmitRows
  refine ⟨fun s p mk => ?submit, fun s p htakes hall hid => ?unknown, fun s p st htakes hstripes hid hqueued => ?abort⟩
  case submit =>
    extract_lets op run s'
    intro htakes
    have hrun : run p = .next (submitBody mk (Packet.ofRow op p) (s.cmd op p) s) := exec_submit mk htakes
    have hparam := Packet.ofRow_param op p 0
    have hs' : s.recheck ((Packet.ofRow op p).param 0) = s' := by rw [hparam]; rfl
    rw [hrun]
    refine ⟨fun hd => ?wrong, fun d hd hareas => ?unbound, fun d a hd hadm honly => ?admitOnly,
      fun d a hd hadm honly hrects hopened hreserve => ?queues⟩
    case wrong => rw [submitBody_wrong hd]
    case unbound =>
      have hsame := State.recheck_unbound (descriptor_id hd ▸ hareas)
      rw [submitBody_refused (Option.isSome_of_eq_some hd) (hsame.symm ▸ State.admission_unbound hd hareas) rfl, hsame]
      rfl
    case admitOnly =>
      rw [submitBody_admitOnly (Option.isSome_of_eq_some hd) (hs' ▸ hadm) ((Packet.ofRow_admitOnly op p).trans honly), hs']
      exact ⟨_, rfl, State.finish_seq .., State.finish_perim .., State.finish_areas ..⟩
    case queues =>
      obtain ⟨hwaits, hphase⟩ := State.admission_queued hadm
      rw [submitBody_joins (Option.isSome_of_eq_some hd) (hs' ▸ hadm) ((Packet.ofRow_admitOnly op p).trans honly) hrects
        hopened hreserve, hs']
      exact ⟨_, rfl, (State.interim_seq ..).trans (State.updateUncomp_seq _), hwaits, hphase, rfl,
        fun hurgent => (State.interim_owing rfl hurgent (by simp; rfl) ..).trans (by simp; rfl), by simp [State.joined],
        by simp [State.joined, s']⟩
  case unknown =>
    rw [← Packet.ofRow_param 0x0301] at hall
    have hid' : ∀ st ∈ s.seq.stripes, st.id ≠ (Packet.ofRow 0x0301 p).param 0 := by simpa using hid
    exact (State.direct_takes htakes stripeAbortBody).trans (by rw [stripeAbortBody_unknown hall hid'])
  case abort =>
    have hrun : exec (.stripeAbort p) s = .next (stripeAbortBody (Packet.ofRow 0x0301 p) (s.cmd 0x0301 p) s) :=
      State.direct_takes htakes stripeAbortBody
    have hview := ((s.removeStripe st stripeAborted).finish_stripeView (s.cmd 0x0301 p) ok [1, 0]).trans
      (State.removeStripe_queued (by simp [hstripes]) hqueued _)
    obtain ⟨htables, hlibs, hareas, hleft⟩ := by simpa [State.stripeView, hstripes] using hview
    rw [hrun, stripeAbortBody_queued hstripes ((Packet.ofRow_param 0x0301 p 0).trans hid) hqueued]
    exact ⟨_, rfl, by simp [hleft], by simpa [hareas] using s.freeArea_bound st.id, by simp [hlibs], by simp [htables]⟩

end Sys2Proof.Machine
end

section
/-! SUPPORT. Lanes and their heads: what an event does to one lane alone, the head's warning and trip, and the frame that
leaves (10_rolgo_lanes.md R253-R260, R271-R273, R276). -/

namespace Sys2Proof.Machine

/-! ### One lane alone -/

section
variable {s : State} {n : Nat}

/-- Two updates that agree on the lane are the same. -/
theorem State.modLane_congr {f g : Lane → Lane} (h : f (s.lane n) = g (s.lane n)) : s.modLane n f = s.modLane n g := by
  refine State.modDie_congr ?_
  have hlanes : (s.die (n / 12)).lanes.modify (n % 12) f = (s.die (n / 12)).lanes.modify (n % 12) g := by
    apply List.ext_getElem?
    intro j
    by_cases hj : n % 12 = j
    · subst hj
      cases hx : (s.die (n / 12)).lanes[n % 12]? with
      | none => simp [hx]
      | some x =>
        have hl : s.lane n = x := by simp [State.lane, List.getD_eq_getElem?_getD, hx]
        simpa [hx, hl] using h
    · simp [hj]
  rw [hlanes]

/-- An update that leaves the lane as it is leaves the device as it is. -/
theorem State.modLane_self {f : Lane → Lane} (h : f (s.lane n) = s.lane n) : s.modLane n f = s := by
  rw [State.modLane_congr (g := id) h]
  exact (State.foldl_modLane [] (fun (_ : Nat) l => l) s n).symm

/-- A lane that has its frames is one of the device's. -/
theorem State.lt_nLanes_of_framesOn (hon : s.framesOn n = true) : n < s.nLanes := by
  simp only [State.framesOn, Bool.and_eq_true, decide_eq_true_eq] at hon
  obtain ⟨⟨hn, -⟩, -⟩ := hon
  exact hn

theorem State.Inv.hasLane_of_framesOn (hinv : s.Inv) (hon : s.framesOn n = true) : s.hasLane n :=
  hinv.hasLane (State.lt_nLanes_of_framesOn hon)

/-- What an update of one lane says of the device. -/
theorem State.modLane_effect (hlane : s.hasLane n) {f : Lane → Lane} {l : Lane} (h : f (s.lane n) = l) :
    (s.modLane n f).lane n = l ∧ (∀ m, m ≠ n → (s.modLane n f).lane m = s.lane m) ∧ (s.modLane n f).out = s.out
      ∧ (s.modLane n f).hif = s.hif :=
  ⟨(State.lane_modLane hlane f).trans h, fun _ hm => State.lane_modLane_of_ne hm f, rfl, rfl⟩

theorem State.hasLane_modLane (f : Lane → Lane) (m : Nat) : (s.modLane n f).hasLane m ↔ s.hasLane m := by
  unfold State.hasLane State.modLane
  by_cases hdie : m / 12 = n / 12
  · cases hd : s.dies[n / 12]? <;> simp [State.die_eq_getElem?, hdie, hd]
  · simp [hdie]

/-! ### The head's warning and trip (R276) -/

/-- A head that has neither a new warning nor a new trip: the lane's reports follow it, and nothing else happens. -/
theorem State.headEval_calm (hlive : (s.lane n).retired = false)
    (hwarn : (s.lane n).warns = true → (s.lane n).headWarn = true)
    (htrip : (s.lane n).trips = true → (s.lane n).headTrip = true) :
    s.headEval n = s.modLane n fun l => { l with headWarn := l.warns, headTrip := l.trips } := by
  have hnoWarn : ((s.lane n).warns && !(s.lane n).headWarn) = false := by simpa using hwarn
  have hnoTrip : ((s.lane n).trips && !(s.lane n).headTrip) = false := by simpa using htrip
  simp only [State.headEval, hlive, hnoWarn, hnoTrip, Bool.false_and, Bool.false_eq_true, if_false]
  exact State.modLane_congr rfl

/-- With both reports as the head has them, nothing happens. -/
theorem State.headEval_same (hwarn : (s.lane n).headWarn = (s.lane n).warns) (htrip : (s.lane n).headTrip = (s.lane n).trips) :
    s.headEval n = s := by
  cases hret : (s.lane n).retired with
  | false =>
    rw [State.headEval_calm hret (fun h => hwarn.trans h) (fun h => htrip.trans h)]
    exact State.modLane_self (by rw [← hwarn, ← htrip])
  | true =>
    have hnoTrip : ((s.lane n).state == .draining && (s.lane n).trips && !(s.lane n).headTrip) = false := by simp [htrip]
    simp only [State.headEval, hret, hnoTrip, Bool.false_and, Bool.false_eq_true, if_false, if_true]
    exact State.modLane_self (by rw [← htrip])

/-- An update of the lane after which its reports are as the head has them. -/
theorem State.headEval_modLane (hlane : s.hasLane n) {f : Lane → Lane} (hwarn : (f (s.lane n)).headWarn = (f (s.lane n)).warns)
    (htrip : (f (s.lane n)).headTrip = (f (s.lane n)).trips) : (s.modLane n f).headEval n = s.modLane n f :=
  State.headEval_same (by rwa [State.lane_modLane hlane]) (by rwa [State.lane_modLane hlane])

end

/-! ### The frame that leaves (R253) -/

/-- A lane but for what the sending of a frame changes. -/
def Lane.unsent (l : Lane) : Lane :=
  { l with recs := [], elems := [], fseq := 0, nFrames := 0, errInject := false, tx := ⟨0, false, 0⟩, prbs31 := none
           stuffMax := 0, echoes := [] }

/-- The device after a frame's counts (17 Table 17-5), and the free values that the frame takes. -/
def State.frameCounted (s : State) (n carried ended : Nat) : State :=
  let e := 64 + 8 * (n % 12)
  (({ s with free := s.free + 2 }.count (n / 12) e 1).count (n / 12) (e + 1) carried).count (n / 12) (e + 2) ended

section
variable (s : State) (n carried ended : Nat)

@[simp] theorem State.frameCounted_out : (s.frameCounted n carried ended).out = s.out := by simp [State.frameCounted]
@[simp] theorem State.frameCounted_hif : (s.frameCounted n carried ended).hif = s.hif := by simp [State.frameCounted]
@[simp] theorem State.frameCounted_seq : (s.frameCounted n carried ended).seq = s.seq := by simp [State.frameCounted]
@[simp] theorem State.frameCounted_ctl : (s.frameCounted n carried ended).ctl = s.ctl := by simp [State.frameCounted]
@[simp] theorem State.frameCounted_dies_length : (s.frameCounted n carried ended).dies.length = s.dies.length := by
  simp [State.frameCounted]

/-- Counting leaves every lane alone. -/
theorem State.count_lane (d i k m : Nat) : (s.count d i k).lane m = s.lane m :=
  State.lane_of_sameBut (State.count_unreported s d i k) m

@[simp] theorem State.frameCounted_lane (m : Nat) : (s.frameCounted n carried ended).lane m = s.lane m := by
  simp only [State.frameCounted, State.count_lane]
  exact State.lane_congr rfl m

theorem State.hasLane_frameCounted (m : Nat) : (s.frameCounted n carried ended).hasLane m ↔ s.hasLane m := by
  refine State.hasLane_congr (by simp) fun j => ?_
  simp only [State.frameCounted, State.die_lanes_of_sameBut (State.count_unreported _ _ _ _)]
  exact congrArg Die.lanes (State.die_congr rfl j)

end

section
variable {s : State} {n : Nat}

/-- Whatever a lane sends, it is one frame, and its lane changes only in what a frame changes. -/
theorem State.sendFrame_effect (hlane : s.hasLane n) (control : Bool) : let t := s.sendFrame n control
    (t.lane n).unsent = (s.lane n).unsent ∧ (∃ bits, t.out = s.out ++ [.frame n bits])
      ∧ (∀ m, m ≠ n → t.lane m = s.lane m) ∧ t.hasLane n ∧ t.hif = s.hif ∧ t.seq = s.seq := by
  obtain ⟨f, carried, ended, bits, hsend, hf⟩ : ∃ f carried ended bits,
      s.sendFrame n control = ((s.modLane n f).frameCounted n carried ended).emit (.frame n bits) ∧
        ∀ l, Lane.unsent (f l) = l.unsent := ⟨_, _, _, _, rfl, fun _ => rfl⟩
  have hsent (m : Nat) : (s.sendFrame n control).lane m = (s.modLane n f).lane m := by
    rw [hsend, State.lane_congr (State.emit_dies _ _), State.frameCounted_lane]
  dsimp only
  refine ⟨?_, ⟨bits, by simp [hsend]⟩, fun m hm => (hsent m).trans (State.lane_modLane_of_ne hm f), ?_, by simp [hsend],
    by simp [hsend]⟩
  · rw [hsent, State.lane_modLane hlane, hf]
  · rw [hsend]
    exact (State.hasLane_frameCounted ..).2 ((State.hasLane_modLane ..).2 hlane)

/-! ### START, and the end of a retrain (R266, R267, R273) -/

/-- A lane with START alone to send. -/
def Lane.starting (l : Lane) : Lane := { l with elems := [Elem.of 0x05 0 []] }

/-- START leaves in one frame, and the lane is in L0 with the elements that waited. -/
theorem State.startLane_effect (hlane : s.hasLane n) : let t := s.startLane n
    (∃ l : Lane, l.unsent = (s.lane n).unsent ∧ t.lane n = l.enterL0 (s.lane n).elems)
      ∧ (∃ bits, t.out = s.out ++ [.frame n bits]) ∧ (∀ m, m ≠ n → t.lane m = s.lane m)
      ∧ t.hif = s.hif ∧ t.seq = s.seq := by
  obtain ⟨hunsent, ⟨bits, hout⟩, hother, hhas, hhif, hseq⟩ :=
    State.sendFrame_effect ((State.hasLane_modLane Lane.starting n).2 hlane) true
  have heq : s.startLane n = ((s.modLane n Lane.starting).sendFrame n true).modLane n fun l => l.enterL0 (s.lane n).elems := rfl
  rw [State.lane_modLane hlane] at hunsent
  dsimp only
  rw [heq]
  exact ⟨⟨_, hunsent, State.lane_modLane hhas _⟩, ⟨bits, hout⟩, fun m hm => (State.lane_modLane_of_ne hm _).trans
    ((hother m hm).trans (State.lane_modLane_of_ne hm _)), hhif, hseq⟩

/-- A lane that enters L0 keeps what its head said of a trip. -/
theorem Lane.enterL0_trip {l x : Lane} (h : l.unsent = x.unsent) (es : List Elem) :
    (l.enterL0 es).headTrip = x.headTrip ∧ (l.enterL0 es).trips = x.trips :=
  ⟨(congrArg Lane.headTrip h :), (congrArg Lane.trips h :)⟩

/-- With no stripe admitted no PASS_START is awaited. -/
theorem State.passStartAgain_idle (h : s.seq.stripes = []) : s.passStartAgain n = s := by
  simp [State.passStartAgain, h]

/-- A retrain that completes, with no new trip and no stripe: START goes out, and nothing else happens. -/
theorem execRetrainComplete_starts (hlane : s.hasLane n) (hon : s.framesOn n = true) (hstate : (s.lane n).state = .retraining)
    (htrip : (s.lane n).headTrip = (s.lane n).trips) (hnone : s.hif.busy = none) (hstripes : s.seq.stripes = []) :
    execRetrainComplete n s = .next (s.startLane n) := by
  obtain ⟨⟨l, hunsent, hl⟩, -, -, hhif, hseq⟩ := State.startLane_effect hlane
  obtain ⟨hheld, htrips⟩ := Lane.enterL0_trip hunsent (s.lane n).elems
  have heval : (s.startLane n).headEval n = s.startLane n :=
    State.headEval_same (by rw [hl]; rfl) (by rw [hl, hheld, htrips, htrip])
  simp only [execRetrainComplete, hon, hstate, heval]
  rw [State.passStartAgain_idle (by rw [hseq, hstripes]), State.busyCheck_of_none (by rw [hhif, hnone])]
  rfl

/-! ### Bring-up (Table 10-9, R267, R268) -/

section
variable (hlane : s.hasLane n) (hon : s.framesOn n = true) (hstate : (s.lane n).state = .training)
  (hnone : s.hif.busy = none)
include hlane hon hstate hnone

/-- A step of bring-up that only changes its lane, and nothing of what the head reports. -/
theorem execLaneTrainStepDone_changes {f : Lane → Lane} (hstep : s.trainStep n = s.modLane n f)
    (hwarn : (f (s.lane n)).headWarn = (f (s.lane n)).warns) (htrip : (f (s.lane n)).headTrip = (f (s.lane n)).trips) :
    execLaneTrainStepDone n s = .next (s.modLane n f) := by
  simp only [execLaneTrainStepDone, hon, hstate, hstep, State.headEval_modLane hlane hwarn htrip]
  rw [State.busyCheck_of_none (by simpa using hnone)]
  rfl

/-- The end of a rate check that only changes its lane, and nothing of what the head reports. -/
theorem execRateCheckDone_changes {failed : Nat} {eye : Nat × Nat} {f : Lane → Lane}
    (hcheck : s.rateChecked n failed eye = s.modLane n f) (hwarn : (f (s.lane n)).headWarn = (f (s.lane n)).warns)
    (htrip : (f (s.lane n)).headTrip = (f (s.lane n)).trips) : execRateCheckDone n failed eye s = .next (s.modLane n f) := by
  simp only [execRateCheckDone, hon, hstate, hcheck, State.headEval_modLane hlane hwarn htrip]
  rw [State.busyCheck_of_none (by simpa using hnone)]
  rfl

end

/-- A lane at another step of its bring-up. -/
def Lane.atStep (k : Nat) (l : Lane) : Lane := { l with step := k }

/-- A lane whose return is locked sends HELLO, and is at step 4. -/
def Lane.greets (arg : Word) (l : Lane) : Lane := { l.addElem 0x02 arg [] false with step := 4, retLocked := true }

theorem Lane.greets_eq (arg : Word) (l : Lane) : l.greets arg = { l with
    step := 4, retLocked := true
    elems := l.elems ++
      [{ type := 2, ackReq := false, seq := l.elemSeq, tries := 0, due := true, data := [], arg := arg }] } := by
  simp [Lane.greets, Lane.addElem, Elem.of]

theorem State.trainStep_one (h : (s.lane n).step = 1) : s.trainStep n = s.modLane n (Lane.atStep 2) := by
  simp only [State.trainStep, h]
  rfl

theorem State.trainStep_two (h : (s.lane n).step = 2) : s.trainStep n = s.modLane n (Lane.atStep 3) := by
  simp only [State.trainStep, h]
  rfl

theorem State.trainStep_three (h : (s.lane n).step = 3) : s.trainStep n = s.modLane n (Lane.greets (s.helloArg n)) := by
  simp only [State.trainStep, h]
  rfl

/-- A lane after a rate's check that passed at the highest rate: START follows. -/
def Lane.topPassed (eye : Nat × Nat) (l : Lane) : Lane := { l with eyeRet := eye, lastPass := some l.trying, step := 6 }

/-- A lane that is taken down (R268). -/
def Lane.wentDown (l : Lane) : Lane :=
  { l.hushed with state := .down, power := .off, retLocked := false, step := 0, elems := [], hello := false }

theorem State.laneDown_unanswered (s : State) (n : Nat) : s.laneDown n false = s.modLane n Lane.wentDown := rfl

/-- A check that passes at the highest rate leads to step 6 (R267). -/
theorem State.rateChecked_top (hlane : s.hasLane n) {eye : Nat × Nat} (hstep : (s.lane n).step = 5)
    (hfirst : (s.lane n).fallBack = false) (htop : min (s.lane n).target (s.lane n).headRate ≤ (s.lane n).trying)
    (heye : forwardEyeOk (s.lane n).eye = true) (heyeRet : returnEyeOk eye = true) :
    s.rateChecked n 0 eye = s.modLane n (Lane.topPassed eye) := by
  simp only [State.rateChecked, State.nextRate, State.modLane_modLane, State.lane_modLane hlane, Function.comp_def, hstep, hfirst,
    heye, heyeRet, htop, beq_self_eq_true, Bool.and_self, Bool.false_eq_true, ne_eq, not_true_eq_false, if_false, if_true,
    Nat.reduceEqDiff]
  rfl

/-- A check that fails at 2.5 Gb/s, with no rate passed before, takes the lane down (R268). -/
theorem State.rateChecked_fails (hlane : s.hasLane n) {failed : Nat} {eye : Nat × Nat} (hstep : (s.lane n).step = 5)
    (hlast : (s.lane n).lastPass = none) (htrying : (s.lane n).trying = 0) (hfailed : failed ≠ 0) :
    s.rateChecked n failed eye = s.modLane n fun l => Lane.wentDown { l with eyeRet := eye } := by
  simp only [State.rateChecked, State.laneDown_unanswered, State.modLane_modLane, State.lane_modLane hlane, Function.comp_def,
    hstep, hlast, htrying, beq_false_of_ne hfailed, Bool.false_and, Bool.or_true, decide_true, Bool.false_eq_true, ne_eq,
    not_true_eq_false, if_false, if_true, Nat.reduceEqDiff]

/-- Steps 1 to 4 that do not complete in time take the lane down (R268). -/
theorem execLaneTrainTimeout_down (hon : s.framesOn n = true) (hstate : (s.lane n).state = .training)
    (hnone : s.hif.busy = none) (hstep : (s.lane n).step ≤ 4) :
    execLaneTrainTimeout n s = .next (s.modLane n Lane.wentDown) := by
  have hnot8 : (s.lane n).step ≠ 8 := by omega
  simp only [execLaneTrainTimeout, State.laneDown_unanswered, hon, hstate, hnot8, Nat.not_lt.2 hstep, Bool.not_true,
    bne_self_eq_false, Bool.or_self, Bool.false_eq_true, if_false]
  rw [State.busyCheck_of_none (by simpa using hnone)]

end

/-- Settles O41: an element becomes due again; each other event changes its lane alone, by the laws of its body above. -/
theorem laneTimers : Obligations.LaneTimers := by
  unfold Obligations.LaneTimers
  refine ⟨fun s n e hon hdue htries => ?resend, fun s n hinv hon hL0 hwarn htrip => ?silent,
    fun s n hinv hon hstate hwarn htrip hnone => ⟨fun hstep => ?one, fun hstep => ?two, fun hstep => ?three,
      fun eye hstep hfirst htop hw hh hwRet hhRet => ?passes, fun failed eye hstep hlast htrying hfailed => ?fails,
      fun hstep => ?timeout⟩,
    fun s n hinv hon hstate hlive hnone hstripes htrip hwarns helems => ?start⟩
  case resend =>
    refine congrArg Host.Outcome.next ?_
    simp [hon, hdue, htries]
  all_goals have hlane := hinv.hasLane_of_framesOn hon
  case silent =>
    have heval := State.headEval_modLane hlane (f := fun l => { l with silent := true }) (by simp [hwarn, Lane.warns]) htrip
    have hrun : exec (.tempReportTimeout n) s = .next (s.modLane n fun l => { l with silent := true }) := by
      refine congrArg Host.Outcome.next ?_
      simp only [hon, hL0, heval]
      rfl
    obtain ⟨hl, hother, hout, -⟩ := State.modLane_effect hlane (f := fun l => { l with silent := true }) rfl
    exact ⟨_, hrun, hl, hother, hout, rfl⟩
  case one =>
    exact ⟨_, execLaneTrainStepDone_changes hlane hon hstate hnone (State.trainStep_one hstep) hwarn htrip,
      State.modLane_effect hlane rfl⟩
  case two =>
    exact ⟨_, execLaneTrainStepDone_changes hlane hon hstate hnone (State.trainStep_two hstep) hwarn htrip,
      State.modLane_effect hlane rfl⟩
  case three =>
    exact ⟨_, execLaneTrainStepDone_changes hlane hon hstate hnone (State.trainStep_three hstep)
      (by simpa [Lane.greets_eq, Lane.warns] using hwarn) (by simpa [Lane.greets_eq, Lane.trips] using htrip),
      State.modLane_effect hlane (Lane.greets_eq _ _)⟩
  case passes =>
    have hcheck := State.rateChecked_top hlane hstep hfirst htop (by simp [forwardEyeOk, hw, hh])
      (by simp [returnEyeOk, hwRet, hhRet] : returnEyeOk eye = true)
    obtain ⟨hl, hother, -, hhif⟩ := State.modLane_effect hlane (f := Lane.topPassed eye) rfl
    exact ⟨_, execRateCheckDone_changes hlane hon hstate hnone hcheck hwarn htrip, hl, hother, hhif⟩
  case fails =>
    have hcheck := State.rateChecked_fails hlane (eye := eye) hstep hlast htrying hfailed
    obtain ⟨hl, hother, -, hhif⟩ := State.modLane_effect hlane (f := fun l => Lane.wentDown { l with eyeRet := eye }) rfl
    refine ⟨_, execRateCheckDone_changes hlane hon hstate hnone hcheck rfl htrip, ?_⟩
    simp only [hl]
    exact ⟨rfl, rfl, rfl, hother, hhif⟩
  case timeout =>
    exact ⟨_, execLaneTrainTimeout_down hon hstate hnone hstep, State.modLane_effect hlane rfl⟩
  case start =>
    obtain ⟨⟨l, -, hl⟩, hout, hother, hhif, -⟩ := State.startLane_effect hlane
    refine ⟨_, execRetrainComplete_starts hlane hon hstate htrip hnone hstripes, ?_⟩
    simp only [hl]
    exact ⟨rfl, rfl, rfl, rfl, rfl, rfl, hout, hother, hhif⟩

end Sys2Proof.Machine
end

section
/-! SUPPORT. Forward and return frames, echoes and reports (10_rolgo_lanes.md R251-R260, R264, R271-R273; 09 R243). -/

namespace Sys2Proof.Machine

/-! ### A lane in L0 with nothing to carry (R253-R255) -/

/-- What such a lane's frame carries: a HEARTBEAT with NOP elements (DESIGN CHOICE, notes/assumptions/50.md), or zeros. -/
def State.idleContent (s : State) (control : Bool) : List Byte :=
  if control then wordBytes 0x80000000 ++ (Elem.of 0x01 (BitVec.ofNat 32 s.now) []).bytes ++ List.replicate 440 0
  else wordBytes 0x000005FF ++ List.replicate 480 0

/-- The CRC of such a frame (R254). -/
def State.idleCrc (s : State) (control : Bool) (l : Lane) : Word :=
  crc32c (0xFFFFFFFF ^^^ BitVec.ofNat 32 l.fseq ^^^ BitVec.ofNat 32 (l.id * 2 ^ 24)) (s.idleContent control)

/-- Such a frame on the line, and the transmitter after it. -/
def State.idleTx (s : State) (control : Bool) (l : Lane) : Tx :=
  sendBits l.tx 4096 (s.idleContent control ++ wordBytes (s.idleCrc control l))

/-- The lane once such a frame has left, its echo awaited. -/
def State.idleSent (s : State) (control : Bool) (l : Lane) : Lane :=
  { l with
    fseq := (l.fseq + 1) % 2 ^ 32, nFrames := wrapAdd l.nFrames 1, tx := (s.idleTx control l).line
    stuffMax := max l.stuffMax (s.idleTx control l).stuffed, prbs31 := some (s.generator l)
    echoes := l.echoes ++ [(l.fseq, s.idleCrc control l)] }

/-- NOP elements are zeros. -/
theorem flatMap_nop_bytes (k : Nat) : ((List.range k).flatMap fun _ => (Elem.of 0 0 []).bytes) = List.replicate (40 * k) 0 := by
  induction k with
  | zero => rfl
  | succ k ih =>
    rw [List.range_succ, List.flatMap_append, ih, Nat.mul_succ, List.replicate_add]
    rfl

/-- The two contents as the frame's parts make them up. -/
theorem State.idleContent_false (s : State) :
    wordBytes (BitVec.ofNat 32 (frameHeader false none true 511)) ++ List.take 480 (List.replicate 480 0) =
      s.idleContent false := by
  rw [List.take_of_length_le (by rw [List.length_replicate])]
  rfl

theorem State.idleContent_true (s : State) : let beat := [Elem.of 0x01 (BitVec.ofNat 32 s.now) []]
    wordBytes (BitVec.ofNat 32 (frameHeader true none false 0)) ++
      (beat.flatMap Elem.bytes ++ (List.range (12 - beat.length)).flatMap fun _ => (Elem.of 0 0 []).bytes) =
        s.idleContent true := by
  dsimp only
  rw [flatMap_nop_bytes, List.flatMap_singleton, ← List.append_assoc]
  rfl

theorem Lane.inL0_iff {l : Lane} : l.inL0 = true ↔ l.retired = false ∧ l.state = .up ∧ l.power = .l0 := by
  simp [Lane.inL0, and_assoc]

section
variable {s : State} {n : Nat}

/-- The frame of a lane in L0 with nothing to carry. -/
theorem State.sendFrame_idle (control : Bool) (hL0 : (s.lane n).inL0 = true) (hrecs : (s.lane n).recs = [])
    (helems : (s.lane n).elems = []) (hprbs : (s.lane n).prbs = false) (hinject : (s.lane n).errInject = false)
    (hever : (s.lane n).everL0 = true) (hfixed : (s.lane n).fseq % 200 ≠ 199) (hgen : s.locus.gen = none) :
    s.sendFrame n control = ((s.modLane n fun l => s.idleSent control l).frameCounted n 0 0).emit
      (.frame n (s.idleTx control (s.lane n)).out.reverse) := by
  obtain ⟨-, hup, -⟩ := Lane.inL0_iff.1 hL0
  have htrains : (s.lane n).trains = false := by simp [Lane.trains, hup]
  have hnotDraining : ((s.lane n).state == .draining) = false := by simp [hup]
  have htake : (s.lane n).takeElems = ([], []) := by simp [Lane.takeElems, helems]
  unfold State.sendFrame
  simp only [htrains, hnotDraining, hrecs, htake, hprbs, hinject, hgen, Lane.seed, hever, beq_false_of_ne hfixed]
  cases control
  all_goals
    simp only [Option.isSome_none, Option.isNone_none, Bool.false_or, Bool.or_false, Bool.true_or, Bool.false_and, Bool.true_and,
      Bool.not_false, Bool.not_true, nextRec, List.find?_nil, List.filter_nil, List.foldl_nil, Bool.false_eq_true, if_false,
      if_true, List.isEmpty_nil, List.length_nil, Nat.ofNat_pos, decide_true, Option.getD_none, List.nil_append,
      s.idleContent_false, s.idleContent_true]
    refine congrArg (fun t => (State.frameCounted t n 0 0).emit (.frame n (s.idleTx _ (s.lane n)).out.reverse))
      (State.modLane_congr ?_)
    simp [State.idleSent, State.idleTx, State.idleCrc, hup, hrecs, helems, hinject, prbsBytes]

/-! ### Return frames outside L0 (R252, R258): no error event counts, and no burst begins a retrain -/

/-- A lane with the receiver's newest return figures, where it has new ones. -/
def Lane.measured (eye : Option (Nat × Nat)) (l : Lane) : Lane := { l with eyeRet := eye.getD l.eyeRet }

/-- A lane whose receiver has read a frame's line bits. -/
def Lane.lineRead (rx : Rx) (l : Lane) : Lane := { l with rx := rx.line, rseq := (l.rseq + 1) % 2 ^ 32 }

/-- A lane with a bad return frame counted. -/
def Lane.returnBad (l : Lane) : Lane := { l.setErr 2 with retCrcErr := satInc l.retCrcErr }

/-- A lane's return lock after so many line bits. -/
def Lane.lockAfter (len : Nat) (l : Lane) : Lane := { l with retLocked := l.retLocked && decide (320 ≤ len) }

/-- A lane after a good header with neither a report of the head nor an echo. -/
def Lane.headerRead (v : Nat) (l : Lane) : Lane :=
  { l with
    header := BitVec.ofNat 24 v, headLocked := false, strobeFault := false, tableOk := bit v 15, headWarn := false
    headTrip := false }

section
variable (hL0 : (s.lane n).inL0 = false)
include hL0

theorem State.burst_outside : s.burst n = s := by simp [State.burst, hL0]

theorem State.errorEvent_outside : s.errorEvent n = s := by simp [State.errorEvent, hL0]

theorem State.eyeLow_outside (low : Bool) : s.eyeLow n low = s := by simp [State.eyeLow, hL0]

end

/-- New return figures are kept; outside L0 they set no error bit (R269). -/
theorem State.returnEye_outside (hlane : s.hasLane n) (hL0 : (s.lane n).inL0 = false) (eye : Option (Nat × Nat)) :
    s.returnEye n eye = s.modLane n (Lane.measured eye) := by
  cases eye with
  | none => exact (State.modLane_self rfl).symm
  | some e => exact State.eyeLow_outside (by rwa [State.lane_modLane hlane]) _

/-- Line bits that break off lose the return lock (DESIGN CHOICE, notes/assumptions/50.md); outside L0 that is all (R272). -/
theorem State.lockLost_outside (hlane : s.hasLane n) (hL0 : (s.lane n).inL0 = false) (len : Nat) :
    (if len < 320 then s.lockLost n else s) = s.modLane n (Lane.lockAfter len) := by
  split
  case isTrue hshort =>
    rw [State.lockLost, State.burst_outside (by rwa [State.lane_modLane hlane])]
    exact State.modLane_congr (by simp [Lane.lockAfter, hshort])
  case isFalse hfull => exact (State.modLane_self (by simp [Lane.lockAfter, Nat.not_lt.1 hfull])).symm

/-- A lane that trains is not in L0. -/
theorem Lane.inL0_of_training {l : Lane} (h : l.state = .training) : l.inL0 = false := by simp [Lane.inL0, h]

/-- What the receiver of lane n makes of line bits. -/
def State.reads (s : State) (n : Nat) (bs : List Bool) : Rx := receiveBits (s.lane n).rx 288 (bs.take 320)

/-- The content bits of a received frame as a number. -/
def Rx.value (rx : Rx) : Nat := bitsNat rx.got.reverse

/-- A received frame is good on lane l: whole, without a wrong stuff bit, and with the CRC of its sequence (R258). -/
def Lane.takes (l : Lane) (rx : Rx) : Bool :=
  !rx.bad && rx.got.length == 288 && bits rx.value 287 256 == (l.returnCrc (rx.value % 2 ^ 256)).toNat

/-- The lane before the frame acts: return figures measured, line bits read. -/
def Lane.frameRead (eye : Option (Nat × Nat)) (rx : Rx) (l : Lane) : Lane := (l.measured eye).lineRead rx

section
variable (eye : Option (Nat × Nat)) (rx : Rx) (v : Nat) (l : Lane)

@[simp] theorem Lane.frameRead_state : (l.frameRead eye rx).state = l.state := by
  simp only [Lane.frameRead, Lane.measured, Lane.lineRead]
@[simp] theorem Lane.frameRead_retired : (l.frameRead eye rx).retired = l.retired := by
  simp only [Lane.frameRead, Lane.measured, Lane.lineRead]
@[simp] theorem Lane.frameRead_temps : (l.frameRead eye rx).temps = l.temps := by
  simp only [Lane.frameRead, Lane.measured, Lane.lineRead]
@[simp] theorem Lane.frameRead_silent : (l.frameRead eye rx).silent = l.silent := by
  simp only [Lane.frameRead, Lane.measured, Lane.lineRead]
@[simp] theorem Lane.returnBad_state : l.returnBad.state = l.state := by simp only [Lane.returnBad, Lane.setErr]
@[simp] theorem Lane.headerRead_state : (l.headerRead v).state = l.state := by simp only [Lane.headerRead]
@[simp] theorem Lane.helloIn_state : (l.helloIn v).state = l.state := by simp only [Lane.helloIn]

end

/-- What a bad return frame makes of a lane. -/
theorem Lane.returnBad_frameRead (eye : Option (Nat × Nat)) (rx : Rx) (len : Nat) (l : Lane) :
    ((l.frameRead eye rx).returnBad).lockAfter len = { l with
      rx := rx.line, rseq := (l.rseq + 1) % 2 ^ 32, err := l.err ||| 4, retCrcErr := satInc l.retCrcErr
      retLocked := l.retLocked && decide (320 ≤ len), eyeRet := eye.getD l.eyeRet } := by
  simp [Lane.frameRead, Lane.measured, Lane.lineRead, Lane.returnBad, Lane.setErr, Lane.lockAfter]

section
variable {bs : List Bool} {eye : Option (Nat × Nat)} (hlane : s.hasLane n) (hon : s.framesOn n = true)
  (hstate : (s.lane n).state = .training) (hnone : s.hif.busy = none) (hreserve : s.seq.reserve = false)
include hlane hon hstate hnone hreserve

/-- A return frame of a lane that trains, where what it does is an update of the lane, which still trains. -/
theorem execReturnFrameRx_training {f : Lane → Lane} (hf : (f (s.lane n)).state = .training)
    (hact : (if (s.lane n).takes (s.reads n bs)
        then (s.modLane n (Lane.frameRead eye (s.reads n bs))).returnGood n (s.reads n bs).value
        else ((s.modLane n (Lane.frameRead eye (s.reads n bs))).modLane n Lane.returnBad).errorEvent n) = s.modLane n f) :
    execReturnFrameRx n bs eye s = .next (s.modLane n fun l => (f l).lockAfter bs.length) := by
  have hmeasured : s.returnEye n eye = s.modLane n (Lane.measured eye) :=
    State.returnEye_outside hlane (Lane.inL0_of_training hstate) eye
  have hlock := State.lockLost_outside (s := s.modLane n f) ((State.hasLane_modLane f n).2 hlane)
    (by rw [State.lane_modLane hlane, Lane.inL0_of_training hf]) bs.length
  have hbody : execReturnFrameRx n bs eye s =
      .next (State.checkReserve (State.busyCheck (if bs.length < 320 then (s.modLane n f).lockLost n else s.modLane n f))) := by
    rw [← hact]
    simp only [execReturnFrameRx, hon, hmeasured, State.lane_modLane hlane, State.modLane_modLane]
    rfl
  rw [hbody, hlock, State.modLane_modLane, State.busyCheck_of_none (by simpa using hnone),
    State.checkReserve_free (by simpa using hreserve)]
  rfl

/-- A wrong stuff bit or CRC is counted (R258). -/
theorem execReturnFrameRx_bad (hbad : (s.reads n bs).bad = true) :
    execReturnFrameRx n bs eye s =
      .next (s.modLane n fun l => ((l.frameRead eye (s.reads n bs)).returnBad).lockAfter bs.length) := by
  refine execReturnFrameRx_training hlane hon hstate hnone hreserve (f := fun l => (l.frameRead eye (s.reads n bs)).returnBad)
    (by simpa using hstate) ?_
  have hnot : (s.lane n).takes (s.reads n bs) = false := by simp [Lane.takes, hbad]
  rw [hnot, State.modLane_modLane, State.errorEvent_outside
    (by rw [State.lane_modLane hlane]; exact Lane.inL0_of_training (by simpa using hstate))]
  rfl

end

/-! ### A good return frame with a HELLO report (Table 10-5, Table 10-7) -/

/-- The fields of a header that reports nothing of the head. -/
theorem headerFields_quiet {v : Nat} (h : bits v 23 16 = 0) :
    bit (bits v 23 0) 17 = false ∧ bit (bits v 23 0) 16 = false ∧ bits (bits v 23 0) 23 22 = 0
      ∧ bits (bits v 23 0) 21 20 = 0 ∧ bit (bits v 23 0) 15 = bit v 15 ∧ BitVec.ofNat 24 (bits v 23 0) = BitVec.ofNat 24 v
      ∧ (BitVec.ofNat 24 v).getLsbD 18 = false ∧ (BitVec.ofNat 24 v).getLsbD 19 = false := by
  simp only [bits, bit, beq_eq_false_iff_ne] at h ⊢
  refine ⟨by omega, by omega, by omega, by omega, ?_, ?_, ?_, ?_⟩
  · congr 1
    omega
  · apply BitVec.eq_of_toNat_eq
    simp
  · rw [BitVec.getLsbD_ofNat, Nat.testBit_eq_decide_div_mod_eq]
    simp only [Bool.and_eq_false_iff, decide_eq_false_iff_not]
    omega
  · rw [BitVec.getLsbD_ofNat, Nat.testBit_eq_decide_div_mod_eq]
    simp only [Bool.and_eq_false_iff, decide_eq_false_iff_not]
    omega

theorem Lane.warns_quiet {l : Lane} (hheader : l.header.getLsbD 18 = false) (hheard : l.silent = false) (htemps : l.temps = []) :
    l.warns = false := by
  rw [Lane.warns, hheader, hheard, htemps]
  rfl

theorem Lane.trips_quiet {l : Lane} (hheader : l.header.getLsbD 19 = false) (htemps : l.temps = []) : l.trips = false := by
  rw [Lane.trips, hheader, htemps]
  rfl

/-- A lane with such a header taken, before its reports follow. -/
def Lane.headerTaken (v : Nat) (l : Lane) : Lane :=
  { l with header := BitVec.ofNat 24 v, headLocked := false, strobeFault := false, tableOk := bit v 15 }

section
variable {v : Nat} (hlane : s.hasLane n) (hlive : (s.lane n).retired = false) (hquiet : bits v 23 16 = 0)
  (htemps : (s.lane n).temps = []) (hheard : (s.lane n).silent = false)
include hlane hlive hquiet htemps hheard

/-- A header that reports nothing of the head ends its warning and its trip report. -/
theorem State.headerIn_quiet : s.headerIn n (bits v 23 0) = s.modLane n (Lane.headerRead v) := by
  obtain ⟨h17, h16, -, -, h15, hheader, h18, h19⟩ := headerFields_quiet hquiet
  have hwarns : ((s.lane n).headerTaken v).warns = false := Lane.warns_quiet h18 hheard htemps
  have htrips : ((s.lane n).headerTaken v).trips = false := Lane.trips_quiet h19 htemps
  have hcalm := State.headEval_calm (s := s.modLane n (Lane.headerTaken v)) (n := n) (by rwa [State.lane_modLane hlane])
    (by simp [State.lane_modLane hlane, hwarns]) (by simp [State.lane_modLane hlane, htrips])
  have hsame : (s.modLane n (Lane.headerTaken v)).modLane n (fun l => { l with headWarn := l.warns, headTrip := l.trips }) =
      s.modLane n (Lane.headerRead v) := by
    rw [State.modLane_modLane]
    refine State.modLane_congr ?_
    simp only [Function.comp_apply, hwarns, htrips]
    rfl
  rw [hsame] at hcalm
  simp only [State.headerIn, h17, h16, h15, hheader, Bool.false_and, Bool.false_eq_true, if_false]
  exact hcalm

/-- With no echo and no acknowledgement, a HELLO report fills in what the head says of itself. -/
theorem State.returnGood_hello (hL0 : (s.lane n).inL0 = false) (hreport : bits (bits v 255 160) 95 92 = 5) :
    s.returnGood n v = s.modLane n fun l => (l.headerRead v).helloIn (bits v 255 160) := by
  obtain ⟨h17, -, hechoes, hacks, -⟩ := headerFields_quiet hquiet
  have hact : (s.modLane n (Lane.headerRead v)).reportIn n (bits v 255 160) =
      s.modLane n fun l => (l.headerRead v).helloIn (bits v 255 160) := by
    simp only [State.reportIn, hreport, State.modLane_modLane]
    rfl
  have hburst : (s.modLane n fun l => (l.headerRead v).helloIn (bits v 255 160)).burst n =
      s.modLane n fun l => (l.headerRead v).helloIn (bits v 255 160) :=
    State.burst_outside (by rwa [State.lane_modLane hlane])
  simp only [State.returnGood, State.headerIn_quiet hlane hlive hquiet htemps hheard, hechoes, hacks, h17, Nat.min_zero,
    List.range_zero, List.foldl_nil, hact, hburst, Bool.false_eq_true, if_false]

end

/-- What a good return frame with a HELLO report makes of a lane that trains. -/
theorem Lane.helloIn_frameRead {l : Lane} (h : l.state = .training) (eye : Option (Nat × Nat)) (rx : Rx) (v w len : Nat) :
    (((l.frameRead eye rx).headerRead v).helloIn w).lockAfter len = { l with
      rx := rx.line, rseq := (l.rseq + 1) % 2 ^ 32, retLocked := l.retLocked && decide (320 ≤ len)
      eyeRet := eye.getD l.eyeRet, header := BitVec.ofNat 24 v, headLocked := false, strobeFault := false, tableOk := bit v 15
      headWarn := false, headTrip := false, hello := true, headRate := min 3 (bits w 91 88), headBuf := bits w 87 80
      headFw := BitVec.ofNat 32 (bits w 79 48), headSerial := BitVec.ofNat 32 (bits w 47 16) } := by
  simp [Lane.frameRead, Lane.measured, Lane.lineRead, Lane.headerRead, Lane.helloIn, Lane.lockAfter, h]

/-- A good return frame with a HELLO report fills in the head's data. -/
theorem execReturnFrameRx_hello {bs : List Bool} {eye : Option (Nat × Nat)} (hlane : s.hasLane n) (hon : s.framesOn n = true)
    (hstate : (s.lane n).state = .training) (hlive : (s.lane n).retired = false) (hnone : s.hif.busy = none)
    (hreserve : s.seq.reserve = false) (htakes : (s.lane n).takes (s.reads n bs) = true)
    (hquiet : bits (s.reads n bs).value 23 16 = 0) (hreport : bits (bits (s.reads n bs).value 255 160) 95 92 = 5)
    (htemps : (s.lane n).temps = []) (hheard : (s.lane n).silent = false) :
    execReturnFrameRx n bs eye s = .next (s.modLane n fun l =>
      (((l.frameRead eye (s.reads n bs)).headerRead (s.reads n bs).value).helloIn
        (bits (s.reads n bs).value 255 160)).lockAfter bs.length) := by
  refine execReturnFrameRx_training hlane hon hstate hnone hreserve (f := fun l =>
    ((l.frameRead eye (s.reads n bs)).headerRead (s.reads n bs).value).helloIn (bits (s.reads n bs).value 255 160))
    (by simpa using hstate) ?_
  have hread := State.lane_modLane hlane (Lane.frameRead eye (s.reads n bs))
  rw [if_pos htakes, State.returnGood_hello ((State.hasLane_modLane _ n).2 hlane) (by simpa [hread] using hlive) hquiet
    (by simpa [hread] using htemps) (by simpa [hread] using hheard)
    (Lane.inL0_of_training (by simpa [hread] using hstate)) hreport, State.modLane_modLane]
  rfl

/-! ### Missing return frames and echoes (R259, R271) -/

/-- A lane with its first error event. -/
def Lane.errorNoted (l : Lane) : Lane := { l with lastError := some l.fseq }

/-- The first error event of a lane in L0 is noted and counted. -/
theorem State.errorEvent_first (hL0 : (s.lane n).inL0 = true) (hlast : (s.lane n).lastError = none) :
    s.errorEvent n = (s.modLane n Lane.errorNoted).count (n / 12) (68 + 8 * (n % 12)) 1 := by
  simp only [State.errorEvent, hL0, hlast, Bool.not_true, Bool.false_eq_true, if_false]
  rfl

/-- A missing return frame is a lane's error event. -/
theorem execReturnFrameMissing_first (hlane : s.hasLane n) (hon : s.framesOn n = true) (hL0 : (s.lane n).inL0 = true)
    (hlast : (s.lane n).lastError = none) (hnone : s.hif.busy = none) :
    execReturnFrameMissing n s = .next ((s.modLane n fun l =>
      Lane.errorNoted { l with rseq := (l.rseq + 1) % 2 ^ 32 }).count (n / 12) (68 + 8 * (n % 12)) 1) := by
  have herror := State.errorEvent_first (s := s.modLane n fun l => { l with rseq := (l.rseq + 1) % 2 ^ 32 }) (n := n)
    (by rwa [State.lane_modLane hlane]) (by rwa [State.lane_modLane hlane])
  simp only [execReturnFrameMissing, hon, herror, State.modLane_modLane, Bool.not_true, Bool.false_eq_true, if_false]
  rw [State.busyCheck_of_none (by simpa using hnone)]
  rfl

/-- A lane whose awaited echoes are given up. -/
def Lane.echoGone (l : Lane) : Lane := { l with echoes := [] }

/-- The device once lane n's awaited echo is given up: no record is confirmed by it. -/
def State.echoGone (s : State) (n : Nat) : State := (s.modLane n Lane.echoGone).count (n / 12) (67 + 8 * (n % 12)) 0

/-- A lane with a failed echo counted. -/
def Lane.echoFailed (l : Lane) : Lane := { l with echoErr := satInc l.echoErr }

section
variable (l : Lane) (i : Nat)

@[simp] theorem Lane.setErr_inL0 : (l.setErr i).inL0 = l.inL0 := by simp only [Lane.inL0, Lane.setErr]
@[simp] theorem Lane.setErr_lastError : (l.setErr i).lastError = l.lastError := by simp only [Lane.setErr]
@[simp] theorem Lane.setErr_echoes : (l.setErr i).echoes = l.echoes := by simp only [Lane.setErr]
@[simp] theorem Lane.setErr_recs : (l.setErr i).recs = l.recs := by simp only [Lane.setErr]
@[simp] theorem Lane.echoGone_inL0 : l.echoGone.inL0 = l.inL0 := by simp only [Lane.inL0, Lane.echoGone]
@[simp] theorem Lane.echoGone_lastError : l.echoGone.lastError = l.lastError := by simp only [Lane.echoGone]
@[simp] theorem Lane.echoFailed_inL0 : l.echoFailed.inL0 = l.inL0 := by simp only [Lane.inL0, Lane.echoFailed]
@[simp] theorem Lane.echoFailed_lastError : l.echoFailed.lastError = l.lastError := by simp only [Lane.echoFailed]

end

/-- What a missing echo that is the first error event makes of a lane. -/
theorem Lane.errorNoted_echo (l : Lane) : (l.setErr 1).echoGone.echoFailed.errorNoted =
    { l with err := l.err ||| 2, echoes := [], echoErr := satInc l.echoErr, lastError := some l.fseq } := by
  simp [Lane.setErr, Lane.echoGone, Lane.echoFailed, Lane.errorNoted]

theorem State.hasLane_count (d i k m : Nat) : (s.count d i k).hasLane m ↔ s.hasLane m :=
  State.hasLane_congr (State.count_length ..) (State.die_lanes_of_sameBut (State.count_unreported s d i k))

/-- An update of a lane whose awaited echo is given up. -/
theorem State.lane_modLane_echoGone (hlane : s.hasLane n) (f : Lane → Lane) :
    ((s.echoGone n).modLane n f).lane n = f (s.lane n).echoGone ∧
      ∀ m, m ≠ n → ((s.echoGone n).modLane n f).lane m = s.lane m := by
  have hgone : (s.echoGone n).hasLane n := (State.hasLane_count ..).2 ((State.hasLane_modLane ..).2 hlane)
  refine ⟨?_, fun m hm => ?_⟩
  · rw [State.lane_modLane hgone, State.echoGone, State.count_lane, State.lane_modLane hlane]
  · rw [State.lane_modLane_of_ne hm, State.echoGone, State.count_lane, State.lane_modLane_of_ne hm]

/-- The echo of a lane without records does not come (R259). -/
theorem State.echoIn_missed (hlane : s.hasLane n) {f : Nat} {crc : Word} (hechoes : (s.lane n).echoes = [(f, crc)])
    (hrecs : (s.lane n).recs = []) : s.echoIn n false = ((s.echoGone n).modLane n Lane.echoFailed).errorEvent n := by
  have hgone : (s.modLane n fun l => { l with
      echoes := []
      recs := l.recs.map fun r => if r.frames.contains f then
        { r with frames := r.frames.filter (· != f), bad := r.bad || !false } else r }) = s.modLane n Lane.echoGone :=
    State.modLane_congr (by simp [Lane.echoGone, hrecs])
  simp only [State.echoIn, hechoes, hgone, State.lane_modLane hlane, Lane.echoGone, hrecs, List.filter_nil, List.length_nil,
    Nat.sub_zero, Bool.false_eq_true, if_false]
  rfl

/-- A missing echo of a lane without records is its error event. -/
theorem execEchoTimeout_first (hlane : s.hasLane n) (hon : s.framesOn n = true) (hL0 : (s.lane n).inL0 = true)
    (hlast : (s.lane n).lastError = none) (hnone : s.hif.busy = none) {f : Nat} {crc : Word}
    (hechoes : (s.lane n).echoes = [(f, crc)]) (hrecs : (s.lane n).recs = []) :
    execEchoTimeout n s = .next ((((s.modLane n fun l => l.setErr 1).echoGone n).modLane n
      fun l => l.echoFailed.errorNoted).count (n / 12) (68 + 8 * (n % 12)) 1) := by
  have hset := State.lane_modLane hlane fun l => l.setErr 1
  have hhas : (s.modLane n fun l => l.setErr 1).hasLane n := (State.hasLane_modLane ..).2 hlane
  obtain ⟨hl, -⟩ := State.lane_modLane_echoGone hhas Lane.echoFailed
  have herror := State.errorEvent_first (s := ((s.modLane n fun l => l.setErr 1).echoGone n).modLane n Lane.echoFailed) (n := n)
    (by simpa [hl, hset] using hL0) (by simpa [hl, hset] using hlast)
  rw [State.modLane_modLane] at herror
  have hmissed := State.echoIn_missed hhas (by simpa [hset] using hechoes) (by simpa [hset] using hrecs)
  simp only [execEchoTimeout, hon, hechoes, hmissed, herror, List.isEmpty_cons, Bool.not_true, Bool.or_self,
    Bool.false_eq_true, if_false]
  rw [State.busyCheck_of_none (by simpa [State.echoGone] using hnone)]
  rfl

/-! ### A FIRED report that does not come (R243, R264, R272) -/

/-- A burst's cause is of class C1. -/
theorem minorCause_burst : minorCause 0x0010 := by
  refine ⟨by decide, by decide, fun die => ?_⟩
  simp [causeClass]

/-- A minor fault of a lane on an idle queue of a running device enters one record. -/
theorem State.laneFault_idle {cause : Nat} (h : minorCause cause) (hrun : s.running = true) (ha : s.perim.active = none)
    (hw : s.perim.waiting = []) : ∃ (t : State) (r : FaultRecord), s.laneFault cause n = t.enqueue r ∧ t.dies = s.dies ∧
      t.hif = s.hif ∧ t.seq = s.seq ∧ t.perim.waiting = [] := by
  have hnew := State.detect_minor_new (s := { s with free := s.free + 1 }) (die := n / 12) (unit := n % 12)
    (d0 := Config.freeWord s.free) (d1 := 0) h ha (by rw [hw]; rfl) (by simp [hw])
  exact ⟨_, _, (if_pos hrun).trans hnew, rfl, rfl, rfl, hw⟩

@[simp] theorem State.enqueue_hif (s : State) (r : FaultRecord) : (s.enqueue r).hif = s.hif := by
  simp [State.enqueue, State.logNew]

/-- Device time does not depend on the lanes. -/
theorem State.now_modLane (f : Lane → Lane) : (s.modLane n f).now = s.now := by
  unfold State.now State.modLane
  by_cases hdie : 0 = n / 12
  · rw [← hdie]
    cases hd : s.dies[0]? <;> simp [State.die_eq_getElem?, hd]
  · rw [State.die_modDie_of_ne _ _ _ _ hdie]

theorem State.retrain_seq (hL0 : (s.lane n).inL0 = true) (hrecent : s.recentRetrains (s.lane n) < 3) :
    (s.retrain n).seq = s.seq := by
  rw [State.retrain_begins hL0 hrecent]
  split <;> simp [State.retrainBegun]

/-- A burst's retrain on an idle fault queue: one record, the lane retrains, and no other lane changes (R272, R273). -/
theorem State.burst_retrains (hlane : s.hasLane n) (hL0 : (s.lane n).inL0 = true) (hrun : s.running = true)
    (ha : s.perim.active = none) (hw : s.perim.waiting = []) (hrecent : s.recentRetrains (s.lane n) < 3) :
    (s.burst n).lane n = ((s.lane n).setErr 3).retrained s.now ∧ (∀ m, m ≠ n → (s.burst n).lane m = s.lane m)
      ∧ (s.burst n).hif = s.hif ∧ (s.burst n).seq.reserve = s.seq.reserve ∧ (s.burst n).perim.waiting.length = 1 := by
  obtain ⟨t, r, hfault, hdies, hhif, hseq, hwaiting⟩ := State.laneFault_idle (s := s.modLane n fun l => l.setErr 3) (n := n)
    minorCause_burst hrun ha hw
  have hlanes (m : Nat) : (t.enqueue r).lane m = (s.modLane n fun l => l.setErr 3).lane m :=
    State.lane_congr ((State.enqueue_dies t r).trans hdies) m
  have hnow : (t.enqueue r).now = s.now :=
    (congrArg (fun d : Die => d.tb.toNat) (State.die_congr ((State.enqueue_dies t r).trans hdies) 0)).trans
      (State.now_modLane fun l => l.setErr 3)
  have hl : (t.enqueue r).lane n = (s.lane n).setErr 3 := (hlanes n).trans (State.lane_modLane hlane _)
  have hburst : s.burst n = (t.enqueue r).retrain n := by
    rw [State.burst, hL0, hfault]
    rfl
  have hL0' : ((t.enqueue r).lane n).inL0 = true := by rw [hl]; exact hL0
  have hrecent' : (t.enqueue r).recentRetrains ((t.enqueue r).lane n) < 3 := by
    rw [State.recentRetrains, hl, hnow]
    exact hrecent
  have hhas : (t.enqueue r).hasLane n := (State.hasLane_congr (by rw [State.enqueue_dies, hdies]) fun j => by
    rw [State.die_congr ((State.enqueue_dies t r).trans hdies)]).2 ((State.hasLane_modLane (fun l => l.setErr 3) n).2 hlane)
  have hretrain := State.retrain_lane hL0' hrecent'
  rw [hburst]
  refine ⟨?_, fun m hm => ?_, ?_, ?_, ?_⟩
  · rw [hretrain, State.lane_modLane hhas, hl, hnow]
  · rw [hretrain, State.lane_modLane_of_ne hm, hlanes, State.lane_modLane_of_ne hm]
  · rw [State.retrain_hif hL0' hrecent', State.enqueue_hif, hhif, State.modLane_hif]
  · rw [State.retrain_seq hL0' hrecent', State.enqueue_seq, hseq, State.modLane_seq]
  · rw [State.retrain_perim hL0' hrecent', State.enqueue_waiting, hwaiting]
    rfl

/-- A lane in L0 whose report of a shot is over time. -/
def Lane.reportMissed (shot : Nat) (l : Lane) : Lane := { l.setErr 4 with fired := (shot % 65536 :: l.fired).take 16 }

@[simp] theorem Lane.reportMissed_inL0 (shot : Nat) (l : Lane) : (l.reportMissed shot).inL0 = l.inL0 := by
  simp only [Lane.inL0, Lane.reportMissed, Lane.setErr]
@[simp] theorem Lane.reportMissed_retrainAt (shot : Nat) (l : Lane) : (l.reportMissed shot).retrainAt = l.retrainAt := by
  simp only [Lane.reportMissed, Lane.setErr]

/-- What a burst after a missing report makes of a lane. -/
theorem Lane.retrained_reportMissed (shot now : Nat) (l : Lane) : let t := ((l.reportMissed shot).setErr 3).retrained now
    t.state = .retraining ∧ t.err = l.err ||| 0x18 ∧ shot % 65536 ∈ t.fired := by
  simp [Lane.retrained, Lane.setErr, Lane.reportMissed, BitVec.or_assoc]

/-- The report of a shot is over time and the lane carries no record: a burst (R243, R264). -/
theorem execFiredReportMissing_bursts {shot id pass k : Nat} (hon : s.framesOn n = true) (hL0 : (s.lane n).inL0 = true)
    (hlatch : s.seq.latch = some (id, pass, k)) (hdue : shot + 8 < k)
    (hfired : (s.lane n).fired.contains (shot % 65536) = false) (hrecs : (s.lane n).recs = []) :
    execFiredReportMissing n shot s =
      .next (((s.modLane n (Lane.reportMissed shot)).burst n).busyCheck.checkReserve) := by
  have hn := State.lt_nLanes_of_framesOn hon
  have hover : s.reportDue shot k = true := by
    simp only [State.reportDue, Bool.and_eq_true, Bool.or_eq_true, decide_eq_true_eq]
    exact ⟨by omega, .inl hdue⟩
  have hmissed : (s.modLane n fun l =>
      { (if l.inL0 then l.setErr 4 else l) with fired := (shot % 65536 :: l.fired).take 16 }) =
      s.modLane n (Lane.reportMissed shot) := State.modLane_congr (by simp only [hL0, if_true, Lane.reportMissed])
  simp only [execFiredReportMissing, hlatch, Nat.not_le.2 hn, hover, hfired, hrecs, hmissed, decide_false, Bool.not_true,
    Bool.or_self, Bool.false_eq_true, if_false, List.filter_nil, State.reportDark]

end

/-- Settles O40: a frame sent, read, or missed, each by the law of its body above. -/
theorem laneFrames : Obligations.LaneFrames := by
  unfold Obligations.LaneFrames
  refine ⟨fun s n control hinv hon hL0 hrecs helems hprbs hinject hever hfixed hgen => ?sends,
    fun s n bs eye hinv hon hstate hlive hnone hreserve =>
      ⟨fun hbad => ?bad, fun hgood hlength hcrc hquiet hreport htemps hheard => ?hello⟩,
    fun s n hinv hon hL0 hlast hnone => ⟨?missing, fun f crc hechoes hrecs => ?echo⟩,
    fun s n shot hlatch => ?noPass,
    fun s n shot id pass k hinv hon hL0 hlatch hdue hfired hrecs hrun ha hw hrecent hnone hreserve => ?unreported⟩
  case noPass =>
    refine congrArg Host.Outcome.next ?_
    simp only [hlatch]
  all_goals have hlane := hinv.hasLane_of_framesOn hon
  case sends =>
    have hrun : exec (.forwardFrameTx n control) s = .next (s.sendFrame n control) := congrArg Host.Outcome.next (if_pos hon)
    rw [State.sendFrame_idle control hL0 hrecs helems hprbs hinject hever hfixed hgen] at hrun
    refine ⟨_, hrun, (State.emit_out ..).trans (by rw [State.frameCounted_out]; rfl), ?_, fun m hm => ?_, by simp,
      by simp, by simp⟩
    · rw [State.lane_congr (State.emit_dies _ _), State.frameCounted_lane, State.lane_modLane hlane]
      rfl
    · rw [State.lane_congr (State.emit_dies _ _), State.frameCounted_lane, State.lane_modLane_of_ne hm]
  case bad =>
    exact ⟨_, execReturnFrameRx_bad hlane hon hstate hnone hreserve hbad,
      State.modLane_effect hlane (Lane.returnBad_frameRead ..)⟩
  case hello =>
    have htakes : (s.lane n).takes (s.reads n bs) = true := by
      simp only [Lane.takes, Bool.and_eq_true, Bool.not_eq_true', beq_iff_eq]
      exact ⟨⟨hgood, hlength⟩, hcrc⟩
    exact ⟨_, execReturnFrameRx_hello hlane hon hstate hlive hnone hreserve htakes hquiet hreport htemps hheard,
      State.modLane_effect hlane (Lane.helloIn_frameRead (by simpa using hstate) ..)⟩
  case missing =>
    refine ⟨_, execReturnFrameMissing_first hlane hon hL0 hlast hnone, ?_⟩
    simp only [State.count_lane, State.count_out, State.count_hif]
    exact State.modLane_effect hlane rfl
  case echo =>
    refine ⟨_, execEchoTimeout_first hlane hon hL0 hlast hnone hechoes hrecs, ?_⟩
    obtain ⟨hl, hother⟩ := State.lane_modLane_echoGone (s := s.modLane n fun l => l.setErr 1) (n := n)
      ((State.hasLane_modLane ..).2 hlane) fun l => l.echoFailed.errorNoted
    simp only [State.count_lane, State.count_out, State.count_hif]
    exact ⟨hl.trans (by rw [State.lane_modLane hlane, Lane.errorNoted_echo]),
      fun m hm => (hother m hm).trans (State.lane_modLane_of_ne hm _), by simp [State.echoGone], by simp [State.echoGone]⟩
  case unreported =>
    have hset := State.lane_modLane hlane (Lane.reportMissed shot)
    obtain ⟨hl, hother, hhif, hres, hwaiting⟩ := State.burst_retrains (s := s.modLane n (Lane.reportMissed shot)) (n := n)
      ((State.hasLane_modLane ..).2 hlane) (by simpa [hset] using hL0) hrun ha hw
      (by simpa [State.recentRetrains, hset, State.now_modLane] using hrecent)
    rw [hset] at hl
    refine ⟨_, execFiredReportMissing_bursts hon hL0 hlatch hdue hfired hrecs, ?_⟩
    rw [State.busyCheck_of_none (by rw [hhif]; exact hnone), State.checkReserve_free (by rw [hres]; exact hreserve)]
    obtain ⟨hretrains, herr, hseen⟩ := Lane.retrained_reportMissed shot (s.modLane n (Lane.reportMissed shot)).now (s.lane n)
    rw [← hl] at hretrains herr hseen
    exact ⟨hretrains, herr, hseen, fun m hm => (hother m hm).trans (State.lane_modLane_of_ne hm _), hhif, hwaiting⟩

end Sys2Proof.Machine
end

section
/-! SUPPORT. Locus: the tracking loop, the deviation of the scan axis, digital inputs, compare units and configuration
(11_position_shot.md R286, R297, R298, R307-R313). -/

namespace Sys2Proof.Machine

/-! ### One element of a list after an update -/

section
variable {α : Type} {l : List α} {i j : Nat} {x : α} {f g : α → α}

theorem getD_modify_self (h : i < l.length) : (l.modify i f).getD i x = f (l.getD i x) := by
  simp [List.getD_eq_getElem?_getD, h]

theorem getD_modify_of_ne (h : j ≠ i) : (l.modify i f).getD j x = l.getD j x := by
  simp [List.getD_eq_getElem?_getD, h.symm]

/-- Two updates that agree on the element are the same. -/
theorem modify_congr_getD (h : f (l.getD i x) = g (l.getD i x)) : l.modify i f = l.modify i g := by
  refine List.ext_getElem? fun j => ?_
  by_cases hj : i = j
  · subst hj
    cases hx : l[i]? <;> simp_all [List.getD_eq_getElem?_getD]
  · simp [hj]

end

/-! ### The tracking loop (R298) -/

theorem State.locusIrq_locus (s : State) (b : Nat) : (s.locusIrq b).locus = s.locus := by
  unfold State.locusIrq; split <;> simp

/-- No crossing is next while no crossings are generated. -/
theorem State.crossWord_of_gen_none {s : State} (h : s.locus.gen = none) : s.crossWord = 0xFFFFFFFF := by
  simp [State.crossWord, h]

/-- An axis's validity rests on the axes' configuration and on the sources. -/
theorem State.axisValid_congr {s t : State} (haxes : t.locus.axes = s.locus.axes) (hsources : t.locus.sources = s.locus.sources)
    (a : Nat) : t.axisValid a = s.axisValid a := by
  simp only [State.axisValid, State.locusAxis, State.source, haxes, hsources]

/-- The position that the loop's estimates predict for a time. -/
def Locus.predicted (l : Locus) (t : Nat) : Int := l.est + l.vel * 256 * ((t : Int) - l.estAt) / 4000

/-- How far a source is from the prediction. -/
def State.trackError (s : State) (n t : Nat) : Int := (s.source n).pos - s.locus.predicted t

/-- The run of good measurements after one of source n at a time. -/
def State.goodAfter (s : State) (n t : Nat) : Nat :=
  if |s.trackError n t| ≤ (s.locus.lockWin : Int) * 256 ∧ s.axisValid 0 = true then min (s.locus.good + 1) 1024 else 0

/-- What a measurement of source n within the unlock window makes of Locus: the filter's new estimates, the residual, the run of
good measurements, and lock where the run is complete. -/
def State.trackedLocus (s : State) (n t : Nat) : Locus :=
  let est := s.locus.predicted t
  { s.locus with
    est := Config.trackPosition s.locus.bandwidth est s.locus.vel (s.trackError n t)
    vel := Config.trackVelocity s.locus.bandwidth est s.locus.vel (s.trackError n t)
    estAt := t, resid := satS32 ((s.source n).pos / 256 - est / 256)
    good := s.goodAfter n t, locked := s.locus.locked || s.goodAfter n t == 1024 }

section
variable {s : State} {n t : Nat} (hprimary : (s.locusAxis 0).primary = some n)
include hprimary

/-- While no crossings are generated, a measurement within the unlock window counts and updates the loop, and nothing else. -/
theorem State.track_within (hgen : s.locus.gen = none) (hwithin : |s.trackError n t| ≤ (s.locus.unlockWin : Int) * 256) :
    s.track t = { s.count 0 185 1 with locus := s.trackedLocus n t } := by
  have hcross (u : State) (h : u.locus.gen = s.locus.gen) : u.crossWord = 0xFFFFFFFF :=
    State.crossWord_of_gen_none (h.trans hgen)
  have haxis (u : State) (haxes : u.locus.axes = s.locus.axes) (hsources : u.locus.sources = s.locus.sources) :
      u.axisValid 0 = s.axisValid 0 := State.axisValid_congr haxes hsources 0
  have hno : ¬(s.locus.unlockWin : Int) * 256 < |s.trackError n t| := Int.not_lt.2 hwithin
  have hgood : (if (decide (|s.trackError n t| ≤ (s.locus.lockWin : Int) * 256) && s.axisValid 0) = true
      then min (s.locus.good + 1) 1024 else 0) = s.goodAfter n t := by
    simp only [State.goodAfter, Bool.and_eq_true, decide_eq_true_eq]
  unfold State.trackError Locus.predicted at hno hgood
  unfold State.track
  simp only [hprimary]
  rw [haxis _ (by simp) (by simp), hcross _ (by simp)]
  simp only [State.count_locus, bne_self_eq_false, Bool.false_and, Bool.false_eq_true, if_false, hno, hgood,
    State.trackedLocus, State.trackError, Locus.predicted]
  by_cases hfull : s.goodAfter n t = 1024
  · simp only [hfull, if_true, beq_self_eq_true, Bool.or_true]
  · simp only [hfull, if_false, beq_eq_false_iff_ne.2 hfull, Bool.or_false]

variable (hon : s.locusOn = true) (hvalid : (s.source n).valid = true)
include hon hvalid

theorem execTrackingMeasurement_tracks (hedge : (s.source n).lastEdge = some t) :
    exec (.trackingMeasurement n) s = .next (s.track t) := by
  show execTrackingMeasurement n s = _
  simp [execTrackingMeasurement, hon, hprimary, hvalid, hedge]

theorem execRestMeasurement_tracks (hmode : (s.source n).cfg.mode = 1) :
    exec (.restMeasurement n) s = .next (s.track (s.locus.estAt + 4000)) := by
  show execRestMeasurement n s = _
  simp [execRestMeasurement, hon, hprimary, hvalid, hmode]

end

theorem execTrackingMeasurement_other {s : State} {n : Nat} (h : (s.locusAxis 0).primary ≠ some n) :
    exec (.trackingMeasurement n) s = .next s := by
  show execTrackingMeasurement n s = _
  simp [execTrackingMeasurement, h]

theorem execRestMeasurement_other {s : State} {n : Nat} (h : (s.locusAxis 0).primary ≠ some n) :
    exec (.restMeasurement n) s = .next s := by
  show execRestMeasurement n s = _
  simp [execRestMeasurement, h]

/-! ### The deviation of the scan axis's sources (R297) -/

theorem execDeviation_within {s : State} (h : |s.scanDev| ≤ ((s.locusAxis 0).devWindow : Int) * 65536) :
    exec (.deviation 0) s = .next s := by
  show execDeviation 0 s = _
  simp [execDeviation, Int.not_lt.2 h]

theorem execDeviation_beyond {s : State} (hon : s.locusOn = true) (hsecondary : (s.locusAxis 0).secondary.isSome = true)
    (h : ((s.locusAxis 0).devWindow : Int) * 65536 < |s.scanDev|) :
    exec (.deviation 0) s = .next ((((({ s with locus.deviation := true }).locusIrq 14).detectOpen 0x0016 0
      ((s.locusAxis 0).primary.getD 0) 0)).axisLost 0 true) := by
  have hprimary : ((({ s with locus.deviation := true } : State).locusIrq 14).locusAxis 0).primary = (s.locusAxis 0).primary := by
    simp only [State.locusAxis, State.locusIrq_locus]
  show execDeviation 0 s = _
  simp [execDeviation, hon, hsecondary, h, hprimary]

/-! ### Digital inputs (R286) -/

/-- One input changed. -/
def State.modDin (s : State) (d : Nat) (f : Din → Din) : State := { s with locus.dins := s.locus.dins.modify d f }

/-- An input whose level follows the raw one. -/
def Din.levelled (x : Din) : Din := { x with level := x.raw != x.invert }

section
variable {s : State} {d : Nat}

theorem State.din_modDin (h : d < s.locus.dins.length) (f : Din → Din) : (s.modDin d f).din d = f (s.din d) :=
  getD_modify_self h

theorem State.din_modDin_of_ne {e : Nat} (h : e ≠ d) (f : Din → Din) : (s.modDin d f).din e = s.din e :=
  getD_modify_of_ne h

theorem State.modDin_congr {f g : Din → Din} (h : f (s.din d) = g (s.din d)) : s.modDin d f = s.modDin d g := by
  unfold State.modDin
  rw [modify_congr_getD h]

theorem State.modDin_modDin (f g : Din → Din) : (s.modDin d f).modDin d g = s.modDin d (g ∘ f) := by
  simp only [State.modDin, List.modify_modify_eq]

/-- An input that no axis uses and that captures nothing takes its value, and nothing else follows. -/
theorem State.setDin_quiet (hcapture : (s.din d).capture = false) (haxis : s.dinAxis d = none) (v : Bool) :
    s.setDin d v = s.modDin d fun x => { x with value := v } := by
  have haxis' (u : State) (h : u.arc = s.arc) : u.dinAxis d = none := by
    rw [← haxis]; simp only [State.dinAxis, State.axis, h]
  by_cases hvalue : (s.din d).value = v
  · simp [State.setDin, State.modDin, hvalue]
  · simp [State.setDin, State.modDin, hvalue, hcapture, haxis']

variable (hon : s.locusOn = true) (hd : d < 16)
include hon hd

/-- Without a chatter limit a change stores the raw level, and the changes seen. -/
theorem execDinChange_stores {v : Bool} (hraw : (s.din d).raw ≠ v) (hcount : (s.din d).chatterCount = 0) :
    exec (.dinChange d v) s = .next (s.modDin d fun x =>
      { x with raw := v, changes := (s.din d).changesAt s.now }) := by
  show execDinChange d v s = _
  simp [execDinChange, hon, Nat.not_le.2 hd, hraw, hcount, State.modDin]

theorem execDinDebounce_follows : exec (.dinDebounce d) s =
    .next ((s.modDin d Din.levelled).setDin d ((s.din d).levelled.level || (s.din d).chatter)) := by
  rw [State.modDin_congr (f := Din.levelled) (g := fun x => { x with level := (s.din d).levelled.level }) rfl]
  show execDinDebounce d s = _
  simp [execDinDebounce, hon, Nat.not_le.2 hd, State.modDin, Din.levelled]

theorem execDinDebounce_quiet (hlength : d < s.locus.dins.length) (hcapture : (s.din d).capture = false)
    (haxis : s.dinAxis d = none) : exec (.dinDebounce d) s = .next (s.modDin d fun x =>
      { x with level := x.raw != x.invert, value := (x.raw != x.invert) || x.chatter }) := by
  have hcapture' : ((s.modDin d Din.levelled).din d).capture = false := by rw [State.din_modDin hlength]; exact hcapture
  rw [execDinDebounce_follows hon hd, State.setDin_quiet hcapture' haxis, State.modDin_modDin]
  exact congrArg Host.Outcome.next (State.modDin_congr rfl)

theorem execDinStuck_flags (hms : (s.din d).stuckMs ≠ 0) (hvalue : (s.din d).value = true) :
    exec (.dinStuck d) s = .next ((s.modDin d fun x => { x with stuck := true }).locusIrq 12) := by
  show execDinStuck d s = _
  simp [execDinStuck, hon, hd, hms, hvalue, State.modDin]

theorem execLocusDinFlagClear_stuck (hhif : s.hifOn = true) :
    exec (.locusDinFlagClear d 1) s = .next (s.modDin d fun x => { x with stuck := false }) := by
  show execLocusDinFlagClear d 1 s = _
  simp [execLocusDinFlagClear, State.clearDin, hhif, hon, hd, State.modDin, bit]

end

/-! ### COMPARE_SET (R307-R311) -/

section
variable {s : State} {u : Nat}

theorem State.compare_modCompare (h : u < s.locus.compares.length) (f : Compare → Compare) :
    (s.modCompare u f).compare u = f (s.compare u) := getD_modify_self h

theorem State.compare_modCompare_of_ne {v : Nat} (h : v ≠ u) (f : Compare → Compare) :
    (s.modCompare u f).compare v = s.compare v := getD_modify_of_ne h

theorem State.modCompare_modCompare (f g : Compare → Compare) :
    (s.modCompare u f).modCompare u g = s.modCompare u (g ∘ f) := by
  simp only [State.modCompare, List.modify_modify_eq]

/-- A target in either direction lies behind no position, so that a unit is armed for it (R308, R309). -/
theorem State.armCompare_either (h : (s.compare u).dir = 2) :
    s.armCompare u = s.modCompare u fun x => { x with state := .armed } := by
  simp [State.armCompare, behind, h]

end

/-- A unit as COMPARE_SET sets it, waiting for its trigger or to be armed. -/
def Compare.setBy (p : Packet) (x : Compare) : Compare :=
  { x with
    axis := bits (p.param 2) 3 0, dir := bits (p.param 2) 5 4, target := signed 64 (p.param64 0), irq := bit (p.param 2) 6
    capture := bit (p.param 2) 7, trigger := p.param 3, state := .waitTrigger, late := false }

/-- The same unit armed. -/
def Compare.armedBy (p : Packet) (x : Compare) : Compare := { x.setBy p with state := .armed }

section
variable {p : Packet} {c : Ctx} {s : State}

theorem compareSetBody_reserved (h : p.target = 15) : compareSetBody p c s = s.finish c compareReserved [] := by
  simp [compareSetBody, h]

variable {n : Nat} (htarget : p.target ≠ 15) (hw : p.param 2 < 512) (ha : bits (p.param 2) 3 0 < 10)
  (hprimary : (s.locusAxis (bits (p.param 2) 3 0)).primary = some n) (htimed : bit (p.param 2) 8 = false)
  (htrigger : p.param 3 = 0)
include hw ha hprimary htimed htrigger

/-- The checks of COMPARE_SET's fields pass. -/
theorem compareSet_inRange : ¬(p.param 2 / 512 ≠ 0 ∨ 10 ≤ bits (p.param 2) 3 0
    ∨ (s.locusAxis (bits (p.param 2) 3 0)).primary.isNone = true ∨ (bit (p.param 2) 8 = true ∧ 11 < p.param 3)
    ∨ (bit (p.param 2) 8 = false ∧ p.param 3 ≠ 0)) := by
  simp [Nat.div_eq_of_lt hw, Nat.not_le.2 ha, hprimary, htimed, htrigger]

include htarget

theorem compareSetBody_cancels (hdir : bits (p.param 2) 5 4 = 3) : compareSetBody p c s =
    (s.modCompare p.target fun x => { x with state := .idle, axis := bits (p.param 2) 3 0 }).finish c ok [0] := by
  have hchecks := compareSet_inRange hw ha hprimary htimed htrigger
  simp only [compareSetBody, if_neg htarget, if_neg hchecks, if_pos hdir]

theorem compareSetBody_unusable (hdir : bits (p.param 2) 5 4 ≠ 3) (husable : s.axisUsable (bits (p.param 2) 3 0) = false) :
    compareSetBody p c s = s.finish c axisUnreferenced [] := by
  have hchecks := compareSet_inRange hw ha hprimary htimed htrigger
  simp only [compareSetBody, if_neg htarget, if_neg hchecks, if_neg hdir, husable, Bool.not_false, if_true]

/-- A unit that waits for no trigger is set and armed, and the answer says whether it is LATE. -/
theorem compareSetBody_sets (hdir : bits (p.param 2) 5 4 ≠ 3) (husable : s.axisUsable (bits (p.param 2) 3 0) = true) :
    let t := (s.modCompare p.target (Compare.setBy p)).armCompare p.target
    let x := t.compare p.target
    compareSetBody p c s =
      if x.state = .late then t.finish c ok [1, unsigned 64 x.pos % 2 ^ 32, unsigned 64 x.pos / 2 ^ 32]
      else t.finish c ok [0] := by
  have hchecks := compareSet_inRange hw ha hprimary htimed htrigger
  simp only [compareSetBody, if_neg htarget, if_neg hchecks, if_neg hdir]
  simp only [husable, htimed, Bool.not_true, Bool.false_and, Bool.false_eq_true, if_false]
  rfl

theorem compareSetBody_arms (hdir : bits (p.param 2) 5 4 = 2) (husable : s.axisUsable (bits (p.param 2) 3 0) = true)
    (hlength : p.target < s.locus.compares.length) :
    compareSetBody p c s = (s.modCompare p.target (Compare.armedBy p)).finish c ok [0] := by
  have harm : (s.modCompare p.target (Compare.setBy p)).armCompare p.target = s.modCompare p.target (Compare.armedBy p) := by
    rw [State.armCompare_either (by rw [State.compare_modCompare hlength]; exact hdir), State.modCompare_modCompare]
    rfl
  have hstate : ((s.modCompare p.target (Compare.armedBy p)).compare p.target).state = .armed := by
    rw [State.compare_modCompare hlength]; rfl
  rw [compareSetBody_sets htarget hw ha hprimary htimed htrigger (by rw [hdir]; decide) husable, harm, hstate, if_neg (by decide)]

end

/-! ### LOCUS_CONFIG (R313) -/

section
variable {p : Packet} {c : Ctx} {s : State}

theorem locusConfigBody_din {i : Nat} (hi : i < 16) (h0 : p.param 0 = 3 + 256 * i)
    (hchatter : p.param 3 % 256 = 0 ∨ p.param 3 / 65536 % 65536 ≠ 0) :
    locusConfigBody p c s = (s.modDin i fun x => { x with
      debounce := p.param 1 % 65536, invert := bit (p.param 1) 16, capture := bit (p.param 1) 17
      stuckMs := p.param 2 % 65536, chatterCount := p.param 3 % 256, chatterMs := p.param 3 / 65536 % 65536
      changes := [] }).finish c ok [] := by
  have hsection : bits (3 + 256 * i) 7 0 = 3 := by simp only [bits]; omega
  have hindex : bits (3 + 256 * i) 15 8 = i := by simp only [bits]; omega
  have hshort : ¬(3 + 256 * i) / 2 ^ 16 ≠ 0 := by omega
  have hlimits : (decide (16 ≤ i) || (decide (bits (p.param 3) 7 0 ≠ 0) && decide (bits (p.param 3) 31 16 = 0))) = false := by
    obtain hcount | hwindow := hchatter
    · simp [bits, hi, hcount]
    · simp [bits, hi, hwindow]
  simp only [locusConfigBody, h0, hsection, hindex, if_neg hshort, hlimits, Bool.false_eq_true, if_false]
  simp [bits, State.modDin]

theorem locusConfigBody_tracking (h0 : p.param 0 = 5) (hlatency : p.param 1 % 16384 ≤ 16000) :
    locusConfigBody p c s = ({ s with
      locus.latency := p.param 1 % 16384, locus.bandwidth := p.param 1 / 65536 % 4, locus.lockWin := p.param 2 % 65536
      locus.unlockWin := p.param 2 / 65536 % 65536, locus.markEvery := p.param 3 % 65536 } : State).finish c ok [] := by
  simp [locusConfigBody, h0, bits, Nat.not_lt.2 hlatency]

end

/-- Settles O31: each row by the law of its command above; a packet's fields are its row's. -/
theorem locusInputs : Obligations.LocusInputs := by
  unfold Obligations.LocusInputs
  refine ⟨fun s n h => ⟨execTrackingMeasurement_other h, execRestMeasurement_other h⟩,
    fun s c n t hon hprimary hvalid hgen hc hwithin => ?tracks,
    fun s => execDeviation_within, fun s => execDeviation_beyond,
    fun s d v hon hd hraw hcount => ?change, fun s d hon hd => execDinDebounce_quiet hon hd,
    fun s d hon hd => execDinStuck_flags hon hd, fun s d hhif hon hd => execLocusDinFlagClear_stuck hon hd hhif,
    fun s p htakes => ?compare, fun s p htakes => ?config⟩
  case tracks =>
    have hrun : exec c s = .next (s.track t) := by
      obtain ⟨rfl, hedge⟩ | ⟨rfl, hmode, rfl⟩ := hc
      · exact execTrackingMeasurement_tracks hprimary hon hvalid hedge
      · exact execRestMeasurement_tracks hprimary hon hvalid hmode
    rw [State.track_within hprimary hgen hwithin] at hrun
    exact ⟨_, hrun, rfl, rfl, rfl, rfl, rfl, State.count_ctl ..⟩
  case change =>
    exact ⟨_, execDinChange_stores hon hd hraw hcount, rfl, rfl, rfl, fun e he => State.din_modDin_of_ne he _,
      fun hlength => by rw [State.din_modDin hlength]; exact ⟨rfl, rfl, rfl⟩⟩
  case compare =>
    have hrun : exec (.compareSet p) s = .next (compareSetBody p (s.cmd 0x0406 p) s) := by
      refine (State.direct_takes htakes compareSetBody).trans ?_
      simp only [compareSetBody, Packet.ofRow_target, Packet.ofRow_param, Packet.ofRow_param64]
    have haxis : bits (p.param 2) 3 0 = p.param 2 % 16 := by simp [bits]
    refine ⟨fun h => by rw [hrun, compareSetBody_reserved h], fun htarget hprimary hw ha htrigger htimed => ?_⟩
    obtain ⟨n, hprimary⟩ := Option.isSome_iff_exists.1 hprimary
    rw [← haxis] at hprimary ha ⊢
    refine ⟨fun hdir => ?cancels, fun hdir husable => ?unusable, fun hdir husable hlength => ?arms⟩
    case cancels => rw [hrun, compareSetBody_cancels htarget hw ha hprimary htimed htrigger hdir]
    case unusable => rw [hrun, compareSetBody_unusable htarget hw ha hprimary htimed htrigger hdir husable]
    case arms =>
      rw [compareSetBody_arms htarget hw ha hprimary htimed htrigger hdir husable hlength] at hrun
      have hunit (v : Nat) : ((s.modCompare p.target (Compare.armedBy p)).finish (s.cmd 0x0406 p) ok [0]).compare v =
          (s.modCompare p.target (Compare.armedBy p)).compare v := by simp only [State.compare, State.finish_locus]
      have hset := (hunit p.target).trans (State.compare_modCompare hlength _)
      exact ⟨_, hrun, congrArg Compare.state hset, congrArg Compare.target hset, congrArg Compare.axis hset,
        fun v hv => (hunit v).trans (State.compare_modCompare_of_ne hv _), by simp [State.modCompare],
        by simp [State.modCompare]⟩
  case config =>
    have hrun : exec (.locusConfig p) s = .next (locusConfigBody (Packet.ofRow 0x0405 p) (s.cmd 0x0405 p) s) :=
      State.direct_takes htakes locusConfigBody
    refine ⟨fun i hi h0 hchatter => ?_, fun h0 hlatency => ?_⟩
    · rw [hrun, locusConfigBody_din hi (by simpa using h0) (by simpa using hchatter)]
      simp only [Packet.ofRow_param, State.modDin]
    · rw [hrun, locusConfigBody_tracking (by simpa using h0) (by simpa using hlatency)]
      simp only [Packet.ofRow_param]

end Sys2Proof.Machine
end

section
/-! SUPPORT. Arc's time-driven events (12_motion.md R319, R327): a link fault of the setpoint port is a detection, and one that
finds the fault queue full is a storm (15_safety_faults.md R384), whose entry into SAFE_DARK closes the gates and so ends the
generation of crossings in Locus. -/

namespace Sys2Proof.Machine

/-- While the port runs, a status packet that is missing counts as a bad one (R319). -/
theorem execSetpointStatusTimeout_running {s : State} (hruns : s.arc.spRunning = true) :
    exec .setpointStatusTimeout s = .next s.badSetpointStatus := by
  show execSetpointStatusTimeout s = _
  simp [execSetpointStatusTimeout, hruns]

/-- The waiting record of a burst of errors on lane n, of class C1 (R272). -/
def burstRecord (n : Nat) : FaultRecord :=
  { State.reset.newRecord 0x0010 (n / 12) (n % 12) 1 false false 0 0 (State.reset.before 0x0010 (n / 12) (n % 12)) with seq := n }

/-- A pass under way, its axes being stopped, with one status packet missed already and 32 records waiting: as many as the queue
holds (R381), none of them of an axis. -/
def State.passFullQueue : State :=
  { State.reset with
    ctl.dev := .writing, ctl.ready := true
    perim.gateClosed := false, perim.waiting := (List.range 32).map burstRecord, perim.nextSeq := 32
    locus.gen := some { next := 9, total := 8440, lastFire := some 800000, lastCross := some 800000 }
    arc.spRunning := true, arc.spCycle := 1000, arc.spBad := 1
    arc.axes := State.reset.arc.axes.map fun x => { x with state := .stopping, vel := 256 } }

/-- The second bad status packet in a row finds the queue full: the storm ends the pass's crossings. -/
theorem badSetpointStatus_passFullQueue_gen : State.passFullQueue.badSetpointStatus.locus.gen = none := by decide +kernel

/-- Refutes O29 in its row on the second missing status packet: the row leaves Locus as it is whatever the fault queue holds, but
in a pass with a full queue the link fault is a storm (R384), and Locus's crossings end. -/
theorem not_setpointPort : ¬ Obligations.SetpointPort := by
  unfold Obligations.SetpointPort
  rintro ⟨-, -, -, -, -, -, hsecondMissing, -⟩
  obtain ⟨t, hrun, -, -, hlocus, -⟩ := hsecondMissing State.passFullQueue rfl rfl (by decide) (by decide)
  obtain rfl : State.passFullQueue.badSetpointStatus = t :=
    Host.Outcome.next.inj ((execSetpointStatusTimeout_running rfl).symm.trans hrun)
  have hended := badSetpointStatus_passFullQueue_gen
  rw [hlocus] at hended
  exact absurd hended (by decide)

end Sys2Proof.Machine
end

section
/-! SUPPORT. A step (95_what_each_step_holds.md), and writes to device memory (03_dma.md Table 3-6): in a list that holds a key
twice, a byte keeps the second entry's value when 0 is written to it, so the row on device memory fails outside the invariant. -/

namespace Sys2Proof.Machine

/-- Settles O1: a step on a queue with a front command is that command's meaning. -/
theorem stepTakesFront : Obligations.StepTakesFront := by
  unfold Obligations.StepTakesFront
  intro c rest s hfront
  unfold step
  rw [hfront]

/-- A write to a die's DRAM writes the run of bytes into its list. -/
theorem State.devWrite_dram {s : State} {a : DevAddr} (hsram : a.sram = false) (hbcast : a.bcast = false)
    (hdie : a.die < s.dies.length) (bs : List Byte) :
    ((s.devWrite a bs).die a.die).mem.dram = sparseSetRange 0 (s.die a.die).mem.dram a.off bs := by
  simp [State.devWrite, State.devAccess, hsram, hbcast, State.die_modDie, hdie]

/-- A device whose die 0 lists DRAM byte 0 twice: a list that is not in canonical form (`Memory.wf`). -/
def State.byteTwice : State := State.reset.modDie 0 fun d => { d with mem.dram := [(0, 1), (0, 1)] }

/-- DRAM byte 0 of die 0. -/
def dramStart : DevAddr := { die := 0, bcast := false, sram := false, off := 0 }

/-- Writing 0 removes the first entry of the key, and the second is read. -/
theorem devWrite_byteTwice : sparseGet 0 ((State.byteTwice.devWrite dramStart [0]).die dramStart.die).mem.dram 0 = 1 := by
  rw [State.devWrite_dram rfl rfl (by decide)]
  rfl

/-- Refutes O16: the row does not ask for a canonical memory, and in one that lists byte 0 twice with value 1 the byte still reads 1
after 0 is written to it. -/
theorem not_deviceMemoryFrame : ¬ Obligations.DeviceMemoryFrame := by
  unfold Obligations.DeviceMemoryFrame
  intro h
  obtain ⟨e, he, hread, -⟩ := h State.byteTwice dramStart [0] _ rfl rfl rfl
  have hzero : sparseGet 0 e.mem.dram 0 = 0 := hread 0 (by decide)
  have hdie : (State.byteTwice.devWrite dramStart [0]).die dramStart.die = e := by
    rw [State.die_eq_getElem?]
    exact congrArg (Option.getD · _) he
  have hone := devWrite_byteTwice
  rw [hdie, hzero] at hone
  exact absurd hone (by decide)

end Sys2Proof.Machine
end

section
/-! SUPPORT. Datum's PTP domains: messages, samples, timeouts, and the Ethernet ports (13_time_chord.md R331, R332, R336, R337,
R340). -/

namespace Sys2Proof.Machine

/-! ### One domain, one port -/

section
variable {s : State} {d e p : Nat}

theorem State.domain_congr {t : State} (h : t.datum = s.datum) (d : Nat) : t.domain d = s.domain d := by
  unfold State.domain; rw [h]

theorem State.domain_modDomain (h : d < s.datum.domains.length) (f : Domain → Domain) :
    (s.modDomain d f).domain d = f (s.domain d) := getD_modify_self h

theorem State.domain_modDomain_of_ne (h : e ≠ d) (f : Domain → Domain) : (s.modDomain d f).domain e = s.domain e :=
  getD_modify_of_ne h

theorem State.modDomain_congr {f g : Domain → Domain} (h : f (s.domain d) = g (s.domain d)) : s.modDomain d f = s.modDomain d g := by
  unfold State.modDomain; rw [modify_congr_getD h]

theorem State.modDomain_modDomain (f g : Domain → Domain) : (s.modDomain d f).modDomain d g = s.modDomain d (g ∘ f) := by
  simp [State.modDomain, List.modify_modify_eq]

theorem State.port_modPort (h : p < s.datum.ports.length) (f : EthPort → EthPort) : (s.modPort p f).port p = f (s.port p) :=
  getD_modify_self h

theorem State.port_modPort_of_ne (h : e ≠ p) (f : EthPort → EthPort) : (s.modPort p f).port e = s.port e :=
  getD_modify_of_ne h

theorem State.modPort_congr {f g : EthPort → EthPort} (h : f (s.port p) = g (s.port p)) : s.modPort p f = s.modPort p g := by
  unfold State.modPort; rw [modify_congr_getD h]

theorem State.modPort_modPort (f g : EthPort → EthPort) : (s.modPort p f).modPort p g = s.modPort p (g ∘ f) := by
  simp [State.modPort, List.modify_modify_eq]

/-- A domain that is not at its reset contents is one of Datum's. -/
theorem State.domain_exists (h : s.domain d ≠ Domain.reset) : d < s.datum.domains.length := by
  by_contra hlen
  exact h (List.getD_eq_default _ _ (Nat.le_of_not_lt hlen))

theorem State.domain_exists_of_enabled (h : (s.domain d).enabled = true) : d < s.datum.domains.length :=
  State.domain_exists fun hreset => by simp [hreset, Domain.reset] at h

theorem State.domain_exists_of_state (h : (s.domain d).state = .acquiring ∨ (s.domain d).state = .locked) :
    d < s.datum.domains.length :=
  State.domain_exists fun hreset => by simp [hreset, Domain.reset] at h

/-- The one domain a message belongs to is one of Datum's. -/
theorem State.domainsOf_exists {port : Nat} {m : PtpMsg} (h : s.domainsOf port m = [d]) : d < s.datum.domains.length := by
  have hmem : d ∈ s.domainsOf port m := by simp [h]
  have hof := (List.mem_filter.1 hmem).2
  simp only [Bool.and_eq_true] at hof
  obtain ⟨⟨⟨-, henabled⟩, -⟩, -⟩ := hof
  exact State.domain_exists_of_enabled henabled

/-- What a change of one domain leaves of the others, of the time, the ports and the emissions. -/
theorem State.modDomain_effect (h : d < s.datum.domains.length) (f : Domain → Domain) : let t := s.modDomain d f
    t.domain d = f (s.domain d) ∧ (∀ e, e ≠ d → t.domain e = s.domain e) ∧ t.datum.time = s.datum.time :=
  ⟨State.domain_modDomain h f, fun _ he => State.domain_modDomain_of_ne he f, rfl⟩

end

/-! ### Samples (R337) -/

/-- A domain with its first sample as its estimate. -/
def Domain.firstSample (lead : Int) (x : Domain) : Domain :=
  { x with
    lastOff := 0, discards := 0, good := x.good + 1, state := .acquiring, known := true, rate := Config.domainRate x.rate 0
    offset := lead * 2 ^ 40 }

/-- A domain that discards a sample, which is `off` away from the estimate. -/
def Domain.discard (off : Int) (x : Domain) : Domain := { x with lastOff := satS32 (off / 2 ^ 40), discards := x.discards + 1 }

section
variable {s : State} {d : Nat}

/-- An acquiring domain without an estimate takes the sample as its estimate; it does not lock before its 16th good one. -/
theorem State.sample_first (hknown : (s.domain d).known = false) (hstate : (s.domain d).state = .acquiring)
    (hgood : (s.domain d).good < 15) (hfree : s.datum.disciplined = false) (lead : Int) :
    s.sample d lead = (s.modDomain d (Domain.firstSample lead)).count 0 188 1 := by
  have hmin : min 255 ((s.domain d).good + 1) = (s.domain d).good + 1 := by omega
  have hfew : ¬16 ≤ (s.domain d).good + 1 := by omega
  have hthr : (0 : Int) ≤ (s.domain d).lockThr * 2 ^ 48 := by positivity
  have hfree' (f : Domain → Domain) : (s.modDomain d f).datum.disciplined = false := hfree
  simp only [State.sample, hknown, Bool.false_and, Bool.false_eq_true, if_false, abs_zero, hthr, if_true, hmin, hfew,
    hfree', hstate, State.modDomain_modDomain, reduceCtorEq, decide_false]
  congr 1
  refine State.modDomain_congr ?_
  simp [Domain.firstSample, hknown, satS32]

/-- A sample beyond the jump threshold is discarded, and before the eighth in a row nothing else happens. -/
theorem State.sample_jump (hknown : (s.domain d).known = true) (hfew : (s.domain d).discards < 7) {lead : Int}
    (hjump : ((s.domain d).jumpThr : Int) * 2 ^ 48 < |lead * 2 ^ 40 - (s.domain d).offset|) :
    s.sample d lead = s.modDomain d (Domain.discard (lead * 2 ^ 40 - (s.domain d).offset)) := by
  have hkeep : ¬8 ≤ (s.domain d).discards + 1 := by omega
  simp only [State.sample, hknown, if_true, hjump, decide_true, Bool.and_true, hkeep, if_false, State.modDomain_modDomain]
  rfl

end

/-- A domain after a complete Sync exchange, before the sample is taken. -/
def Domain.synced (origin received : Int) (x : Domain) : Domain := { x with pendingSync := none, syncPair := some (origin, received) }

theorem State.syncDone_eq (s : State) (d : Nat) (origin received : Int) : s.syncDone d origin received =
    (s.modDomain d (Domain.synced origin received)).sample d (origin + (s.domain d).path - received) := rfl

section
variable {s : State} {d : Nat} (hd : d < s.datum.domains.length) {origin received : Int}
include hd

theorem State.syncDone_first (hknown : (s.domain d).known = false) (hstate : (s.domain d).state = .acquiring)
    (hgood : (s.domain d).good < 15) (hfree : s.datum.disciplined = false) : s.syncDone d origin received =
      (s.modDomain d (Domain.firstSample (origin + (s.domain d).path - received) ∘ Domain.synced origin received)).count 0 188 1 := by
  have hdom := State.domain_modDomain hd (Domain.synced origin received)
  rw [State.syncDone_eq, State.sample_first (s := s.modDomain d _) (by rw [hdom]; exact hknown) (by rw [hdom]; exact hstate)
    (by rw [hdom]; exact hgood) hfree, State.modDomain_modDomain]

/-- What the first sample of a domain leaves. -/
theorem State.syncDone_first_effect (hknown : (s.domain d).known = false) (hstate : (s.domain d).state = .acquiring)
    (hgood : (s.domain d).good < 15) (hfree : s.datum.disciplined = false) : let t := s.syncDone d origin received
    t.domain d = (Domain.synced origin received (s.domain d)).firstSample (origin + (s.domain d).path - received)
      ∧ (∀ e, e ≠ d → t.domain e = s.domain e) ∧ t.datum.time = s.datum.time ∧ t.datum.ports = s.datum.ports ∧ t.out = s.out := by
  obtain ⟨hself, hothers, htime⟩ := State.modDomain_effect hd
    (Domain.firstSample (origin + (s.domain d).path - received) ∘ Domain.synced origin received)
  dsimp only
  rw [State.syncDone_first hd hknown hstate hgood hfree, State.count_out, State.count_datum]
  exact ⟨(State.domain_congr (State.count_datum _ _ _ _) d).trans hself,
    fun e he => (State.domain_congr (State.count_datum _ _ _ _) e).trans (hothers e he), htime, rfl, rfl⟩

theorem State.syncDone_jump (hknown : (s.domain d).known = true) (hfew : (s.domain d).discards < 7)
    (hjump : ((s.domain d).jumpThr : Int) * 2 ^ 48 < |(origin + (s.domain d).path - received) * 2 ^ 40 - (s.domain d).offset|) :
    s.syncDone d origin received = s.modDomain d
      (Domain.discard ((origin + (s.domain d).path - received) * 2 ^ 40 - (s.domain d).offset) ∘ Domain.synced origin received) := by
  have hdom := State.domain_modDomain hd (Domain.synced origin received)
  rw [State.syncDone_eq, State.sample_jump (s := s.modDomain d _) (by rw [hdom]; exact hknown) (by rw [hdom]; exact hfew)
      (by rw [hdom]; exact hjump),
    State.modDomain_modDomain, hdom]
  rfl

end

/-! ### Messages of one domain (R336) -/

section
variable {s : State} {port d : Nat} {m : PtpMsg} (hone : s.domainsOf port m = [d])
include hone

theorem execSync_foreign (hmaster : s.fromMaster d m = false) : exec (.sync port m) s = .next s := by
  show execSync port m s = _
  simp [execSync, hone, hmaster]

theorem execSync_twoStep (hmaster : s.fromMaster d m = true) (htwo : m.twoStep = true) :
    exec (.sync port m) s = .next (s.modDomain d fun x => { x with pendingSync := some m }) := by
  show execSync port m s = _
  simp [execSync, hone, hmaster, htwo]

theorem execSync_oneStep (hmaster : s.fromMaster d m = true) (htwo : m.twoStep = false) :
    exec (.sync port m) s = .next (s.syncDone d (m.time + corrOf m) (s.rxTime port m)) := by
  show execSync port m s = _
  simp [execSync, hone, hmaster, htwo]

theorem execFollowUp_matches {y : PtpMsg} (hpending : (s.domain d).pendingSync = some y) (hmaster : s.fromMaster d m = true)
    (hseq : y.seq = m.seq) :
    exec (.followUp port m) s = .next (s.syncDone d (m.time + corrOf m + corrOf y) (s.rxTime port y)) := by
  show execFollowUp port m s = _
  simp [execFollowUp, hone, hpending, hmaster, hseq]

theorem execDelayResp_matches {t1 t2 : Int} {t3 : Nat} (hreq : (s.domain d).delayReq = some (m.seq, t3))
    (hpair : (s.domain d).syncPair = some (t1, t2)) (he2e : (s.domain d).p2p = false) (hmaster : s.fromMaster d m = true) :
    exec (.delayResp port m) s = .next ((s.takeTxts port m.seq 1).modDomain d fun x =>
      { x with delayReq := none, path := ((t2 - t1) + (m.time - corrOf m - t3)) / 2 }) := by
  show execDelayResp port m s = _
  simp [execDelayResp, hone, hreq, hpair, he2e, hmaster]

theorem execPdelayReq_e2e (he2e : (s.domain d).p2p = false) : exec (.pdelayReq port m) s = .next s := by
  show execPdelayReq port m s = _
  simp [execPdelayReq, hone, he2e]

/-- A port with room for the timestamp answers a Pdelay_Req (R340). -/
theorem execPdelayReq_answers (hp2p : (s.domain d).p2p = true) (hroom : (s.port port).txts.length < 16) :
    Completes (exec (.pdelayReq port m) s) fun t =>
      t.out = s.out ++ [.ptp port 3 m.seq m.domain, .ptp port 0xA m.seq m.domain] ∧ t.datum.domains = s.datum.domains
        ∧ t.datum.time = s.datum.time := by
  have hroom' : ((s.emit (.ptp port 3 m.seq m.domain)).port port).txts.length < 16 := hroom
  refine ⟨_, rfl, ?_⟩
  simp [hone, hp2p, State.sendEvent, hroom', State.takeTxts, State.modPort]

theorem execPdelayResp_matches {t1 : Nat} (hreq : (s.domain d).delayReq = some (m.seq, t1)) (hp2p : (s.domain d).p2p = true) :
    exec (.pdelayResp port m) s = .next ((s.takeTxts port m.seq 2).modDomain d fun x =>
      if m.twoStep then { x with pdelay := some (m, t1) }
      else { x with delayReq := none, path := ((s.takeTxts port m.seq 2).rxTime port m - t1 - corrOf m) / 2 }) := by
  show execPdelayResp port m s = _
  cases htwo : m.twoStep <;> simp [execPdelayResp, hone, hreq, hp2p, htwo]

theorem execPdelayRespFollowUp_matches {r : PtpMsg} {t1 : Nat} (hresp : (s.domain d).pdelay = some (r, t1)) (hseq : r.seq = m.seq)
    (hsource : r.source = m.source) :
    exec (.pdelayRespFollowUp port m) s = .next (s.modDomain d fun x =>
      { x with
        delayReq := none, pdelay := none
        path := (s.rxTime port r - t1 - ((m.time : Int) - r.time) - corrOf m - corrOf r) / 2 }) := by
  show execPdelayRespFollowUp port m s = _
  simp [execPdelayRespFollowUp, hone, hresp, hseq, hsource]

theorem execAnnounce_first {dataset : List Nat} (hnone : (s.domain d).master = none) (hstate : (s.domain d).state ≠ .lost) :
    exec (.announce port m dataset) s = .next (s.modDomain d fun x => { x with master := some (m.source, dataset) }) := by
  show execAnnounce port m dataset s = _
  simp only [execAnnounce, hone, List.foldl_cons, List.foldl_nil]
  congr 1
  exact State.modDomain_congr (by simp [hnone, hstate])

theorem execAnnounce_other {dataset : List Nat} {cur : Nat × List Nat} (hcur : (s.domain d).master = some cur)
    (hstate : (s.domain d).state ≠ .lost) (hother : cur.1 ≠ m.source) :
    exec (.announce port m dataset) s = .next (s.modDomain d fun x =>
      if betterMaster dataset cur.2 then { x with master := some (m.source, dataset), pendingSync := none } else x) := by
  show execAnnounce port m dataset s = _
  simp only [execAnnounce, hone, List.foldl_cons, List.foldl_nil]
  congr 1
  exact State.modDomain_congr (by simp [hcur, hstate, hother])

end

/-- A timestamp that leaves the queue leaves the port's latency. -/
theorem State.takeTxts_rxTime (s : State) (port seq type : Nat) (m : PtpMsg) :
    (s.takeTxts port seq type).rxTime port m = s.rxTime port m := by
  have hlat : ((s.takeTxts port seq type).port port).rxLat = (s.port port).rxLat := by
    by_cases hp : port < s.datum.ports.length
    · simp [State.takeTxts, State.port_modPort hp]
    · simp [State.takeTxts, State.port, State.modPort, List.getD_eq_getElem?_getD, List.getElem?_eq_none (Nat.le_of_not_lt hp)]
  simp only [State.rxTime, hlat]

/-- Settles O34: each message of one domain changes that domain as its exchange says. -/
theorem ptpMessages : Obligations.PtpMessages := by
  unfold Obligations.PtpMessages
  intro s port d m hone
  have hd := State.domainsOf_exists hone
  refine ⟨execSync_twoStep hone, execSync_foreign hone, ?first, ?jump, ?followUp, ?delayResp, execPdelayReq_e2e hone,
    execPdelayReq_answers hone, ?pdelayResp, ?pdelayFollowUp, fun dataset => execAnnounce_first hone,
    fun dataset cur => execAnnounce_other hone⟩
  case first =>
    intro hmaster htwo hknown hstate hgood hfree
    obtain ⟨hself, hothers, htime, hports, hout⟩ :=
      State.syncDone_first_effect hd (origin := m.time + corrOf m) (received := s.rxTime port m) hknown hstate hgood hfree
    refine ⟨_, execSync_oneStep hone hmaster htwo, ?_⟩
    beta_reduce
    rw [hself]
    exact ⟨rfl, rfl, rfl, rfl, rfl, rfl, hothers, htime, hports, hout⟩
  case jump =>
    intro hmaster htwo hknown hfew hjump
    refine ⟨_, (execSync_oneStep hone hmaster htwo).trans (congrArg _
      (State.syncDone_jump hd (origin := m.time + corrOf m) (received := s.rxTime port m) hknown hfew hjump)), ?_⟩
    obtain ⟨hself, hothers, htime⟩ := State.modDomain_effect hd (Domain.discard
      ((m.time + corrOf m + (s.domain d).path - s.rxTime port m) * 2 ^ 40 - (s.domain d).offset) ∘
        Domain.synced (m.time + corrOf m) (s.rxTime port m))
    rw [hself]
    exact ⟨rfl, rfl, rfl, rfl, hothers, htime⟩
  case followUp =>
    intro y hpending hmaster hseq hknown hstate hgood hfree
    obtain ⟨hself, hothers, htime, -, -⟩ :=
      State.syncDone_first_effect hd (origin := m.time + corrOf m + corrOf y) (received := s.rxTime port y) hknown hstate hgood hfree
    refine ⟨_, execFollowUp_matches hone hpending hmaster hseq, ?_⟩
    beta_reduce
    rw [hself]
    exact ⟨rfl, rfl, rfl, rfl, hothers, htime⟩
  case delayResp =>
    intro t1 t2 t3 hreq hpair he2e hmaster
    exact ⟨_, execDelayResp_matches hone hreq hpair he2e hmaster, State.modDomain_effect (s := s.takeTxts port m.seq 1) hd _⟩
  case pdelayResp =>
    intro t1 hreq hp2p
    refine ⟨_, execPdelayResp_matches hone hreq hp2p, ?_⟩
    have heffect := State.modDomain_effect (s := s.takeTxts port m.seq 2) hd
    simp only [State.takeTxts_rxTime]
    exact heffect _
  case pdelayFollowUp =>
    exact fun r t1 => execPdelayRespFollowUp_matches hone

/-! ### Timers (R336, R337, R340) -/

/-- What DELAY_REQ_SEND makes of its port: the timestamp queued and the sequence number moved on. -/
def EthPort.requested (type domain time : Nat) (p : EthPort) : EthPort :=
  { p with txts := p.txts ++ [(p.seq, type, domain, time)], seq := (p.seq + 1) % 65536 }

/-- A domain whose delay request went out at a time. -/
def Domain.requested (seq time : Nat) (x : Domain) : Domain := { x with delayReq := some (seq, time), pdelay := none }

/-- The delay request of a domain on its port: Delay_Req, or Pdelay_Req with peer delay. -/
def Domain.requestType (x : Domain) : Nat := if x.p2p then 2 else 1

section
variable {s : State} {port d : Nat}

theorem execDelayReqSend_sends (hup : s.portUp port = true) (hd : d < 2) (hon : (s.domain d).enabled = true)
    (hport : (s.domain d).port = port) (hnone : (s.domain d).delayReq = none) (hroom : (s.port port).txts.length < 16) :
    exec (.delayReqSend port d) s = .next
      (((s.emit (.ptp port (s.domain d).requestType (s.port port).seq (s.domain d).number)).modPort port
        (EthPort.requested (s.domain d).requestType (s.domain d).number (s.txTime port).toNat)).modDomain d
        (Domain.requested (s.port port).seq (s.txTime port).toNat)) := by
  have hemit (e : Emission) : ((s.emit e).port port).txts.length < 16 := hroom
  show execDelayReqSend port d s = _
  have hsmall : ¬2 ≤ d := by omega
  simp only [execDelayReqSend, hup, hsmall, hon, hport, hnone, Bool.not_true, decide_false, Bool.or_false, ne_eq, not_true_eq_false,
    Bool.false_eq_true, if_false, State.sendEvent, hemit, if_true, State.modPort_modPort]
  congr 2
  exact State.modPort_congr rfl

/-- A device time that follows no domain is left alone when a domain is lost (R337, R338). -/
theorem State.loseDomain_effect (hd : d < s.datum.domains.length) (hfree : s.datum.disciplined = false) : let t := s.loseDomain d
    t.domain d = { s.domain d with
        state := .lost, good := 0, discards := 0, known := false, master := none, pendingSync := none, delayReq := none
        pdelay := none, syncPair := none }
      ∧ (∀ e, e ≠ d → t.domain e = s.domain e) ∧ t.datum.time = s.datum.time ∧ t.out = s.out := by
  have hfree' (f : Domain → Domain) : (s.modDomain d f).datum.disciplined = false := hfree
  obtain ⟨hself, hothers, htime⟩ := State.modDomain_effect hd fun x =>
    { x with
      state := .lost, good := 0, discards := 0, known := false, master := none, pendingSync := none, delayReq := none
      pdelay := none, syncPair := none }
  simp only [State.loseDomain, State.reselect, hfree', Bool.not_false, if_true]
  exact ⟨hself, hothers, htime, rfl⟩

theorem execSyncTimeout_loses (hrun : s.running = true) (hd : d < 2)
    (hstate : (s.domain d).state = .acquiring ∨ (s.domain d).state = .locked) :
    exec (.syncTimeout d) s = .next (s.loseDomain d) := by
  show execSyncTimeout d s = _
  have hgate : (s.running && decide (d < 2) && ((s.domain d).state == .acquiring || (s.domain d).state == .locked)) = true := by
    simpa [hrun, hd] using hstate
  simp only [execSyncTimeout, hgate, if_true]

theorem execAnnounceReceiptTimeout_loses (hrun : s.running = true) (hd : d < 2) (hon : (s.domain d).enabled = true)
    (hmaster : (s.domain d).master.isSome = true) : exec (.announceReceiptTimeout d) s = .next (s.loseDomain d) := by
  show execAnnounceReceiptTimeout d s = _
  simp [execAnnounceReceiptTimeout, hrun, hd, hon, hmaster]

/-! ### Ethernet ports (R331, Table 13-8) -/

theorem execArpRequest_up (hup : s.portUp port = true) (hip : (s.port port).ip ≠ 0) (mac ip target : Nat) :
    exec (.arpRequest port mac ip target) s =
      .next (if target = (s.port port).ip then { s with out := s.out ++ [.arpReply port mac ip] } else s) := by
  show execArpRequest port mac ip target s = _
  simp only [execArpRequest, hup, bne_iff_ne.2 hip, Bool.true_and, beq_iff_eq]
  rfl

theorem execIcmpEchoRequest_up (hup : s.portUp port = true) (hip : (s.port port).ip ≠ 0) (ws : List Word) :
    exec (.icmpEchoRequest port ws) s = .next { s with out := s.out ++ [.echoReply port ws] } := by
  show execIcmpEchoRequest port ws s = _
  simp only [execIcmpEchoRequest, hup, bne_iff_ne.2 hip, Bool.true_and, if_true]
  rfl

/-- A device without peers has none whose port a link change could move. -/
theorem execEthernetLinkChange_noPeers (hrun : s.running = true) (hport : port < 2) (hnone : s.chord.peers = []) (up : Bool) (rate : Nat) :
    exec (.ethernetLinkChange port up rate) s =
      .next (s.modPort port fun p => { p with link := up && p.speed != 0 && p.speed == rate }) := by
  have hsmall : ¬2 ≤ port := by omega
  have hpeers (f : EthPort → EthPort) : (s.modPort port f).chord.peers = [] := hnone
  show execEthernetLinkChange port up rate s = _
  simp only [execEthernetLinkChange, hrun, hsmall, Bool.not_true, decide_false, Bool.or_false, Bool.false_eq_true, if_false, hpeers,
    List.map_nil]
  congr 1
  show { s.modPort port _ with chord := { s.chord with peers := [] } } = s.modPort port _
  rw [← hnone]
  rfl

end

/-- Settles O35: a request, a timeout and an Ethernet event each by what their rows make of the domain and the port. -/
theorem ptpTimersAndPorts : Obligations.PtpTimersAndPorts := by
  unfold Obligations.PtpTimersAndPorts
  refine ⟨?request, ?syncTimeout, ?announceTimeout, fun s port mac ip target hup hip => execArpRequest_up hup hip mac ip target,
    fun s port ws hup hip => execIcmpEchoRequest_up hup hip ws, fun s port mac ip target ws hdown => ⟨?arpDown, ?echoDown⟩,
    fun s port rate up hrun hport hnone => execEthernetLinkChange_noPeers hrun hport hnone up rate⟩
  case request =>
    intro s port d hup hd hon hport hnone hroom hports
    refine ⟨_, execDelayReqSend_sends hup hd hon hport hnone hroom, ?_⟩
    have heffect := State.modDomain_effect (s := (s.emit (.ptp port (s.domain d).requestType (s.port port).seq
      (s.domain d).number)).modPort port (EthPort.requested (s.domain d).requestType (s.domain d).number (s.txTime port).toNat))
      (State.domain_exists_of_enabled hon) (Domain.requested (s.port port).seq (s.txTime port).toNat)
    obtain ⟨hself, hothers, htime⟩ := heffect
    have hp : port < (s.emit (.ptp port (s.domain d).requestType (s.port port).seq (s.domain d).number)).datum.ports.length := hports
    exact ⟨rfl, hself, State.port_modPort hp _, hothers, fun q hq => State.port_modPort_of_ne hq _, htime⟩
  case syncTimeout =>
    intro s d hrun hd hstate hfree
    obtain ⟨hself, hothers, htime, hout⟩ := State.loseDomain_effect (State.domain_exists_of_state hstate) hfree
    refine ⟨_, execSyncTimeout_loses hrun hd hstate, ?_⟩
    beta_reduce
    rw [hself]
    exact ⟨rfl, rfl, rfl, rfl, hothers, htime, hout⟩
  case announceTimeout =>
    intro s d hrun hd hon hmaster hfree
    obtain ⟨hself, hothers, htime, hout⟩ := State.loseDomain_effect (State.domain_exists_of_enabled hon) hfree
    refine ⟨_, execAnnounceReceiptTimeout_loses hrun hd hon hmaster, ?_⟩
    beta_reduce
    rw [hself]
    exact ⟨rfl, rfl, rfl, hothers, htime, hout⟩
  case arpDown =>
    show execArpRequest port mac ip target s = _
    simp [execArpRequest, hdown]
  case echoDown =>
    show execIcmpEchoRequest port ws s = _
    simp [execIcmpEchoRequest, hdown]

end Sys2Proof.Machine
end

section
/-! SUPPORT. Chord: peers and their streams, what a datagram that is heard leaves, roles (13_time_chord.md R343-R348). -/

namespace Sys2Proof.Machine

/-! ### One peer after an update -/

section
variable {s : State} {id : Nat} {p : Peer}

theorem State.peer?_congr {t : State} (h : t.chord.peers = s.chord.peers) (id : Nat) : t.peer? id = s.peer? id := by
  unfold State.peer?; rw [h]

theorem State.peer?_id (h : s.peer? id = some p) : p.id = id := by
  simpa using List.find?_some h

/-- The peer that an id names, after a change of the peers of that id. -/
theorem State.peer?_modPeer {f : Peer → Peer} (hf : ∀ q, (f q).id = q.id) (h : s.peer? id = some p) :
    (s.modPeer id f).peer? id = some (f p) := by
  have hkeep : ((fun q : Peer => q.id == id) ∘ fun q => if q.id = id then f q else q) = fun q => q.id == id := by
    funext q
    simp only [Function.comp_apply]
    split <;> simp [hf]
  have hfind : s.chord.peers.find? (fun q => q.id == id) = some p := h
  show (s.chord.peers.map fun q => if q.id = id then f q else q).find? _ = _
  rw [List.find?_map, hkeep, hfind, Option.map_some, if_pos (State.peer?_id h)]

theorem State.modPeer_modPeer {f : Peer → Peer} (hf : ∀ q, (f q).id = q.id) (g : Peer → Peer) :
    (s.modPeer id f).modPeer id g = s.modPeer id (g ∘ f) := by
  simp only [State.modPeer, List.map_map]
  congr 3
  funext q
  by_cases hq : q.id = id <;> simp [hq, hf]

end

section
variable (s : State) (id : Nat) (f : Peer → Peer)

@[simp] theorem State.modPeer_fuses : (s.modPeer id f).fuses = s.fuses := rfl
@[simp] theorem State.modPeer_ctl : (s.modPeer id f).ctl = s.ctl := rfl
@[simp] theorem State.modPeer_hif : (s.modPeer id f).hif = s.hif := rfl
@[simp] theorem State.modPeer_seq : (s.modPeer id f).seq = s.seq := rfl
@[simp] theorem State.modPeer_dies : (s.modPeer id f).dies = s.dies := rfl
@[simp] theorem State.modPeer_dmaT : (s.modPeer id f).dmaT = s.dmaT := rfl
@[simp] theorem State.modPeer_datum : (s.modPeer id f).datum = s.datum := rfl
@[simp] theorem State.modPeer_out : (s.modPeer id f).out = s.out := rfl
@[simp] theorem State.modPeer_roles : (s.modPeer id f).chord.roles = s.chord.roles := rfl
@[simp] theorem State.modPeer_enabled : (s.modPeer id f).chord.enabled = s.chord.enabled := rfl
@[simp] theorem State.modPeer_session : (s.modPeer id f).chord.session = s.chord.session := rfl
@[simp] theorem State.modPeer_groups : (s.modPeer id f).chord.groups = s.chord.groups := rfl
@[simp] theorem State.modPeer_offers : (s.modPeer id f).chord.offers = s.chord.offers := rfl
@[simp] theorem State.modPeer_receiveCh : (s.modPeer id f).chord.receiveCh = s.chord.receiveCh := rfl
@[simp] theorem State.modPeer_stale : (s.modPeer id f).chord.stale = s.chord.stale := rfl

end

/-! ### Entries leave Chord alone -/

section
variable (s : State) (c : Ctx) (status : Nat) (res : List Nat)

@[simp] theorem State.interim_chord : (s.interim c status res).chord = s.chord :=
  (congrArg State.chord (s.interim_unreported c status res) :)
@[simp] theorem State.interim_datum : (s.interim c status res).datum = s.datum :=
  (congrArg State.datum (s.interim_unreported c status res) :)
@[simp] theorem State.interim_deviceId : (s.interim c status res).ctl.deviceId = s.ctl.deviceId :=
  (congrArg (·.ctl.deviceId) (s.interim_unreported c status res) :)

@[simp] theorem State.finalOpt_chord (c : Option Ctx) : (s.finalOpt c status res).chord = s.chord := by
  cases c with
  | none => rfl
  | some c => exact (congrArg State.chord (s.final_unreported c status res) :)

end

/-! ### Queued messages go out (R345) -/

/-- A stream with one more message to send. -/
def Peer.queue (m : ChordMsg) (q : Peer) : Peer := { q with queued := q.queued ++ [m] }

/-- A stream that has sent its only queued message. -/
def Peer.sent (m : ChordMsg) (q : Peer) : Peer :=
  { q with queued := [], unacked := q.unacked ++ [m], next := (q.next + 1) % 2 ^ 32 }

theorem Peer.sent_queue {q : Peer} (h : q.queued = []) (m m' : ChordMsg) :
    (q.queue m).sent m' = { q with unacked := q.unacked ++ [m'], next := (q.next + 1) % 2 ^ 32 } := by
  simp [Peer.sent, Peer.queue, h]

section
variable {s : State} {id : Nat} {p : Peer} (hp : s.peer? id = some p)
include hp

theorem State.pumpFuel_idle (hqueued : p.queued = []) (fuel : Nat) : s.pumpFuel id fuel = s := by
  cases fuel with
  | zero => rfl
  | succ fuel => simp [State.pumpFuel, hp, hqueued]

/-- The only message queued for a peer with room goes out, as the next of its stream. -/
theorem State.pump_one {m : ChordMsg} (hqueued : p.queued = [m]) (hroom : p.unacked.length < 8) (hon : s.chord.enabled = true) :
    s.pump id = ((s.modPeer id (Peer.sent { m with seq := p.next })).sendMsg p { m with seq := p.next }).count 0 189 1 := by
  have hfew : ¬8 ≤ p.unacked.length := by omega
  rw [State.pump, State.pumpFuel]
  simp only [hp, hqueued, hfew, hon, decide_false, Bool.not_true, Bool.or_false, Bool.false_eq_true, if_false]
  refine State.pumpFuel_idle (p := Peer.sent { m with seq := p.next } p) ?_ rfl 7
  refine (State.peer?_congr ?_ id).trans (State.peer?_modPeer (f := Peer.sent { m with seq := p.next }) (fun _ => rfl) hp)
  rw [State.count_chord]
  rfl

/-- A message posted to a peer with room and nothing queued is sent as the next of its stream. -/
theorem State.post_eq (hqueued : p.queued = []) (hroom : p.unacked.length < 8) (hon : s.chord.enabled = true) (m : ChordMsg) :
    s.post id m = ((s.modPeer id (Peer.sent { m with seq := p.next } ∘ Peer.queue m)).sendMsg (p.queue m)
      { m with seq := p.next }).count 0 189 1 := by
  have hqueue := State.peer?_modPeer (f := Peer.queue m) (fun _ => rfl) hp
  simp only [State.post, hp, hon, Option.isNone_some, Bool.not_true, Bool.or_false, Bool.false_eq_true, if_false]
  have hpump := State.pump_one hqueue (m := m) (by simp [Peer.queue, hqueued]) hroom hon
  rw [State.modPeer_modPeer (f := Peer.queue m) fun _ => rfl] at hpump
  exact hpump

theorem State.post_effect (hqueued : p.queued = []) (hroom : p.unacked.length < 8) (hon : s.chord.enabled = true) (m : ChordMsg) :
    let t := s.post id m
    t.out = s.out ++ [.chord p.via p.id (s.msgWords p m.type m.role m.epoch p.next m.payload)] ∧ t.hif = s.hif
      ∧ t.peer? id = some ((p.queue m).sent { m with seq := p.next }) ∧ t.chord.roles = s.chord.roles ∧ t.seq = s.seq
      ∧ t.datum = s.datum := by
  dsimp only
  rw [State.post_eq hp hqueued hroom hon, State.count_out, State.count_hif, State.count_chord, State.count_seq, State.count_datum,
    State.peer?_congr (congrArg Chord.peers (State.count_chord _ _ _ _))]
  exact ⟨rfl, rfl, State.peer?_modPeer (f := Peer.sent { m with seq := p.next } ∘ Peer.queue m) (fun _ => rfl) hp, rfl, rfl, rfl⟩

end

/-! ### The commands (R346, R348, R352) -/

section
variable {p : Packet} {c : Ctx} {s : State}

theorem chordConfigBody_config (env : List Word) (hsec : p.param 0 = 1) (hlow : 1 ≤ p.param 3) (hhigh : p.param 3 ≤ 10000) :
    chordConfigBody env p c s = { s.finish c ok [] with
      chord := { s.chord with
        udpPort := p.param 1 % 65536, enabled := bit (p.param 1) 16, rtoUs := p.param 2 % 65536
        retriesMax := p.param 2 / 65536 % 16, syncMs := p.param 3, aggregate := bit (p.param 4) 0
        stitchEast := bit (p.param 4) 1, stitchWest := bit (p.param 4) 2 } } := by
  simp [chordConfigBody, hsec, Nat.one_le_iff_ne_zero.1 hlow, Nat.not_lt.2 hhigh, bits]

theorem chordConfigBody_badPeriod (env : List Word) (hsec : p.param 0 = 1) (hout : p.param 3 = 0 ∨ 10000 < p.param 3) :
    chordConfigBody env p c s = s.finish c badParam [] := by
  simp only [chordConfigBody, hsec, Nat.lt_one_iff, Bool.or_eq_true, decide_eq_true_eq, hout, if_true]
  rfl

/-- A device without peers takes over a table of peers. -/
theorem chordConfigBody_peers {env : List Word} {ps : List Peer} (hsec : p.param 0 = 2) (hlow : 1 ≤ p.param 3)
    (hhigh : p.param 3 ≤ 1024) (hnone : s.chord.peers = []) (hps : peerEntries [] (p.param 3) env = some ps) :
    chordConfigBody env p c s = { s.hostRead (8 * p.param 3) with
      chord.peers := ps.map (fun (q : Peer) => { q with failedOver := q.port == 2 && !(s.port 0).link }) }.finish c ok [] := by
  have hport : (s.hostRead (8 * p.param 3)).port 0 = s.port 0 := by simp [State.port]
  simp [chordConfigBody, hsec, Nat.one_le_iff_ne_zero.1 hlow, Nat.not_lt.2 hhigh, hnone, hps, hport]

theorem roleSetBody_newer (hnew : (s.role (p.param 0 % 4)).epoch < p.param 1)
    (hother : ¬(p.param 0 % 4 < 2 ∧ p.param 2 % 1024 = s.ctl.deviceId ∧ s.chord.enabled = true)) :
    roleSetBody p c s = ({ s with
      chord.roles := s.chord.roles.set (p.param 0 % 4) { holder := p.param 2 % 1024, epoch := p.param 1 } }.finish c ok [p.param 1]) := by
  simp only [roleSetBody, hnew, if_true, Bool.and_eq_true, decide_eq_true_eq]
  rw [if_neg (by tauto)]

theorem roleSetBody_same (hsame : s.role (p.param 0 % 4) = { holder := p.param 2 % 1024, epoch := p.param 1 }) :
    roleSetBody p c s = s.finish c ok [p.param 1] := by
  simp [roleSetBody, hsame]

theorem roleSetBody_stale (hstale : p.param 1 < (s.role (p.param 0 % 4)).epoch
      ∨ (p.param 1 = (s.role (p.param 0 % 4)).epoch ∧ p.param 2 % 1024 ≠ (s.role (p.param 0 % 4)).holder)) :
    roleSetBody p c s = s.finish c staleRoleStatus [(s.role (p.param 0 % 4)).epoch] := by
  have hold : ¬(s.role (p.param 0 % 4)).epoch < p.param 1 := by omega
  have hother : ¬(p.param 1 = (s.role (p.param 0 % 4)).epoch ∧ p.param 2 % 1024 = (s.role (p.param 0 % 4)).holder) := by omega
  simp [roleSetBody, hold, hother]

/-- The payload of a CHORD_SEND: the packet's parameters after the first. -/
def sendPayload (p : Packet) : List Word := (List.range 13).map fun i => BitVec.ofNat 32 (p.param (i + 1))

/-- The message of a CHORD_SEND that names a device. -/
def sendMessage (p : Packet) (c : Ctx) : ChordMsg := { ChordMsg.of 0x01 (sendPayload p) with ctx := some c }

theorem bit31_eq_false {n : Nat} (h : n < 2 ^ 31) : bit n 31 = false := by
  rw [bit, Nat.div_eq_of_lt h]
  rfl

theorem chordSendBody_noPeer (hdirect : p.param 0 < 2 ^ 31) (hnone : 1024 ≤ p.param 0 ∨ s.peer? (p.param 0) = none) :
    chordSendBody p c s = s.finish c badParam [] := by
  simp only [chordSendBody, bit31_eq_false hdirect, Bool.false_eq_true, if_false]
  obtain hbig | hnone := hnone
  · simp [Nat.not_lt.2 hbig]
  · by_cases hid : p.param 0 < 1024
    · simp [Nat.mod_eq_of_lt hid, hnone]
    · simp [hid]

theorem chordSendBody_posts (hdirect : p.param 0 < 2 ^ 31) (hid : p.param 0 < 1024) {q : Peer} (hq : s.peer? (p.param 0) = some q) :
    chordSendBody p c s = (s.interim c ok []).post (p.param 0) (sendMessage p c) := by
  simp [chordSendBody, bit31_eq_false hdirect, Nat.mod_eq_of_lt hid, hid, hq, sendMessage, sendPayload, ChordMsg.of]

end

/-- Settles O36: each command answers what its body makes of the packet. -/
theorem chordCommands : Obligations.ChordCommands := by
  unfold Obligations.ChordCommands
  refine ⟨fun s p env htakes => ?config, fun s p htakes => ?role, fun s p htakes hdirect => ?send⟩
  case config =>
    have hrun : exec (.chordConfig p env) s = .next (chordConfigBody env (Packet.ofRow 0x0503 p) (s.cmd 0x0503 p) s) :=
      State.direct_takes htakes (chordConfigBody env)
    refine ⟨fun hsec hlow hhigh => ?_, fun hsec hout => ?_, fun ps hsec hlow hhigh hnone hps => ?_⟩
    · rw [hrun, chordConfigBody_config env (by simpa using hsec) (by simpa using hlow) (by simpa using hhigh)]
      simp only [Packet.ofRow_param]
    · rw [hrun, chordConfigBody_badPeriod env (by simpa using hsec) (by simpa using hout)]
    · rw [hrun, chordConfigBody_peers (by simpa using hsec) (by simpa using hlow) (by simpa using hhigh) hnone (by simpa using hps)]
      simp only [Packet.ofRow_param]
  case role =>
    have hrun : exec (.roleSet p) s = .next (roleSetBody (Packet.ofRow 0x0504 p) (s.cmd 0x0504 p) s) :=
      State.direct_takes htakes roleSetBody
    refine ⟨fun hnew hother => ?_, fun hsame => ?_, fun hstale => ?_⟩
    · rw [hrun, roleSetBody_newer (by simpa using hnew) (by simpa using hother)]
      simp only [Packet.ofRow_param]
    · rw [hrun, roleSetBody_same (by simpa using hsame)]
      simp only [Packet.ofRow_param]
    · rw [hrun, roleSetBody_stale (by simpa using hstale)]
      simp only [Packet.ofRow_param]
  case send =>
    have hrun : exec (.chordSend p) s = .next (chordSendBody (Packet.ofRow 0x0505 p) (s.cmd 0x0505 p) s) :=
      State.direct_takes htakes chordSendBody
    refine ⟨fun hnone => ?_, fun q hid hq hon hroom hqueued => ?_⟩
    · rw [hrun, chordSendBody_noPeer (by simpa using hdirect) (by simpa using hnone)]
    · refine ⟨_, hrun.trans (by rw [chordSendBody_posts (by simpa using hdirect) (by simpa using hid) (by simpa using hq)]), ?_⟩
      have hq' : (s.interim (s.cmd 0x0505 p) ok []).peer? (p.param 0) = some q := by simpa [State.peer?] using hq
      obtain ⟨hout, hhif, hpeer, hroles, hseq, hdatum⟩ := State.post_effect hq' hqueued hroom (by simpa using hon)
        (sendMessage (Packet.ofRow 0x0505 p) (s.cmd 0x0505 p))
      simp only [Packet.ofRow_param] at hout hhif hpeer hroles hseq hdatum ⊢
      refine ⟨?_, hhif, ?_, ?_, ?_, ?_⟩
      · rw [hout]
        simp only [State.msgWords, State.interim_deviceId, State.interim_chord, sendMessage, sendPayload, ChordMsg.of,
          Packet.ofRow_param]
      · rw [hpeer, Peer.sent_queue hqueued]
        simp only [sendMessage, sendPayload, ChordMsg.of, Packet.ofRow_param]
      · simpa using hroles
      · simpa using hseq
      · simpa using hdatum

end Sys2Proof.Machine
end

section
/-! SUPPORT. Datagrams that Chord receives (13_time_chord.md R344-R351). -/

namespace Sys2Proof.Machine

/-! ### The tests of R344 -/

/-- What a datagram of a peer leaves before it is delivered: its session is its sender's, and it is counted. -/
def State.metBy (s : State) (h : ChordHdr) (p : Peer) : State :=
  (s.modPeer h.src fun q => { q with session := h.session, last := if p.session = h.session then p.last else 0 }).count 0 190 1

/-- What a datagram that is next in its stream leaves before it is delivered: the stream moves on, and an ACK goes back. -/
def State.heardBy (s : State) (h : ChordHdr) (p : Peer) : State :=
  ((((s.metBy h p).modPeer h.src fun q => { q with last := h.seq }).emit (.chord p.via p.id (s.ackWords p h.seq)))).count 0 189 1

/-- The peer of a datagram that is next in its stream, after it. -/
def Peer.moved (h : ChordHdr) (p : Peer) : Peer := { p with session := h.session, last := h.seq }

section
variable (s : State) (h : ChordHdr) (p : Peer)

@[simp] theorem State.metBy_ctl : (s.metBy h p).ctl = s.ctl := by simp [State.metBy]
@[simp] theorem State.metBy_hif : (s.metBy h p).hif = s.hif := by simp [State.metBy]
@[simp] theorem State.metBy_seq : (s.metBy h p).seq = s.seq := by simp [State.metBy]
@[simp] theorem State.metBy_dmaT : (s.metBy h p).dmaT = s.dmaT := by simp [State.metBy]
@[simp] theorem State.metBy_datum : (s.metBy h p).datum = s.datum := by simp [State.metBy]
@[simp] theorem State.metBy_out : (s.metBy h p).out = s.out := by simp [State.metBy]
@[simp] theorem State.metBy_roles : (s.metBy h p).chord.roles = s.chord.roles := by simp [State.metBy]
@[simp] theorem State.metBy_groups : (s.metBy h p).chord.groups = s.chord.groups := by simp [State.metBy]
@[simp] theorem State.metBy_offers : (s.metBy h p).chord.offers = s.chord.offers := by simp [State.metBy]
@[simp] theorem State.metBy_receiveCh : (s.metBy h p).chord.receiveCh = s.chord.receiveCh := by simp [State.metBy]
@[simp] theorem State.metBy_stale : (s.metBy h p).chord.stale = s.chord.stale := by simp [State.metBy]
@[simp] theorem State.metBy_session : (s.metBy h p).chord.session = s.chord.session := by simp [State.metBy]

@[simp] theorem State.heardBy_ctl : (s.heardBy h p).ctl = s.ctl := by simp [State.heardBy]
@[simp] theorem State.heardBy_hif : (s.heardBy h p).hif = s.hif := by simp [State.heardBy]
@[simp] theorem State.heardBy_seq : (s.heardBy h p).seq = s.seq := by simp [State.heardBy]
@[simp] theorem State.heardBy_dmaT : (s.heardBy h p).dmaT = s.dmaT := by simp [State.heardBy]
@[simp] theorem State.heardBy_datum : (s.heardBy h p).datum = s.datum := by simp [State.heardBy]
@[simp] theorem State.heardBy_out : (s.heardBy h p).out = s.out ++ [.chord p.via p.id (s.ackWords p h.seq)] := by
  simp [State.heardBy]

@[simp] theorem State.heardBy_roles : (s.heardBy h p).chord.roles = s.chord.roles := by simp [State.heardBy]
@[simp] theorem State.heardBy_groups : (s.heardBy h p).chord.groups = s.chord.groups := by simp [State.heardBy]
@[simp] theorem State.heardBy_offers : (s.heardBy h p).chord.offers = s.chord.offers := by simp [State.heardBy]
@[simp] theorem State.heardBy_receiveCh : (s.heardBy h p).chord.receiveCh = s.chord.receiveCh := by simp [State.heardBy]

end

section
variable {s : State} {port type : Nat} {ws : List Word} {h : ChordHdr} {p : Peer}

theorem State.role_congr {t : State} (hroles : t.chord.roles = s.chord.roles) (r : Nat) : t.role r = s.role r := by
  unfold State.role; rw [hroles]

theorem State.roleMatches_congr {t : State} (hroles : t.chord.roles = s.chord.roles) (hid : t.ctl.deviceId = s.ctl.deviceId)
    (r epoch src : Nat) : t.roleMatches r epoch src = s.roleMatches r epoch src := by
  simp only [State.roleMatches, State.role_congr hroles, hid]

theorem State.metBy_peer (hpeer : s.peer? h.src = some p) : (s.metBy h p).peer? h.src =
    some { p with session := h.session, last := if p.session = h.session then p.last else 0 } := by
  refine (State.peer?_congr (congrArg Chord.peers (State.count_chord _ _ _ _)) h.src).trans ?_
  exact State.peer?_modPeer (f := fun q => { q with session := h.session, last := if p.session = h.session then p.last else 0 })
    (fun _ => rfl) hpeer

theorem State.heardBy_peer (hpeer : s.peer? h.src = some p) : (s.heardBy h p).peer? h.src = some (p.moved h) := by
  refine (State.peer?_congr (congrArg Chord.peers (State.count_chord _ _ _ _)) h.src).trans ?_
  exact State.peer?_modPeer (f := fun q => { q with last := h.seq }) (fun _ => rfl) (State.metBy_peer hpeer)

/-- A datagram whose header fails the first test is only counted (R344). -/
theorem State.receive_bad (hup : s.portUp port = true) (hon : s.chord.enabled = true) (hbad : chordHeader ws = none)
    (act : ChordHdr → List Word → State → State) :
    s.receive port type ws act = { s with chord.rxDrop := satInc s.chord.rxDrop } := by
  simp [State.receive, hup, hon, hbad]

/-- An answer, ACK or STALE_ROLE, is outside the streams. -/
theorem State.receive_answer (hgets : s.Gets port type ws h p) (htype : type = 2 ∨ type = 3)
    (act : ChordHdr → List Word → State → State) :
    s.receive port type ws act = act h (chordPayload ws) (s.metBy h p) := by
  obtain ⟨hup, hon, hheader, hpeer, hdst, hkind, -⟩ := hgets
  simp only [State.receive, hup, hon, hheader, hpeer, hdst, hkind, Bool.not_true, Bool.false_eq_true, if_false, ne_eq,
    not_true_eq_false, Bool.or_eq_true, decide_eq_true_eq, htype, if_true]
  rfl

theorem State.answer_eq {ref src kind : Nat} {payload : List Word} (hpeer : s.peer? src = some p) :
    s.answer src kind ref payload = (s.chordEmit p kind none 0 0 ref payload).count 0 189 1 := by
  rw [State.answer, hpeer]

/-- A message that is next in its stream is acknowledged and delivered. -/
theorem State.receive_next (hhears : s.Hears port type ws h p) (htype : ¬(type = 2 ∨ type = 3))
    (act : ChordHdr → List Word → State → State) :
    s.receive port type ws act = act h (chordPayload ws) (s.heardBy h p) := by
  obtain ⟨⟨hup, hon, hheader, hpeer, hdst, hkind, hrole⟩, hseq⟩ := hhears
  have hmatch (r : Nat) (hr : h.role = some r) : (s.metBy h p).roleMatches r h.epoch h.src = true := by
    rw [State.roleMatches_congr (State.metBy_roles s h p) (congrArg Ctl.deviceId (State.metBy_ctl s h p))]
    simpa [hr] using hrole
  have hnew : ¬h.seq ≤ if p.session = h.session then p.last else 0 := by omega
  have hnext : ¬(if p.session = h.session then p.last else 0) + 1 < h.seq := by omega
  simp only [State.receive, hup, hon, hheader, hpeer, hdst, hkind, Bool.not_true, Bool.false_eq_true, if_false, ne_eq,
    not_true_eq_false, Bool.or_eq_true, decide_eq_true_eq, htype]
  rw [← State.metBy, if_neg, if_neg hnew, if_neg hnext]
  case hnc => cases hr : h.role <;> simp [hmatch, hr]
  rw [State.answer_eq (p := { p with session := h.session, last := h.seq })
    (State.peer?_modPeer (f := fun q => { q with last := h.seq }) (fun _ => rfl) (State.metBy_peer hpeer))]
  congr 2
  simp only [State.chordEmit, State.ackWords, State.modPeer_ctl, State.modPeer_session, State.metBy_ctl,
    State.metBy_session]
  rfl

end

/-! ### Delivery to the host (R346), and the roles (R348) -/

section
variable {s : State}

/-- A record that fits is taken by the channel its source is bound to (R92). -/
theorem State.record_fits {ch : Nat} {c : DmaT} {src : TSource} {ws : List Word} (hc : s.dmaT[ch]? = some c) (hsrc : c.source = src)
    (hon : c.enabled = true) (hfits : c.waitingBytes + 4 * ws.length ≤ c.room) :
    s.record ch src ws = { s with dmaT := s.dmaT.set ch { c with waiting := c.waiting ++ [ws] } } := by
  have hlost : ¬c.room < c.waitingBytes + 4 * ws.length := by omega
  simp only [State.record, hc, hlost, decide_false, Bool.and_false, Bool.false_eq_true, if_false]
  congr 1
  rw [List.modify_eq_set_getElem?, hc]
  simp [hsrc, hon, hfits]

/-- A record of the receive stream that its channel has room for. -/
theorem State.chordRecord_effect {ch : Nat} {c : DmaT} (hch : s.chord.receiveCh = some ch) (hc : s.dmaT[ch]? = some c)
    (hsrc : c.source = .chord) (hon : c.enabled = true) {pl : List Word}
    (hroom : c.waitingBytes + 4 * (8 + pl.length + (8 - pl.length % 8) % 8) ≤ c.room) (type src seq epoch : Nat) :
    let t := s.chordRecord type src seq epoch pl
    (∃ es, t.out = s.out ++ es) ∧ t.dmaT[ch]? = some { c with waiting := c.waiting ++ [s.recordWords type src seq epoch pl] }
      ∧ t.chord = s.chord ∧ t.seq = s.seq ∧ t.datum = s.datum ∧ t.hif = s.hif := by
  have hlow : BitVec.ofNat 32 (s.timeSec % 2 ^ 32) = BitVec.ofNat 32 s.timeSec := BitVec.eq_of_toNat_eq (by simp)
  have hlt := (List.getElem?_eq_some_iff.1 hc).1
  have hrec : s.chordRecord type src seq epoch pl = State.signal
      { s with dmaT := s.dmaT.set ch { c with waiting := c.waiting ++ [s.recordWords type src seq epoch pl] } } 23 := by
    simp only [State.chordRecord, hch]
    rw [State.record_fits hc hsrc hon]
    · simp only [State.recordWords, lo32, hi32, List.map_cons, List.map_nil, hlow]
    · simpa only [List.length_append, List.length_replicate, List.length_cons, List.length_nil, Nat.zero_add] using hroom
  dsimp only
  rw [hrec, State.signal_dmaT, State.signal_chord, State.signal_seq, State.signal_datum, State.signal_hif]
  exact ⟨State.signal_out _ _, by simp [hlt], rfl, rfl, rfl, rfl⟩

/-- Where no message of a role is under way and no stripe is admitted, adopting a newer holder changes only the role's entry. -/
theorem State.adoptRole_idle {r epoch : Nat} (hnew : (s.role r).epoch < epoch) (hnone : s.seq.stripes = [])
    (hidle : ∀ q ∈ s.chord.peers, q.unacked = [] ∧ q.queued = []) (holder : Nat) :
    s.adoptRole r epoch holder = { s with chord.roles := s.chord.roles.set r { holder := holder, epoch := epoch } } := by
  have hold : ¬epoch ≤ (s.role r).epoch := by omega
  have hmessages (f : ChordMsg → Bool) : (s.chord.peers.flatMap fun q => (q.unacked ++ q.queued).filter f) = [] := by
    rw [List.flatMap_eq_nil_iff]
    intro q hq
    simp [hidle q hq]
  have hpeers (f : ChordMsg → Bool) :
      (s.chord.peers.map fun q => { q with unacked := q.unacked.filter f, queued := q.queued.filter f }) = s.chord.peers := by
    refine (List.map_congr_left fun q hq => ?_).trans (List.map_id _)
    obtain ⟨hunacked, hqueued⟩ := hidle q hq
    cases q
    simp_all
  simp only [State.adoptRole, hold, if_false, State.takeRole, hmessages, hpeers, List.foldl_nil, State.goWaits, hnone]

/-- The roles after one entry has been set. -/
theorem State.role_set {t : State} {r : Nat} {x : Role} (hroles : t.chord.roles = s.chord.roles.set r x)
    (hr : r < s.chord.roles.length) : t.role r = x ∧ ∀ q, q ≠ r → t.role q = s.role q := by
  constructor
  · simp [State.role, hroles, hr]
  · intro q hq
    simp [State.role, hroles, List.getD_eq_getElem?_getD, List.getElem?_set_ne hq.symm]

/-- What a datagram leaves of the peers' messages. -/
theorem State.metBy_idle {h : ChordHdr} {p : Peer} (hidle : ∀ q ∈ s.chord.peers, q.unacked = [] ∧ q.queued = []) :
    ∀ q ∈ (s.metBy h p).chord.peers, q.unacked = [] ∧ q.queued = [] := by
  intro q hq
  rw [State.metBy, State.count_chord] at hq
  obtain ⟨q', hq', rfl⟩ := List.mem_map.1 hq
  split
  · exact hidle q' hq'
  · exact hidle q' hq'

theorem State.heardBy_idle {h : ChordHdr} {p : Peer} (hidle : ∀ q ∈ s.chord.peers, q.unacked = [] ∧ q.queued = []) :
    ∀ q ∈ (s.heardBy h p).chord.peers, q.unacked = [] ∧ q.queued = [] := by
  intro q hq
  rw [State.heardBy, State.count_chord] at hq
  obtain ⟨q', hq', rfl⟩ := List.mem_map.1 hq
  split
  · exact State.metBy_idle hidle q' hq'
  · exact State.metBy_idle hidle q' hq'

end

/-! ### What a datagram that is delivered leaves -/

section
variable {s : State} {port type : Nat} {ws : List Word} {h : ChordHdr} {p : Peer}

theorem State.peer_of_gets (hgets : s.Gets port type ws h p) : s.peer? h.src = some p := by
  obtain ⟨-, -, -, hpeer, -⟩ := hgets
  exact hpeer

theorem State.recordWords_congr {t : State} (hdatum : t.datum = s.datum) (type src seq epoch : Nat) (pl : List Word) :
    t.recordWords type src seq epoch pl = s.recordWords type src seq epoch pl := by
  simp only [State.recordWords, State.timeSec, State.timeNs, State.ns, hdatum]

/-- DATA and LEDGER_BATCH: a record of the receive stream (R346, R351). -/
theorem State.receive_record {ch : Nat} {c : DmaT} (hch : s.chord.receiveCh = some ch) (hc : s.dmaT[ch]? = some c)
    (hsrc : c.source = .chord) (hon : c.enabled = true)
    (hroom : c.waitingBytes + 4 * (8 + (chordPayload ws).length + (8 - (chordPayload ws).length % 8) % 8) ≤ c.room)
    (hhears : s.Hears port type ws h p) (htype : ¬(type = 2 ∨ type = 3)) :
    let t := s.receive port type ws fun h pl s => s.chordRecord type h.src h.seq h.epoch pl
    t.peer? h.src = some (p.moved h) ∧ (∃ es, t.out = s.out ++ .chord p.via p.id (s.ackWords p h.seq) :: es)
      ∧ t.dmaT[ch]? = some { c with waiting := c.waiting ++ [s.recordWords type h.src h.seq h.epoch (chordPayload ws)] }
      ∧ t.chord.roles = s.chord.roles ∧ t.seq = s.seq ∧ t.datum = s.datum ∧ t.hif = s.hif := by
  obtain ⟨⟨es, hout⟩, hdmaT, hchord, hseq, hdatum, hhif⟩ := State.chordRecord_effect (s := s.heardBy h p) (by simpa using hch)
    (by simpa using hc) hsrc hon hroom type h.src h.seq h.epoch
  have hpeer := State.heardBy_peer (State.peer_of_gets hhears.1)
  dsimp only
  rw [State.receive_next hhears htype]
  refine ⟨(State.peer?_congr (congrArg Chord.peers hchord) _).trans hpeer, ⟨es, ?_⟩, ?_, ?_, ?_, ?_, ?_⟩
  · rw [hout, State.heardBy_out, List.append_assoc]
    rfl
  · rw [hdmaT, State.recordWords_congr (State.heardBy_datum s h p)]
  · rw [hchord, State.heardBy_roles]
  · rw [hseq, State.heardBy_seq]
  · rw [hdatum, State.heardBy_datum]
  · rw [hhif, State.heardBy_hif]

/-- A datagram of a session that goes on. -/
theorem State.metBy_session_same (hsession : p.session = h.session) :
    s.metBy h p = (s.modPeer h.src fun q => { q with session := h.session, last := p.last }).count 0 190 1 := by
  rw [State.metBy, if_pos hsession]

/-- A message leaves the stream of the peer that has answered it. -/
def Peer.acknowledged (ref : Nat) (q : Peer) : Peer := { q with unacked := q.unacked.filter (fun x => x.seq != ref), tries := 0 }

/-- An ACK ends its message, and where nothing is queued no other goes out (R345). -/
theorem execAck_ends {m : ChordMsg} (hgets : s.Gets port 0x02 ws h p) (hfind : p.unacked.find? (fun m => m.seq == h.ref) = some m)
    (htype : m.type ≠ 0x20) (hqueued : p.queued = []) :
    exec (.ack port ws) s =
      .next (((s.metBy h p).modPeer h.src (Peer.acknowledged h.ref)).finalOpt m.ctx ok [h.src, m.epoch]) := by
  have hpeer := State.metBy_peer (State.peer_of_gets hgets)
  have hpump := State.pumpFuel_idle (s := ((s.metBy h p).modPeer h.src (Peer.acknowledged h.ref)).finalOpt m.ctx ok [h.src, m.epoch])
    ((State.peer?_congr (congrArg Chord.peers (State.finalOpt_chord _ _ _ _)) h.src).trans
      (State.peer?_modPeer (f := Peer.acknowledged h.ref) (fun _ => rfl) hpeer)) hqueued 8
  show execAck port ws s = _
  rw [execAck, State.receive_answer hgets (.inl rfl)]
  simp only [hpeer, Option.bind_some, hfind, State.acked, htype, if_false]
  exact congrArg _ hpump

/-- A STALE_ROLE is counted (R344). -/
def State.staleCounted (s : State) : State := { s with chord.stale := satInc s.chord.stale }

@[simp] theorem State.staleCounted_roles (s : State) : s.staleCounted.chord.roles = s.chord.roles := rfl
@[simp] theorem State.staleCounted_stale (s : State) : s.staleCounted.chord.stale = satInc s.chord.stale := rfl
@[simp] theorem State.staleCounted_out (s : State) : s.staleCounted.out = s.out := rfl

/-- STALE_ROLE with a newer epoch: it is adopted (R348). -/
theorem execStaleRole_newer (hgets : s.Gets port 0x03 ws h p)
    (hnew : (s.role (wordAt (chordPayload ws) 0 % 4)).epoch < wordAt (chordPayload ws) 1) (hnone : s.seq.stripes = [])
    (hidle : ∀ q ∈ s.chord.peers, q.unacked = [] ∧ q.queued = []) :
    exec (.staleRole port ws) s = .next { (s.metBy h p).staleCounted with
      chord.roles := (s.metBy h p).chord.roles.set (wordAt (chordPayload ws) 0 % 4)
        { holder := wordAt (chordPayload ws) 2 % 1024, epoch := wordAt (chordPayload ws) 1 } } := by
  have hnew' : ((s.metBy h p).staleCounted.role (wordAt (chordPayload ws) 0 % 4)).epoch < wordAt (chordPayload ws) 1 := by
    rw [State.role_congr (t := (s.metBy h p).staleCounted) (State.metBy_roles s h p)]
    exact hnew
  show execStaleRole port ws s = _
  rw [execStaleRole, State.receive_answer hgets (.inr rfl)]
  exact congrArg _ ((if_pos hnew').trans (State.adoptRole_idle hnew' ((congrArg Seq.stripes (State.metBy_seq s h p)).trans hnone)
    (State.metBy_idle hidle) _))

/-- STALE_ROLE with no newer epoch: the message waits to be sent again (R348). -/
theorem execStaleRole_again {m : ChordMsg} (hgets : s.Gets port 0x03 ws h p)
    (hold : wordAt (chordPayload ws) 1 ≤ (s.role (wordAt (chordPayload ws) 0 % 4)).epoch)
    (hfind : p.unacked.find? (fun m => m.seq == h.ref && m.role == some (wordAt (chordPayload ws) 0 % 4)) = some m)
    (hctx : m.ctx = none) :
    exec (.staleRole port ws) s = .next (((s.metBy h p).staleCounted.modPeer h.src (Peer.acknowledged h.ref)).modPeer h.src
      (Peer.queue { m with retries := m.retries + 1 })) := by
  have hold' : ¬((s.metBy h p).staleCounted.role (wordAt (chordPayload ws) 0 % 4)).epoch < wordAt (chordPayload ws) 1 := by
    rw [State.role_congr (t := (s.metBy h p).staleCounted) (State.metBy_roles s h p)]
    exact Nat.not_lt.2 hold
  have hpeer : (s.metBy h p).staleCounted.peer? h.src = _ := State.metBy_peer (State.peer_of_gets hgets)
  show execStaleRole port ws s = _
  rw [execStaleRole, State.receive_answer hgets (.inr rfl)]
  refine congrArg _ ((if_neg hold').trans ?_)
  rw [← State.staleCounted, hpeer]
  simp only [Option.bind_some, hfind, hctx, Option.isSome_none, Bool.false_and, Bool.false_eq_true, if_false]
  rfl

/-- ROLE_ANNOUNCE with a newer epoch: it is adopted (R348). -/
theorem execRoleAnnounce_newer (hhears : s.Hears port 0x04 ws h p)
    (hnew : (s.role (wordAt (chordPayload ws) 0 % 4)).epoch < wordAt (chordPayload ws) 1) (hnone : s.seq.stripes = [])
    (hidle : ∀ q ∈ s.chord.peers, q.unacked = [] ∧ q.queued = []) :
    exec (.roleAnnounce port ws) s = .next { s.heardBy h p with
      chord.roles := s.chord.roles.set (wordAt (chordPayload ws) 0 % 4)
        { holder := wordAt (chordPayload ws) 2 % 1024, epoch := wordAt (chordPayload ws) 1 } } := by
  have hrole := State.role_congr (State.heardBy_roles s h p) (wordAt (chordPayload ws) 0 % 4)
  show execRoleAnnounce port ws s = _
  rw [execRoleAnnounce, State.receive_next hhears (by decide), State.adoptRole_idle (by rw [hrole]; exact hnew) (by simpa using hnone)
    (State.heardBy_idle hidle), State.heardBy_roles]

/-- SYNC_READY of a group of which the coordinator knows no size: the group is noted (R349). -/
theorem execSyncReady_noted (hhears : s.Hears port 0x10 ws h p) (hgroups : s.chord.groups = [])
    (hsize : s.groupSize (wordAt (chordPayload ws) 0) = none) (hgood : wordAt (chordPayload ws) 2 % 2 = 0) :
    exec (.syncReady port ws) s = .next { s.heardBy h p with
      chord.groups := [{ group := wordAt (chordPayload ws) 0, members := [h.src], aborted := false, go := none }] } := by
  have hfailed : bit (wordAt (chordPayload ws) 2) 0 = false := by simp [bit, hgood]
  have hgroup : (s.heardBy h p).syncGroup (wordAt (chordPayload ws) 0)
      = { group := wordAt (chordPayload ws) 0, members := [], aborted := false, go := none } := by
    simp [State.syncGroup, hgroups]
  have hsize' : (s.heardBy h p).groupSize (wordAt (chordPayload ws) 0) = none := by
    simpa [State.groupSize] using hsize
  show execSyncReady port ws s = _
  rw [execSyncReady, State.receive_next hhears (by decide), State.syncReadyIn, hgroup, hsize', hfailed]
  simp [State.putGroup, hgroups]

/-- SYNC_GO for the oldest stripe, which waits for its group: trigger 12 is armed (R349). -/
theorem execSyncGo_arms {st : Stripe} {rest : List Stripe} (hhears : s.Hears port 0x11 ws h p) (hstripes : s.seq.stripes = st :: rest)
    (hmode : st.startMode = 2) (hsent : st.syncSent = true) (hgroup : st.startRef % 2 ^ 22 = wordAt (chordPayload ws) 0)
    (hgood : wordAt (chordPayload ws) 1 % 2 = 0) :
    exec (.syncGo port ws) s = .next ((s.heardBy h p).armTrigger 12
      (word64 (chordPayload ws) 2 * 1000000000 + wordAt (chordPayload ws) 4) 0) := by
  have hstart : bit (wordAt (chordPayload ws) 1) 0 = false := by simp [bit, hgood]
  have hstripes' : (s.heardBy h p).seq.stripes = st :: rest := by simpa using hstripes
  show execSyncGo port ws s = _
  rw [execSyncGo, State.receive_next hhears (by decide), State.syncGoIn, hstripes']
  have hgroup' : st.syncGroup = wordAt (chordPayload ws) 0 := hgroup
  simp [hmode, hsent, hgroup', hstart]

/-- A trigger whose time has not come is armed, and no more. -/
theorem State.armTrigger_future {t ns frac : Nat} (ht : t < s.datum.triggers.length)
    (hfuture : s.datum.time < ns * 2 ^ 48 + frac * 2 ^ 32) : s.armTrigger t ns frac =
      s.modTrigger t fun _ => { state := 1, late := false, ns := ns, frac := frac } := by
  have harmed : (s.modTrigger t fun _ => { state := 1, late := false, ns := ns, frac := frac }).trigger t
      = { state := 1, late := false, ns := ns, frac := frac } := getD_modify_self ht
  have hnot : ¬ns * 2 ^ 48 + frac * 2 ^ 32 ≤ (s.modTrigger t fun _ => { state := 1, late := false, ns := ns, frac := frac }).datum.time :=
    Nat.not_le.2 hfuture
  rw [State.armTrigger, if_neg]
  simp only [harmed, Trigger.reached, hnot, decide_false, Bool.false_eq_true, not_false_eq_true]

/-- The first STITCH_OFFER is held (R350). -/
theorem execStitchOffer_held (hhears : s.Hears port 0x12 ws h p) (hnone : s.chord.offers = []) :
    exec (.stitchOffer port ws) s = .next { s.heardBy h p with chord.offers := [offerOf (chordPayload ws)] } := by
  show execStitchOffer port ws s = _
  rw [execStitchOffer, State.receive_next hhears (by decide)]
  simp [hnone]

end

/-- Settles O37: each datagram passes the tests of R344 (`receive_next`, `receive_answer`) and then does what its type says. -/
theorem chordReceives : Obligations.ChordReceives := by
  unfold Obligations.ChordReceives
  refine ⟨fun s port ws hup hon hbad => ?_, fun s port ws h p => ⟨?records, ?ack, ?staleNewer, ?staleOlder, ?announce, ?ready, ?go,
    ?offer⟩⟩
  · have hdrop (type : Nat) (act : ChordHdr → List Word → State → State) :
        Host.Outcome.next (s.receive port type ws act) = (.next { s with chord.rxDrop := satInc s.chord.rxDrop } : Res) :=
      congrArg _ (State.receive_bad hup hon hbad act)
    exact ⟨hdrop _ _, hdrop _ _, hdrop _ _, hdrop _ _, hdrop _ _, hdrop _ _, hdrop _ _, hdrop _ _⟩
  case records =>
    intro ch c hch hc hsrc hen hroom
    exact ⟨fun hhears => ⟨_, rfl, State.receive_record hch hc hsrc hen hroom hhears (by decide)⟩,
      fun hhears => ⟨_, rfl, State.receive_record hch hc hsrc hen hroom hhears (by decide)⟩⟩
  case ack =>
    intro m hgets hsession hfind htype hqueued
    rw [execAck_ends hgets hfind htype hqueued, State.metBy_session_same hsession]
    rfl
  case staleNewer =>
    intro hgets hlen hnew hnone hidle
    have hroles := State.metBy_roles s h p
    obtain ⟨hself, hothers⟩ := State.role_set (s := s.metBy h p) (t := { (s.metBy h p).staleCounted with
      chord.roles := (s.metBy h p).chord.roles.set (wordAt (chordPayload ws) 0 % 4)
        { holder := wordAt (chordPayload ws) 2 % 1024, epoch := wordAt (chordPayload ws) 1 } }) rfl (by rw [hroles]; omega)
    exact ⟨_, execStaleRole_newer hgets hnew hnone hidle, hself, congrArg satInc (State.metBy_stale s h p),
      fun r hr => (hothers r hr).trans (State.role_congr hroles r), State.metBy_out s h p⟩
  case staleOlder =>
    intro m hgets hold hsession hfind hctx
    refine ⟨_, execStaleRole_again hgets hold hfind hctx, ?_, by simp, by simp, by simp⟩
    have hpeer : (s.metBy h p).staleCounted.peer? h.src = _ := State.metBy_peer (State.peer_of_gets hgets)
    rw [State.modPeer_modPeer (f := Peer.acknowledged h.ref) fun _ => rfl, State.peer?_modPeer
      (f := Peer.queue { m with retries := m.retries + 1 } ∘ Peer.acknowledged h.ref) (fun _ => rfl) hpeer, if_pos hsession,
      ← hsession]
    rfl
  case announce =>
    intro hhears hlen hnew hnone hidle
    have hroles := State.role_set (s := s) (t := { s.heardBy h p with
      chord.roles := s.chord.roles.set (wordAt (chordPayload ws) 0 % 4)
        { holder := wordAt (chordPayload ws) 2 % 1024, epoch := wordAt (chordPayload ws) 1 } }) rfl (by omega)
    exact ⟨_, execRoleAnnounce_newer hhears hnew hnone hidle, hroles.1, State.heardBy_peer (State.peer_of_gets hhears.1), hroles.2,
      State.heardBy_out s h p⟩
  case ready =>
    intro hhears hgroups hsize hgood
    exact ⟨_, execSyncReady_noted hhears hgroups hsize hgood, rfl, State.heardBy_peer (State.peer_of_gets hhears.1),
      State.heardBy_out s h p, State.heardBy_seq s h p, State.heardBy_datum s h p⟩
  case go =>
    intro st rest hhears hstripes hmode hsent hgroup hgood hlen hfuture
    have hdatum := State.heardBy_datum s h p
    have hlt : 12 < (s.heardBy h p).datum.triggers.length := by rw [hdatum, hlen]; decide
    refine ⟨_, (execSyncGo_arms hhears hstripes hmode hsent hgroup hgood).trans (congrArg _
      (State.armTrigger_future hlt (by rw [hdatum]; simpa using hfuture))), getD_modify_self hlt, fun u hu => ?_,
      State.heardBy_seq s h p, State.heardBy_peer (State.peer_of_gets hhears.1), State.heardBy_out s h p⟩
    refine (getD_modify_of_ne hu).trans ?_
    rw [hdatum]
    rfl
  case offer =>
    intro hhears hoffers
    refine ⟨_, execStitchOffer_held hhears hoffers, ?_, State.heardBy_peer (State.peer_of_gets hhears.1), State.heardBy_out s h p,
      State.heardBy_seq s h p⟩
    simp [offerOf, bit]

end Sys2Proof.Machine
end

section
/-! SUPPORT. The check-value units' registers and data ports (14_compression_crc.md R364-R367). -/

namespace Sys2Proof.Machine

section
variable {s : State} {d u : Nat} {x : Die} {c : CrcUnit} (hx : s.dies[d]? = some x) (hc : x.crc[u]? = some c)
include hx hc

/-- A change of one unit, as the die's list of units with that entry set. -/
theorem State.modCrc_eq_set (f : CrcUnit → CrcUnit) :
    s.modCrc d u f = { s with dies := s.dies.set d { x with crc := x.crc.set u (f c) } } := by
  simp [State.modCrc, State.modDie, List.modify_eq_set_getElem?, hx, hc]

theorem State.crcUnit_eq : s.crcUnit d u = c := by
  simp [State.crcUnit, State.die_eq_getElem?, hx, List.getD_eq_getElem?_getD, hc]

theorem State.crcUnit_modCrc (f : CrcUnit → CrcUnit) : (s.modCrc d u f).crcUnit d u = f c := by
  have hd := (List.getElem?_eq_some_iff.1 hx).1
  have hu := (List.getElem?_eq_some_iff.1 hc).1
  refine State.crcUnit_eq (x := { x with crc := x.crc.set u (f c) }) ?_ (by simp [hu])
  simp [State.modCrc_eq_set hx hc, hd]

variable (hon : s.domOn d 2 = true) (hd : d < s.nDies) (hu : u < 4)
include hon hd hu

/-- Firmware's write to a unit that a descriptor uses only sets cfg_locked (R367). -/
theorem State.crcPort_busy (hbusy : c.busy = true) (f : CrcUnit → CrcUnit) : s.crcPort d u f =
    .next { s with dies := s.dies.set d { x with crc := x.crc.set u { c with cfgLocked := true } } } := by
  simp [State.crcPort, hon, hd, hu, State.modCrc_eq_set hx hc, CrcUnit.unlocked, hbusy]

theorem State.crcPort_idle (hidle : c.busy = false) (f : CrcUnit → CrcUnit) : s.crcPort d u f =
    .next { s with dies := s.dies.set d { x with crc := x.crc.set u (f c) } } := by
  simp [State.crcPort, hon, hd, hu, State.modCrc_eq_set hx hc, CrcUnit.unlocked, hidle]

theorem State.crcBytes_busy (hbusy : c.busy = true) (bs : List Byte) : s.crcBytes d u bs =
    .next { s with dies := s.dies.set d { x with crc := x.crc.set u { c with cfgLocked := true } } } := by
  simp [State.crcBytes, hon, hd, hu, State.crcUnit_eq hx hc, hbusy, State.modCrc_eq_set hx hc]

/-- The data ports pass their bytes through an idle unit (R366). -/
theorem State.crcBytes_idle (hidle : c.busy = false) (bs : List Byte) :
    Completes (s.crcBytes d u bs) fun t => t.crcUnit d u = c.feed bs ∧ t.out = s.out ∧ t.seq = s.seq := by
  refine ⟨s.feedCrc d u bs, by simp [State.crcBytes, hon, hd, hu, State.crcUnit_eq hx hc, hidle], ?_, ?_, ?_⟩
  · have hcount : (s.feedCrc d u bs).crcUnit d u = (s.modCrc d u fun c => c.feed bs).crcUnit d u := by
      rw [State.crcUnit, State.feedCrc, State.die_count]
      rfl
    rw [hcount, State.crcUnit_modCrc hx hc]
  · rw [State.feedCrc, State.count_out]
    rfl
  · rw [State.feedCrc, State.count_seq]
    rfl

end

/-- CRC_CTRL.start on a unit: the values fit the width, or cfg_err is set (R364, R365). -/
theorem CrcUnit.start_eq (u : CrcUnit) : u.start =
    if ∀ y ∈ [u.poly, u.init, u.xorout, u.fold0, u.fold1, u.fold2], y.toNat < 2 ^ u.width then
      { u with value := u.init ^^^ u.fold0 ^^^ u.fold1 ^^^ u.fold2, bytes := 0 }
    else { u with cfgErr := true } := by
  by_cases hfit : ∀ y ∈ [u.poly, u.init, u.xorout, u.fold0, u.fold1, u.fold2], y.toNat < 2 ^ u.width
  · rw [if_pos hfit, CrcUnit.start, if_neg]
    · rfl
    · simpa [CrcUnit.wide, and_assoc] using hfit
  · rw [if_neg hfit, CrcUnit.start, if_pos]
    simpa [CrcUnit.wide, or_assoc, imp_iff_not_or] using hfit

/-- Settles O53: each port by whether a descriptor uses the unit. -/
theorem crcUnitRows : Obligations.CrcUnitRows := by
  unfold Obligations.CrcUnitRows
  intro s d u x c hon hd hu hx hc
  refine ⟨fun hbusy v b => ?busy, fun hidle v b => ⟨?start, ?value, ?bytes, ?data, ?data8⟩⟩
  case busy =>
    have hport := State.crcPort_busy hx hc hon hd hu hbusy
    have hbytes := State.crcBytes_busy hx hc hon hd hu hbusy
    exact ⟨hport _, hbytes _, hbytes _, hport _, hport _⟩
  case start =>
    have hstart := State.crcPort_idle hx hc hon hd hu hidle fun c => (c.control v.toNat).start
    rw [CrcUnit.start_eq] at hstart
    exact hstart
  case value => exact State.crcPort_idle hx hc hon hd hu hidle _
  case bytes => exact State.crcPort_idle hx hc hon hd hu hidle _
  case data => exact State.crcBytes_idle hx hc hon hd hu hidle (wordBytes v)
  case data8 => exact State.crcBytes_idle hx hc hon hd hu hidle [b]

end Sys2Proof.Machine
end

section
/-! SUPPORT. Compression jobs and contexts (14_compression_crc.md R354, R357, R360-R362). -/

namespace Sys2Proof.Machine

section
variable {s : State} {d : Nat}

theorem State.modComp_congr {f g : Comp → Comp} (h : f (s.comp d) = g (s.comp d)) : s.modComp d f = s.modComp d g :=
  State.modDie_congr (congrArg (fun c => { s.die d with comp := c }) h)

theorem State.modComp_self {f : Comp → Comp} (h : f (s.comp d) = s.comp d) : s.modComp d f = s := by
  rw [State.modComp_congr (g := id) h]
  show { s with dies := s.dies.modify d id } = s
  rw [List.modify_id]

theorem State.modComp_modComp (f g : Comp → Comp) : (s.modComp d f).modComp d g = s.modComp d (g ∘ f) := by
  simp only [State.modComp, State.modDie, List.modify_modify_eq]
  rfl

theorem State.comp_modComp (h : d < s.dies.length) (f : Comp → Comp) : (s.modComp d f).comp d = f (s.comp d) := by
  simp [State.comp, State.modComp, State.die_modDie, h]

/-- A die whose engine is not at its reset contents is one of the device's. -/
theorem State.comp_exists (h : s.comp d ≠ Comp.reset) : d < s.dies.length := by
  by_contra hlen
  refine h ?_
  simp [State.comp, State.die_eq_getElem?, List.getElem?_eq_none (Nat.le_of_not_lt hlen), Die.reset]

theorem State.Inv.length_dies (hs : s.Inv) : s.dies.length = s.nDies := by
  obtain ⟨-, -, hlen, -⟩ := hs
  simpa [State.shape, State.nDies, Fuses.lasting] using hlen

/-! ### Jobs (R354, R357) -/

variable (hon : s.compOn d = true)
include hon

theorem execCompJobDone_eq : exec (.compJobDone d) s = .next (s.modComp d fun c =>
    if c.job != 1 then c
    else if c.fault != 0 then { c with job := 4, error := c.fault, out := [] }
    else if c.inDone && c.out.isEmpty then { c with job := 3 }
    else c) := by
  show execCompJobDone d s = _
  simp [execCompJobDone, hon]

theorem execCompJobStart_eq (v : Word) : exec (.compJobStart d v) s = .next (s.modComp d fun c =>
    let c := c.control v.toNat
    if c.job = 1 ∨ c.job = 2 then { c with ctxBusy := true }
    else
      { c with
        job := 1, error := 0, fault := 0, inDone := false, out := [], inBytes := 0, outBytes := 0
        data := if c.restored then c.data else JobData.empty, restored := false }) := by
  show execCompJobStart d v s = _
  simp [execCompJobStart, hon, Comp.busy]

/-! ### Contexts (R361, R362) -/

theorem execCompContextSave_waits (hsave : (s.comp d).save = true) :
    exec (.compContextSave d) s = .next (s.modComp d fun c => { c with ctxBusy := true }) := by
  show execCompContextSave d s = _
  simp [execCompContextSave, hon, hsave]

/-- A compression job with no input pending is at a segment boundary, and is saved at once. -/
theorem execCompContextSave_saves (hlen : d < s.dies.length) (hsave : (s.comp d).save = false) (hdir : (s.comp d).dir = false)
    (hinput : (s.comp d).data.input = []) :
    exec (.compContextSave d) s = .next ((s.modComp d fun c => { c with save := true }).saveContext d) := by
  have hset : ((s.modComp d fun c => { c with save := true }).comp d).save = true := by rw [State.comp_modComp hlen]
  show execCompContextSave d s = _
  simp [execCompContextSave, hon, hsave, hdir, hinput, State.saveIf, hset]

theorem execCompContextRestore_waits (h : (s.comp d).save = true ∨ (s.comp d).job = 1 ∨ (s.comp d).job = 2) :
    exec (.compContextRestore d) s = .next (s.modComp d fun c => { c with ctxBusy := true }) := by
  show execCompContextRestore d s = _
  simp [execCompContextRestore, hon, Comp.busy, h]

theorem execCompContextRestore_loads (hsave : (s.comp d).save = false) (hjob1 : (s.comp d).job ≠ 1) (hjob2 : (s.comp d).job ≠ 2) :
    exec (.compContextRestore d) s = .next (s.loadContext d) := by
  show execCompContextRestore d s = _
  simp [execCompContextRestore, hon, Comp.busy, hsave, hjob1, hjob2]

omit hon

theorem State.saveContext_badSlot (hslot : 10 < (s.comp d).ctx) : s.saveContext d = s.modComp d Comp.ctxError := by
  simp [State.saveContext, hslot]

theorem State.loadContext_badSlot (hslot : 10 < (s.comp d).ctx) : s.loadContext d = s.modComp d Comp.ctxError := by
  simp [State.loadContext, hslot]

/-- A write to a die's SRAM leaves everything but that die. -/
theorem State.devWrite_sram {a : DevAddr} (hsram : a.sram = true) (hbcast : a.bcast = false) (bs : List Byte) :
    ∃ f : Die → Die, (∀ x, (f x).comp = x.comp) ∧ s.devWrite a bs = s.modDie a.die f := by
  refine ⟨fun x => { x with sram := bs.zipIdx.foldl (fun m b => m.write (a.off + b.2) b.1) x.sram }, fun _ => rfl, ?_⟩
  simp [State.devWrite, State.devAccess, hsram, hbcast]

/-- An engine that has kept a stream for a slot. -/
def Comp.kept (slot : Nat) (check : Word) (data : JobData) (c : Comp) : Comp :=
  { c with save := false, saved := (c.saved.filter fun y => !(y.1 == slot && y.2.1 == check)) ++ [(slot, check, data)] }

/-- A context saved to a slot: the die's SRAM takes its bytes, and the engine keeps the stream. -/
theorem State.saveContext_saves (hslot : (s.comp d).ctx ≤ 10) (hdir : (s.comp d).dir = false) (hinput : (s.comp d).data.input = []) :
    ∃ check, ∃ f : Die → Die, (∀ x, (f x).comp = Comp.kept (s.comp d).ctx check (s.comp d).data x.comp)
      ∧ s.saveContext d = { s.modDie d f with free := s.free + 255 } := by
  have hgood : ¬10 < (s.comp d).ctx := by omega
  have hdata : ({ (s.comp d).data with input := [] } : JobData) = (s.comp d).data := by rw [← hinput]
  obtain ⟨f, hf, hwrite⟩ := State.devWrite_sram (s := s)
    (a := { die := d, bcast := false, sram := true, off := ctxAddr (s.comp d).ctx }) rfl rfl
    ((s.comp d).data.bytes s.free ++ wordBytes (ctxCheck (s.comp d).ctx ((s.comp d).data.bytes s.free)))
  refine ⟨ctxCheck (s.comp d).ctx ((s.comp d).data.bytes s.free),
    fun x => { f x with
      comp := Comp.kept (s.comp d).ctx (ctxCheck (s.comp d).ctx ((s.comp d).data.bytes s.free)) (s.comp d).data (f x).comp },
    fun x => by simp only [hf], ?_⟩
  simp only [State.saveContext, hgood, if_false, hdir, Bool.false_eq_true, hdata, hwrite, State.modComp, State.modDie,
    List.modify_modify_eq]
  rfl

/-- What saving a context leaves. -/
theorem State.saveContext_effect (hlen : d < s.dies.length) (hslot : (s.comp d).ctx ≤ 10) (hdir : (s.comp d).dir = false)
    (hinput : (s.comp d).data.input = []) : let t := s.saveContext d
    (∃ check, t.comp d = Comp.kept (s.comp d).ctx check (s.comp d).data (s.comp d)) ∧ (∀ i, i ≠ d → t.dies[i]? = s.dies[i]?)
      ∧ t.seq = s.seq ∧ t.out = s.out := by
  obtain ⟨check, f, hf, hsaved⟩ := State.saveContext_saves hslot hdir hinput
  dsimp only
  rw [hsaved]
  refine ⟨⟨check, ?_⟩, fun i hi => by simp [hi.symm], rfl, rfl⟩
  exact (congrArg Die.comp (State.die_modDie s f d hlen)).trans (hf _)

/-- A slot whose check word holds, and of which no stream is kept, gives its history to the next job. -/
theorem State.loadContext_good {bs : List Byte} (hslot : (s.comp d).ctx ≤ 10) (hnone : (s.comp d).saved = [])
    (hread : s.devRead { die := d, bcast := false, sram := true, off := ctxAddr (s.comp d).ctx } 0 33792 = (some bs, s))
    (hcheck : (bytesWords (bs.drop 33788)).getD 0 0 = ctxCheck (s.comp d).ctx (bs.take 33788)) :
    s.loadContext d = s.modComp d fun c => { c with data := { JobData.empty with hist := bs.take 32768 }, restored := true } := by
  have hgood : ¬10 < (s.comp d).ctx := by omega
  simp only [State.loadContext, hgood, if_false, hread, hcheck, ne_eq, not_true_eq_false]
  exact State.modComp_congr (by simp [hnone])

end

/-- Settles O52: jobs by their state, contexts by their slot and the boundary. -/
theorem compressionJobs : Obligations.CompressionJobs := by
  unfold Obligations.CompressionJobs
  intro s d hrun hd
  have hon : s.compOn d = true := by simp [State.compOn, hrun, hd]
  refine ⟨execCompJobStart_eq hon, fun hjob hfault hin hout => ?done, fun hjob hfault => ?fails, fun hjob => ?idle,
    execCompContextSave_waits hon, fun hsave hdir hinput hslot => ?badSlot, fun hsave hdir hinput hslot hinv => ?saves,
    execCompContextRestore_waits hon, fun hsave hjob1 hjob2 hslot => ?badRestore,
    fun bs hsave hjob1 hjob2 hslot hnone hread hcheck => ?loads⟩
  case done =>
    rw [execCompJobDone_eq hon, State.modComp_congr]
    simp [hjob, hfault, hin, hout]
  case fails =>
    rw [execCompJobDone_eq hon, State.modComp_congr]
    simp [hjob, hfault]
  case idle =>
    rw [execCompJobDone_eq hon, State.modComp_self]
    simp [hjob]
  case badSlot =>
    have hlen : d < s.dies.length := State.comp_exists fun hreset => by simp [hreset, Comp.reset] at hslot
    rw [execCompContextSave_saves hon hlen hsave hdir hinput,
      State.saveContext_badSlot (by rw [State.comp_modComp hlen]; exact hslot), State.modComp_modComp]
    rfl
  case saves =>
    have hlen : d < s.dies.length := by rw [hinv.length_dies]; exact hd
    have hset := State.comp_modComp (s := s) hlen fun c => { c with save := true }
    have heffect := State.saveContext_effect (s := s.modComp d fun c => { c with save := true }) (d := d)
      (by simpa [State.modComp] using hlen) (by rw [hset]; exact hslot) (by rw [hset]; exact hdir) (by rw [hset]; exact hinput)
    obtain ⟨⟨check, hcomp⟩, hothers, hseq, hout⟩ := heffect
    rw [hset] at hcomp
    refine ⟨_, execCompContextSave_saves hon hlen hsave hdir hinput, ?_⟩
    beta_reduce
    rw [hcomp]
    exact ⟨rfl, ⟨check, by simp [Comp.kept]⟩, rfl, rfl, fun i hi => (hothers i hi).trans (by simp [State.modComp, hi.symm]), hseq,
      hout⟩
  case badRestore =>
    rw [execCompContextRestore_loads hon hsave hjob1 hjob2, State.loadContext_badSlot hslot]
    rfl
  case loads =>
    rw [execCompContextRestore_loads hon hsave hjob1 hjob2, State.loadContext_good hslot hnone hread hcheck]

end Sys2Proof.Machine
end

section
/-! SUPPORT. Calibration (17_calibration_counters.md R422): a measurement of MEMORY ends the one that R107 forces, which the row on
calibration leaves as it was. -/

namespace Sys2Proof.Machine

/-- A running device on whose die 0 a measurement forced under R107 is being taken, outside panic. -/
def State.forcedMeasuring : State :=
  { State.reset.modDie 0 fun d => { d with mem.forced := true } with ctl.ready := true, ctl.dev := .configured }

/-- MEMORY's quality word at the limits of Table 17-4. -/
def memoryQualityLimit : Nat := 24 * 2 ^ 16 + 16 * 2 ^ 8 + 16

/-- The measurement kept is the forced one: none is being taken any more. -/
theorem execCalMeasurement_forcedMeasuring :
    Completes (execCalMeasurement 0 3 0 0 memoryQualityLimit State.forcedMeasuring) fun t => (t.die 0).mem.forced = false :=
  ⟨_, rfl, by decide⟩

/-- Refutes O43: its row on CAL_MEASUREMENT changes the calibration values and the counter alone, but a MEMORY measurement also ends
the forced one. -/
theorem not_calibrationRows : ¬ Obligations.CalibrationRows := by
  unfold Obligations.CalibrationRows
  rintro ⟨-, -, -, -, -, hmeasurement, -⟩
  obtain ⟨hkept, -⟩ := hmeasurement State.forcedMeasuring 0 3 0 memoryQualityLimit 0 (by decide) (by decide) (by decide) (by decide)
    (fun _ => by decide)
  obtain ⟨t, ht, hended⟩ := execCalMeasurement_forcedMeasuring
  have hsame := Host.Outcome.next.inj (ht.symm.trans (hkept (by decide)))
  rw [hsame] at hended
  exact absurd hended (by decide)

end Sys2Proof.Machine
end

section
/-! SUPPORT. The bank selector and UPDATE_CONFIRM (18_boot_update.md R443, R455): the copy written is the one not in force, so it is
in force from then on. -/

namespace Sys2Proof.Machine

/-- The selector written over a device's copies is in force: its sequence number is above that of the copy that stays. -/
theorem State.writeSelector_selector {s : State} {x : Selector} (hsel : s.selector = some x) (f : Selector → Selector) :
    (s.writeSelector f).selector = some { f x with sequence := x.sequence + 1 } := by
  have hforce : s.selectorOr = x := by simp [State.selectorOr, hsel]
  unfold State.writeSelector
  rw [hforce]
  unfold State.selector at hsel ⊢
  split at hsel
  case h_1 a b hcopies =>
    rw [hcopies]
    by_cases hlower : a.sequence < b.sequence
    · obtain rfl : b = x := by simpa [hlower] using hsel
      simp [hlower]
    · obtain rfl : a = x := by simpa [hlower] using hsel
      simp [hlower]
  case h_2 a hcopies =>
    rw [hcopies]
    obtain rfl : a = x := by simpa using hsel
    simp
  case h_3 b hcopies =>
    rw [hcopies]
    obtain rfl : b = x := by simpa using hsel
    simp
  case h_4 => simp at hsel

/-- Settles O20: outside TRIAL nothing but the entry; in TRIAL the selector is written as CONFIRMED. -/
theorem updateConfirm : Obligations.UpdateConfirm := by
  unfold Obligations.UpdateConfirm
  intro s p htakes
  refine ⟨fun htrial => ?confirmed, fun x hsel htrial => ?trial⟩
  case confirmed =>
    show execUpdateConfirm p s = _
    rw [execUpdateConfirm, State.direct_takes htakes]
    simp [updateConfirmBody, htrial, ok]
  case trial =>
    have hon : s.onTrial = true := by simp [State.onTrial, hsel, htrial]
    have hforce : s.selectorOr = x := by simp [State.selectorOr, hsel]
    refine ⟨{ s.writeSelector fun y => { y with trial := false, trials := 0 } with
      fuses.minSecurity := max s.fuses.minSecurity (((s.flash.banks.getD x.active none).map bankSecurity).getD 0) },
      State.writeSelector_selector hsel fun y => { y with trial := false, trials := 0 }, ⟨_, rfl⟩, ?_⟩
    show execUpdateConfirm p s = _
    rw [execUpdateConfirm, State.direct_takes htakes]
    simp only [updateConfirmBody, hon, hforce, Bool.not_true, Bool.false_eq_true, if_false]
    rfl

end Sys2Proof.Machine
end

section
/-! SUPPORT. PMBus (16_power_thermal.md R405, R407, R410): a rail's failures in a row, and what an alert and telemetry report. -/

namespace Sys2Proof.Machine

/-- The rails after a transaction of rail i. -/
def State.triedRail (s : State) (i : Nat) (good : Bool) : State :=
  { s with therm.rails := s.therm.rails.modify i fun r => { r with tries := if good then 0 else r.tries + 1 } }

section
variable {s : State} {i : Nat}

theorem execPmbusTransaction_good : execPmbusTransaction i true s = .next (s.triedRail i true) := by
  simp [execPmbusTransaction, State.triedRail]

/-- A failed transaction is retried while it is not the third in a row. -/
theorem execPmbusTransaction_retried {r : Rail} (hrail : s.therm.rails[i]? = some r) (htries : r.tries < 2) :
    execPmbusTransaction i false s = .next (s.triedRail i false) := by
  have hretry : r.tries + 1 < 3 := by omega
  simp [execPmbusTransaction, State.triedRail, hrail, hretry]

/-- The third failure in a row fails the rail: the sequence ends, or in operation the rail is named. -/
theorem execPmbusTransaction_third {r : Rail} (hrail : s.therm.rails[i]? = some r) (htries : 2 ≤ r.tries) :
    (∀ k, s.ctl.boot = .rails k → execPmbusTransaction i false s = .next ((s.triedRail i false).railFails i))
    ∧ (s.ctl.boot = .idle → execPmbusTransaction i false s = .next
        { s with therm.railFail := i % 32, therm.rails := s.therm.rails.modify i fun r => { r with tries := 0 } }) := by
  have hthird : ¬r.tries + 1 < 3 := by omega
  obtain ⟨hlen, -⟩ := List.getElem?_eq_some_iff.1 hrail
  have hexists : ¬s.therm.rails.length ≤ i := by omega
  refine ⟨fun k hboot => ?sequence, fun hboot => ?operation⟩
  case sequence => simp [execPmbusTransaction, State.triedRail, hrail, hthird, hexists, hboot]
  case operation =>
    simp [execPmbusTransaction, hrail, hthird, hexists, hboot, List.modify_modify_eq]
    rfl

end

/-- A failure during the sequence ends it (R407): the rails without keep are off, and the rail is named. -/
theorem State.railFails_effect {s : State} {k : Nat} (hboot : s.ctl.boot = .rails k) (i : Nat) :
    (s.railFails i).ctl = { s.ctl with boot := .idle } ∧ (s.railFails i).therm.pgoodFail = true
      ∧ (s.railFails i).therm.railFail = i % 32 ∧ (∀ r ∈ (s.railFails i).therm.rails, r.on = true → r.keep = true)
      ∧ (s.railFails i).dies = s.dies ∧ (s.railFails i).hif = s.hif := by
  rw [State.railFails, hboot]
  refine ⟨rfl, rfl, rfl, fun r hr hon => ?_, rfl, rfl⟩
  simp only [State.railsOff, State.emits, List.mem_map] at hr
  obtain ⟨x, -, rfl⟩ := hr
  by_contra hkeep
  split at hon <;> simp_all

/-- Settles O48: the third failure in a row fails the rail, by whether the sequence runs. -/
theorem pmbusRows : Obligations.PmbusRows := by
  unfold Obligations.PmbusRows
  refine ⟨fun s i => execPmbusTransaction_good, fun s i r hrail => ⟨fun htries => execPmbusTransaction_retried hrail htries,
    fun htries hboot => ?operation, fun k htries hboot => ?sequence⟩, fun s alone hdev => ?alert, fun s pout hdev => ?telemetry,
    fun s alone pout hdev => ?off⟩
  case operation =>
    exact ⟨_, (execPmbusTransaction_third hrail htries).2 hboot, rfl, by simp [hrail], rfl, rfl, rfl, rfl⟩
  case sequence =>
    obtain ⟨hctl, hgood, hnamed, hkept, -, -⟩ := State.railFails_effect (s := s.triedRail i false) hboot i
    exact ⟨_, (execPmbusTransaction_third hrail htries).1 k hboot, hnamed, hgood, hctl, hkept⟩
  case alert =>
    show execPmbusAlert alone s = _
    cases alone <;> simp [execPmbusAlert, hdev, State.emits]
  case telemetry =>
    show execPmbusTelemetry pout s = _
    simp [execPmbusTelemetry, hdev]
  case off =>
    exact ⟨by show execPmbusAlert alone s = _; simp [execPmbusAlert, hdev],
      by show execPmbusTelemetry pout s = _; simp [execPmbusTelemetry, hdev]⟩

end Sys2Proof.Machine
end

section
/-! SUPPORT. Power-up and the rail sequence (16_power_thermal.md R404-R408, 20_electrical.md R476): which rails a step enables, which keep
their supply, and the domains at the end. -/

namespace Sys2Proof.Machine

/-! ### Power-up (R406) -/

/-- A rail of a record read keeps its supply: it is a keep rail, and the rail at its address and page was on. -/
def State.keepsSupply (s : State) (r : Rail) : Bool :=
  r.keep && s.therm.rails.any fun o => o.addr == r.addr && o.page == r.page && o.on

/-- The rails once power-up has begun: those of step k are enabled, the others on where they keep their supply. -/
def State.railsAtStep (s : State) (rails : List Rail) (k : Nat) : List Rail :=
  rails.map fun r => { r with on := decide (r.step = k) || s.keepsSupply r }

section
variable {s : State} {record : List Word} {rails : List Rail} {k : Nat}

/-- A record that does not parse keeps the device in STANDBY. -/
theorem State.powerUp_bad (hlatched : s.therm.latched = false) (hbad : parseRecord s.nDies record = none) :
    s.powerUp record = { s with therm.recordBad := true } := by
  simp [State.powerUp, hlatched, hbad]

/-- A good record begins the sequence at its first step. -/
theorem State.powerUp_begins (hlatched : s.therm.latched = false) (hgood : parseRecord s.nDies record = some rails)
    (hfirst : nextStep rails none = some k) :
    ∃ es, s.powerUp record =
      { s with out := es, ctl.boot := .rails k, therm.rails := s.railsAtStep rails k } := by
  have hrails (r : Rail) : (if r.step = k then { r with on := true } else { r with on := s.keepsSupply r }) =
      { r with on := decide (r.step = k) || s.keepsSupply r } := by
    split <;> simp [*]
  refine ⟨(s.powerUp record).out, ?_⟩
  simp only [State.powerUp, hlatched, Bool.false_eq_true, if_false, hgood, hfirst, State.enableStep, State.emits, State.railsAtStep,
    List.map_map, Function.comp_def, ← hrails]
  rfl

theorem State.mem_railsAtStep {r : Rail} (hr : r ∈ s.railsAtStep rails k) :
    (r.step = k → r.on = true) ∧ (r.step ≠ k → r.on = true → r.keep = true) := by
  simp only [State.railsAtStep, List.mem_map] at hr
  obtain ⟨x, -, rfl⟩ := hr
  exact ⟨fun hstep => by simp_all, fun hstep hon => by simp_all [State.keepsSupply]⟩

end

/-! ### The end of the sequence (Table 16-4) -/

/-- A die whose domains are switched on: they run, none is isolated, and the boot ROM comes next. -/
theorem Die.domainsOn_effect {s : State} {i : Nat} {d : Die} (hd : s.dies[i]? = some d) :
    ∃ e, s.domainsOn.dies[i]? = some e ∧ e.pow.on = d.runDomains ∧ e.pow.iso = ~~~d.runDomains ∧ e.apex = 1 ∧ e.lanes = d.lanes := by
  simp [State.domainsOn, State.modDies, hd]

/-! ### Power-on reset -/

/-- The device whose power-on reset has been released: its fuses, its flash and the levels of its pins stay. -/
def State.released (s : State) : State :=
  { State.powerOn s.fuses s.flash with
    ctl.perst := s.ctl.perst, ctl.darkN := s.ctl.darkN, ctl.headTripN := s.ctl.headTripN, free := s.free, out := s.out
    pending := s.pending, hif.gen := s.hif.gen + 1 }

theorem execPowerOnReset_off {s : State} (hoff : s.ctl.dev = .off) (record : List Word) :
    execPowerOnReset record s = .next (if s.ctl.perst then s.released else s.released.powerUp record) := by
  simp only [execPowerOnReset, hoff, if_true]
  rfl

/-- After a power-on reset no rail keeps a supply. -/
theorem State.released_keepsSupply (s : State) (r : Rail) : s.released.keepsSupply r = false := by
  simp [State.keepsSupply, State.released, State.powerOn, Therm.reset]

/-- Settles O6: power-up by whether the record is good, and the rail sequence by whether a step is left. -/
theorem powerRails : Obligations.PowerRails := by
  unfold Obligations.PowerRails
  refine ⟨fun s record hoff hperst => ?waits, fun s record rails k hoff hperst hgood hfirst => ?begins,
    fun s record hoff hperst hbad => ?bad, fun s => ?lost, fun s k j hboot hnext => ?steps, fun s k hboot hlast => ?last,
    fun s k entry hboot => ?fails⟩
  case waits =>
    refine ⟨s.released, ?_, rfl, rfl, rfl, rfl, rfl, rfl, rfl, rfl, rfl⟩
    show execPowerOnReset record s = _
    simp [execPowerOnReset_off hoff, hperst]
  case begins =>
    obtain ⟨es, hpower⟩ := State.powerUp_begins (s := s.released) (record := record) rfl hgood hfirst
    refine ⟨s.released.powerUp record, ?_, ?_⟩
    · show execPowerOnReset record s = _
      simp [execPowerOnReset_off hoff, hperst]
    · rw [hpower]
      refine ⟨rfl, rfl, rfl, rfl, rfl, rfl, rfl, rfl, by simp [State.railsAtStep], fun r hr => ?_⟩
      simp only [State.railsAtStep, State.released_keepsSupply, List.mem_map] at hr
      obtain ⟨x, -, rfl⟩ := hr
      simp
  case bad =>
    refine ⟨s.released.powerUp record, ?_, ?_⟩
    · show execPowerOnReset record s = _
      simp [execPowerOnReset_off hoff, hperst]
    · rw [State.powerUp_bad (s := s.released) rfl hbad]
      exact ⟨rfl, rfl, rfl, rfl, rfl, rfl, rfl⟩
  case lost =>
    refine ⟨_, rfl, rfl, rfl, rfl, rfl, rfl, rfl, by simp [State.powerOn, State.nDies], fun d hd => ?_⟩
    obtain ⟨x, -, rfl⟩ := List.mem_map.1 hd
    exact ⟨rfl, rfl⟩
  case steps =>
    refine ⟨{ s.enableStep j with ctl.boot := .rails j }, ?_, rfl, rfl, rfl, rfl⟩
    show execRailStepComplete s = _
    simp [execRailStepComplete, hboot, hnext]
  case last =>
    refine ⟨s.domainsOn, ?_, rfl, rfl, rfl, rfl, fun i d hd => Die.domainsOn_effect hd⟩
    show execRailStepComplete s = _
    simp [execRailStepComplete, hboot, hlast]
  case fails =>
    obtain ⟨hctl, hgood, hnamed, hkept, hdies, hhif⟩ := State.railFails_effect hboot entry
    exact ⟨_, rfl, hctl, hgood, hnamed, hkept, hdies, hhif⟩

end Sys2Proof.Machine
end

section
/-! SUPPORT. What the device's reactions leave (15_safety_faults.md R373-R395, 01_architecture.md Table 1-7): closing the gates, ending
and interrupting stripes and stopping axes change neither the fault records nor the tables, libraries and rings. -/

namespace Sys2Proof.Machine

/-- What faults and resets are told from, less what a report may change: fuses, device state, rings, Perimeter less the replace
advice, tables, libraries, and the pass whose crossings are generated. -/
structure FaultView where
  fuses : Fuses
  ctl : Ctl
  hif : Hif
  perim : Perim
  tables : Tables
  libs : List Library
  gen : Option Gen

/-- The view of a state. -/
def State.faultView (s : State) : FaultView :=
  let u := s.unreported
  { fuses := u.fuses, ctl := u.ctl, hif := u.hif, perim := { u.perim with replace := false, uncomp := false }, tables := u.tables
    libs := u.libs, gen := u.locus.gen }

/-- The view with the gates closed, and no crossing generated. -/
def FaultView.gatesClosed (v : FaultView) : FaultView :=
  { v with perim := { v.perim with gateClosed := true }, gen := none }

/-- The view in a device state. -/
def FaultView.inDev (v : FaultView) (d : DevState) : FaultView := { v with ctl := { v.ctl with dev := d } }

/-- Steps that each keep the view keep it together. -/
theorem State.foldl_faultView {α : Type} {f : State → α → State} (h : ∀ s x, (f s x).faultView = s.faultView) (xs : List α)
    (s : State) : (xs.foldl f s).faultView = s.faultView := by
  induction xs generalizing s with
  | nil => rfl
  | cons x xs ih => rw [List.foldl_cons, ih, h]

section
variable (s : State)

/-- A report keeps the view. -/
theorem State.faultView_of_sameBut {t : State} (h : t.unreported = s.unreported) : t.faultView = s.faultView := by
  simp [State.faultView, h]

@[simp] theorem State.signal_faultView (v : Nat) : (s.signal v).faultView = s.faultView :=
  s.faultView_of_sameBut (s.signal_unreported v)

@[simp] theorem State.count_faultView (d i n : Nat) : (s.count d i n).faultView = s.faultView :=
  s.faultView_of_sameBut (s.count_unreported d i n)

@[simp] theorem State.final_faultView (c : Ctx) (status : Nat) (res : List Nat) :
    (s.final c status res).faultView = s.faultView :=
  s.faultView_of_sameBut (s.final_unreported c status res)

@[simp] theorem State.finish_faultView (c : Ctx) (status : Nat) (res : List Nat) :
    (s.finish c status res).faultView = s.faultView :=
  s.faultView_of_sameBut (s.finish_unreported c status res)

@[simp] theorem State.emit_faultView (e : Emission) : (s.emit e).faultView = s.faultView := rfl
@[simp] theorem State.modDies_faultView (f : Die → Die) : (s.modDies f).faultView = s.faultView := rfl
@[simp] theorem State.modLane_faultView (n : Nat) (f : Lane → Lane) : (s.modLane n f).faultView = s.faultView := rfl
@[simp] theorem State.modAxis_faultView (a : Nat) (f : Axis → Axis) : (s.modAxis a f).faultView = s.faultView := rfl
@[simp] theorem State.modCompare_faultView (u : Nat) (f : Compare → Compare) : (s.modCompare u f).faultView = s.faultView := rfl
@[simp] theorem State.shiftSource_faultView (n : Nat) (d : Int) : (s.shiftSource n d).faultView = s.faultView := rfl
@[simp] theorem State.arcOff_faultView : s.arcOff.faultView = s.faultView := rfl

@[simp] theorem State.finalOpt_faultView (c : Option Ctx) (status : Nat) (res : List Nat) :
    (s.finalOpt c status res).faultView = s.faultView := by
  cases c with
  | none => rfl
  | some c => exact s.final_faultView c status res

/-! ### Locus and the counters -/

@[simp] theorem State.record_faultView (ch : Nat) (src : TSource) (ws : List Word) :
    (s.record ch src ws).faultView = s.faultView := by
  unfold State.record
  extract_lets lost t
  have ht : t.faultView = s.faultView := by simp [t, apply_ite State.faultView]
  exact ht

@[simp] theorem State.capture_faultView (kind unit info : Nat) (pos : Int) :
    (s.capture kind unit info pos).faultView = s.faultView := by
  unfold State.capture
  split
  · rfl
  · exact State.record_faultView _ _ _ _

@[simp] theorem State.compareEnd_faultView (u : Nat) (st : CmpState) : (s.compareEnd u st).faultView = s.faultView := by
  simp [State.compareEnd, State.locusIrq, apply_ite State.faultView]

@[simp] theorem State.runCompares_faultView (axis : Nat) (before : Int) : (s.runCompares axis before).faultView = s.faultView :=
  State.foldl_faultView (fun t u => by simp [apply_ite State.faultView]) _ s

@[simp] theorem State.applyDeferred_faultView : s.applyDeferred.faultView = s.faultView := by
  unfold State.applyDeferred
  extract_lets before d shift moved locus t
  have hshift (u : State) (n : Option Nat) (d : Int) : (shift u n d).faultView = u.faultView := by
    cases n with
    | none => rfl
    | some n => exact State.shiftSource_faultView u n d
  have ht : t.faultView = s.faultView := (hshift _ _ _).trans (hshift _ _ _)
  split
  · exact ht
  · rw [State.runCompares_faultView, ht]

@[simp] theorem State.countSlots_faultView (st : Stripe) (p n : Nat) : (s.countSlots st p n).faultView = s.faultView :=
  State.foldl_faultView (fun t d => by simp) _ s

@[simp] theorem State.endSlots_faultView : s.endSlots.faultView = s.faultView := by
  unfold State.endSlots
  split
  · split
    · exact State.foldl_faultView (fun t n => State.countSlots_faultView t _ _ n) _ s
    · rfl
  · rfl

/-! ### The ledger -/

@[simp] theorem State.keepSource_faultView (st : Stripe) (epoch : Nat) : (s.keepSource st epoch).faultView = s.faultView := by
  unfold State.keepSource
  dsimp only
  split <;> rfl

@[simp] theorem State.writeLedger_faultView (e : LedgerEntry) : (s.writeLedger e).faultView = s.faultView := by
  unfold State.writeLedger
  extract_lets kept idx counted seq entered written streamed streamSeq batched
  have hkept : kept.faultView = s.faultView := by
    unfold kept
    split
    · exact State.keepSource_faultView _ _ _
    · rfl
  have hwritten : written.faultView = s.faultView := (State.count_faultView kept 0 184 1).trans hkept
  have hstreamed : streamed.faultView = s.faultView := by
    unfold streamed
    split
    · exact (State.record_faultView _ _ _ _).trans hwritten
    · exact hwritten
  show batched.faultView = s.faultView
  unfold batched
  split <;> exact hstreamed

@[simp] theorem State.closeEntries_faultView (p : LedgerEntry → Bool) : (s.closeEntries p).faultView = s.faultView :=
  State.foldl_faultView (fun t e => State.writeLedger_faultView t e) _ _

@[simp] theorem State.darkRest_faultView (st : Stripe) (cause pass shot : Nat) :
    (s.darkRest st cause pass shot).faultView = s.faultView :=
  State.foldl_faultView (fun t p => by dsimp only; split <;> rfl) _ s

/-! ### Ending and interrupting stripes -/

@[simp] theorem State.updateReplace_faultView : s.updateReplace.faultView = s.faultView := by
  unfold State.updateReplace
  dsimp only
  split
  · rw [State.signal_faultView]
    rfl
  · rfl

@[simp] theorem State.updateUncomp_faultView : s.updateUncomp.faultView = s.faultView := by
  rw [State.updateUncomp, State.updateReplace_faultView]
  rfl

@[simp] theorem State.closeStripe_faultView (st : Stripe) : (s.closeStripe st).faultView = s.faultView := by
  unfold State.closeStripe
  split
  · exact State.closeEntries_faultView _ _
  · rfl

@[simp] theorem State.endStripe_faultView (id : Nat) (status : Option Nat) : (s.endStripe id status).faultView = s.faultView := by
  unfold State.endStripe
  split
  · rfl
  next st _ =>
    extract_lets closed st' code head closedSeq removed removedSeq resumed ended
    have hclosed : closed.faultView = s.faultView := State.closeStripe_faultView _ _
    have hresumed : resumed.faultView = s.faultView := by
      unfold resumed
      split <;> exact hclosed
    rw [State.final_faultView]
    show (State.updateUncomp _).faultView = _
    rw [State.updateUncomp_faultView]
    exact hresumed

@[simp] theorem State.endExecuting_faultView (cause : Nat) (status : Option Nat) :
    (s.endExecuting cause status).faultView = s.faultView := by
  unfold State.endExecuting
  split
  · rfl
  · simp

@[simp] theorem State.removeQueued_faultView (status : Nat) : (s.removeQueued status).faultView = s.faultView :=
  State.foldl_faultView (fun t (st : Stripe) => State.endStripe_faultView t st.id _) _ s

@[simp] theorem State.interruptStripe_faultView : s.interruptStripe.faultView = s.faultView := by
  unfold State.interruptStripe
  split
  · rfl
  · extract_lets n seq opened closed st kept keptSeq
    have hclosed : closed.faultView = s.faultView := State.closeEntries_faultView _ _
    show kept.faultView = s.faultView
    unfold kept
    split
    · exact hclosed
    · exact (State.keepSource_faultView _ _ _).trans hclosed

@[simp] theorem State.arcSafeDark_faultView : s.arcSafeDark.faultView = s.faultView :=
  State.foldl_faultView (fun t a => by
    unfold State.stopAxis
    dsimp only
    split <;> simp) _ s

@[simp] theorem State.sendFrame_faultView (n : Nat) (control : Bool) : (s.sendFrame n control).faultView = s.faultView := by
  unfold State.sendFrame
  dsimp only
  simp only [State.emit_faultView, State.count_faultView]
  rfl

@[simp] theorem State.lanesToL2_faultView : s.lanesToL2.faultView = s.faultView :=
  State.foldl_faultView (fun t n => by simp) _ s

/-! ### What the reactions change of the view -/

theorem State.closeGates_faultView : s.closeGates.faultView = s.faultView.gatesClosed := by
  unfold State.closeGates
  extract_lets ended next running perim locus closed deferred
  have hended : ended.faultView = s.faultView := State.endSlots_faultView s
  rw [State.modDies_faultView]
  show (State.applyDeferred closed).faultView = _
  exact (State.applyDeferred_faultView _).trans (congrArg FaultView.gatesClosed hended)

theorem State.setDev_faultView (d : DevState) :
    (s.setDev d).faultView = s.faultView.inDev d := by
  unfold State.setDev
  split
  next hsame =>
    subst hsame
    rfl
  · dsimp only
    rw [State.signal_faultView]
    split <;> rfl

end

end Sys2Proof.Machine
end

section
/-! SUPPORT. Resets and entries to STANDBY (18_boot_update.md R438-R440, Table 18-1; 16_power_thermal.md R404, R408): what a reset keeps of
the device's fuses, tables, libraries and ring generation. -/

namespace Sys2Proof.Machine

section
variable (s : State)

/-! ### What resets share -/

/-- The state a reset begins from: gates closed, the executing stripe interrupted, the axes off. -/
def State.cutOff : State := s.closeGates.interruptStripe.arcOff

theorem State.cutOff_faultView : s.cutOff.faultView = s.faultView.gatesClosed := by
  rw [State.cutOff, State.arcOff_faultView, State.interruptStripe_faultView, State.closeGates_faultView]

@[simp] theorem State.cutOff_fuses : s.cutOff.fuses = s.fuses := (congrArg FaultView.fuses s.cutOff_faultView :)
@[simp] theorem State.cutOff_tables : s.cutOff.tables = s.tables := (congrArg FaultView.tables s.cutOff_faultView :)
@[simp] theorem State.cutOff_libs : s.cutOff.libs = s.libs := (congrArg FaultView.libs s.cutOff_faultView :)
@[simp] theorem State.cutOff_gen : s.cutOff.hif.gen = s.hif.gen := (congrArg (fun v => v.hif.gen) s.cutOff_faultView :)

variable (software : Bool)

@[simp] theorem State.resetCommon_fuses : (s.resetCommon software).fuses = s.fuses := s.cutOff_fuses

@[simp] theorem State.resetCommon_hif : (s.resetCommon software).hif = { Hif.reset with gen := s.hif.gen + 1 } :=
  congrArg (fun n => { Hif.reset with gen := n + 1 }) s.cutOff_gen

@[simp] theorem State.resetCommon_dev : (s.resetCommon software).ctl.dev = .standby := rfl
@[simp] theorem State.resetCommon_ready : (s.resetCommon software).ctl.ready = false := rfl

@[simp] theorem State.resetCommon_perst : (s.resetCommon software).ctl.perst = s.ctl.perst :=
  (congrArg (fun v => v.ctl.perst) s.cutOff_faultView :)

@[simp] theorem State.resetCommon_tables :
    (s.resetCommon software).tables = if software then Tables.reset else s.tables :=
  congrArg (if software then Tables.reset else ·) s.cutOff_tables

@[simp] theorem State.resetCommon_libs :
    (s.resetCommon software).libs = if software then [] else s.libs.filter fun l => l.load.isNone :=
  congrArg (fun ls : List Library => if software then [] else ls.filter fun (l : Library) => l.load.isNone) s.cutOff_libs

/-! ### STANDBY -/

@[simp] theorem State.lanesToL2_fuses : s.lanesToL2.fuses = s.fuses := (congrArg FaultView.fuses s.lanesToL2_faultView :)
@[simp] theorem State.lanesToL2_libs : s.lanesToL2.libs = s.libs := (congrArg FaultView.libs s.lanesToL2_faultView :)

@[simp] theorem State.lanesToL2_perst : s.lanesToL2.ctl.perst = s.ctl.perst :=
  (congrArg (fun v => v.ctl.perst) s.lanesToL2_faultView :)

/-- The domains and the DRAM of a die in STANDBY (R408). -/
def Die.standby (d : Die) : Die :=
  { d with
    pow := { d.pow with on := 0x01, iso := 0xFE, demand := false }
    mem.state := if d.mem.state == .off then .off else .selfRefresh }

theorem State.enterStandby_eq : s.enterStandby =
    (State.modDies { s.lanesToL2.resetCommon false with ctl.boot := .idle } Die.standby).railsOff false := rfl

@[simp] theorem State.railsOff_ctl (all : Bool) : (s.railsOff all).ctl = s.ctl := rfl
@[simp] theorem State.railsOff_fuses (all : Bool) : (s.railsOff all).fuses = s.fuses := rfl
@[simp] theorem State.railsOff_libs (all : Bool) : (s.railsOff all).libs = s.libs := rfl
@[simp] theorem State.railsOff_dies (all : Bool) : (s.railsOff all).dies = s.dies := rfl

@[simp] theorem State.enterStandby_fuses : s.enterStandby.fuses = s.fuses := by
  simp [State.enterStandby_eq, State.modDies]

@[simp] theorem State.enterStandby_libs : s.enterStandby.libs = s.libs.filter fun l => l.load.isNone := by
  simp [State.enterStandby_eq, State.modDies]

/-- The device is in STANDBY, the interpreter not ready, and the level of PERST# is kept. -/
theorem State.enterStandby_ctl : s.enterStandby.ctl.dev = .standby ∧ s.enterStandby.ctl.ready = false
    ∧ s.enterStandby.ctl.boot = .idle ∧ s.enterStandby.ctl.perst = s.ctl.perst := by
  simp [State.enterStandby_eq, State.modDies]

/-- In STANDBY every domain but AON is off, and isolated (R408). -/
theorem State.enterStandby_domains {d : Die} (hd : d ∈ s.enterStandby.dies) : d.pow.on = 1 ∧ d.pow.iso = 0xFE := by
  rw [State.enterStandby_eq, State.railsOff_dies] at hd
  obtain ⟨x, -, rfl⟩ := List.mem_map.1 hd
  exact ⟨rfl, rfl⟩

end

/-! ### PERST# and WAKE_N -/

/-- PERST# takes a device that runs to STANDBY. -/
theorem execPerstAsserted_enters {s : State} (hoff : s.ctl.dev ≠ .off) (hruns : ¬(s.ctl.dev = .standby ∧ s.ctl.boot = .idle)) :
    execPerstAsserted s = .next { State.enterStandby { s with ctl.perst := true } with
      ctl.hold := false, ctl.bootCause := 1, ctl.resetRequest := none } := by
  have hruns' : (decide (s.ctl.dev = .standby) && decide (s.ctl.boot = .idle)) = false := by simpa using hruns
  simp [execPerstAsserted, hoff, hruns']

/-- In STANDBY, with power-up not begun, it only clears the hold. -/
theorem execPerstAsserted_waits {s : State} (hdev : s.ctl.dev = .standby) (hboot : s.ctl.boot = .idle) :
    execPerstAsserted s = .next { s with ctl.perst := true, ctl.hold := false } := by
  simp [execPerstAsserted, hdev, hboot]

section
variable {s : State} (record : List Word)

/-- Power-up follows PERST#'s release in STANDBY without a hold. -/
theorem execPerstDeasserted_powersUp (hdev : s.ctl.dev = .standby) (hboot : s.ctl.boot = .idle) (hhold : s.ctl.hold = false) :
    execPerstDeasserted record s = .next (State.powerUp { s with ctl.perst := false } record) := by
  simp [execPerstDeasserted, hdev, hboot, hhold]

/-- Power-up follows WAKE_N in STANDBY under a hold, while PERST# is released. -/
theorem execWakeNLow_powersUp (hdev : s.ctl.dev = .standby) (hhold : s.ctl.hold = true) (hperst : s.ctl.perst = false) :
    execWakeNLow record s = .next (State.powerUp { s with ctl.hold := false } record) := by
  simp [execWakeNLow, hdev, hhold, hperst]

end

/-- Settles O7: entries by whether the device runs, power-up by whether the record is good. -/
theorem standbyEntries : Obligations.StandbyEntries := by
  unfold Obligations.StandbyEntries
  refine ⟨fun s hoff => ?asserted, fun s record hhold => ?held, fun s record hdev hboot hhold hlatched =>
    ⟨fun hbad => ?releasedBad, fun rails k hgood hfirst => ?released⟩, fun s record hdev hhold hperst => ?wakes,
    fun s record hdev hhold hperst hlatched => ⟨fun hbad => ?wokenBad, fun rails k hgood hfirst => ?woken⟩,
    fun s p htakes => ?command⟩
  case asserted =>
    by_cases hruns : s.ctl.dev = .standby ∧ s.ctl.boot = .idle
    · obtain ⟨hdev, hboot⟩ := hruns
      exact ⟨_, execPerstAsserted_waits hdev hboot, hdev, rfl, rfl, rfl, fun hother => absurd hdev hother⟩
    · refine ⟨_, execPerstAsserted_enters hoff hruns, ?_⟩
      obtain ⟨hdev, hready, hboot, hperst⟩ := State.enterStandby_ctl { s with ctl.perst := true }
      have hfuses := State.enterStandby_fuses { s with ctl.perst := true }
      have hlibs := State.enterStandby_libs { s with ctl.perst := true }
      have hdomains (d : Die) := State.enterStandby_domains { s with ctl.perst := true } (d := d)
      generalize State.enterStandby { s with ctl.perst := true } = standby at *
      exact ⟨hdev, hperst, rfl, hfuses, fun _ => ⟨rfl, hready, hboot, hlibs, hdomains⟩⟩
  case held =>
    show execPerstDeasserted record s = _
    simp [execPerstDeasserted, hhold]
  case releasedBad =>
    exact (execPerstDeasserted_powersUp record hdev hboot hhold).trans
      (congrArg _ (State.powerUp_bad (s := { s with ctl.perst := false }) hlatched hbad))
  case released =>
    obtain ⟨es, hpower⟩ := State.powerUp_begins (s := { s with ctl.perst := false }) hlatched hgood hfirst
    refine ⟨_, execPerstDeasserted_powersUp record hdev hboot hhold, ?_⟩
    rw [hpower]
    exact ⟨rfl, rfl, rfl, fun r hr => (State.mem_railsAtStep hr).1, fun r hr => (State.mem_railsAtStep hr).2⟩
  case wakes =>
    show execWakeNLow record s = _
    simp [execWakeNLow, hdev, hhold, hperst]
  case wokenBad =>
    exact (execWakeNLow_powersUp record hdev hhold hperst).trans
      (congrArg _ (State.powerUp_bad (s := { s with ctl.hold := false }) hlatched hbad))
  case woken =>
    obtain ⟨es, hpower⟩ := State.powerUp_begins (s := { s with ctl.hold := false }) hlatched hgood hfirst
    refine ⟨_, execWakeNLow_powersUp record hdev hhold hperst, ?_⟩
    rw [hpower]
    exact ⟨rfl, rfl, rfl, fun r hr => (State.mem_railsAtStep hr).1, fun r hr => (State.mem_railsAtStep hr).2⟩
  case command =>
    have hexec : exec (.powerStandby p) s = .next
        { (s.finish (s.cmd 0x0B00 p) ok []).enterStandby with ctl.hold := true } := by
      show execPowerStandby p s = _
      rw [execPowerStandby, State.direct_takes htakes]
      rfl
    refine ⟨_, hexec, ?_⟩
    obtain ⟨hdev, hready, -, -⟩ := State.enterStandby_ctl (s.finish (s.cmd 0x0B00 p) ok [])
    have hdomains (d : Die) := State.enterStandby_domains (s.finish (s.cmd 0x0B00 p) ok []) (d := d)
    generalize (s.finish (s.cmd 0x0B00 p) ok []).enterStandby = standby at *
    exact ⟨rfl, hdev, rfl, hready, fun d hd => (hdomains d hd).1⟩

end Sys2Proof.Machine
end

section
/-! SUPPORT. Boot from a confirmed bank, and the resets that reboot with the rails on (18_boot_update.md R438-R440, R446-R448; 04_memory.md
R96-R99). -/

namespace Sys2Proof.Machine

/-! ### Boot from a bank -/

section
variable {s : State} {drams : List DramReport}

/-- Where the memories start, every live die has a report of its memory (R96). -/
theorem State.memoryStarts_report (hstarts : s.memoryStarts drams = true) {d : Die} (hd : d ∈ s.dies) (hlive : d.retired = false) :
    ∃ r, drams[d.id]? = some r := by
  unfold State.memoryStarts at hstarts
  split at hstarts
  case h_1 => simp at hstarts
  case h_2 r0 rest =>
    have hdie := List.all_eq_true.1 hstarts d hd
    rw [hlive, Bool.false_or] at hdie
    split at hdie
    case h_1 => simp at hdie
    case h_2 r hr => exact ⟨r, hr⟩

/-- Training starts the memory of each live die, and touches neither supply nor lanes nor SRAM. -/
theorem State.trainMemory_die (hstarts : s.memoryStarts drams = true) {i : Nat} {d : Die} (hd : s.dies[i]? = some d) :
    ∃ e, (s.trainMemory drams).dies[i]? = some e ∧ e.pow = d.pow ∧ e.lanes = d.lanes ∧ e.sram = d.sram
      ∧ (d.retired = false → e.mem.state = .active) := by
  simp only [State.trainMemory, State.modDies, List.getElem?_map, hd, Option.map_some]
  refine ⟨_, rfl, ?_⟩
  cases hretired : d.retired with
  | true => split <;> exact ⟨rfl, rfl, rfl, fun h => absurd h (by decide)⟩
  | false =>
    obtain ⟨r, hr⟩ := State.memoryStarts_report hstarts (List.mem_of_getElem? hd) hretired
    simp [hr, Die.train]

/-- A confirmed bank that verifies boots, where the memories start. -/
theorem execBootStart_confirmed (hboot : s.ctl.boot = .rom) (hconfirmed : s.selectorOr.trial = false)
    (hstarts : s.memoryStarts drams = true) (hverifies : s.bankVerifies s.selectorOr.active = true) :
    execBootStart drams s = .next { s.bootBank s.selectorOr.active drams with ctl.trials := 0 } := by
  simp [execBootStart, hboot, hconfirmed, hstarts, hverifies]

end

/-! ### Resets -/

theorem execWarmReset_resets {s : State} (hresets : s.resettable = true) :
    execWarmReset s = .next (s.deviceReset false ((s.ctl.resetRequest.map ResetKind.cause).getD 2)) := by
  simp [execWarmReset, hresets]

theorem execSoftwareReset_resets {s : State} (hresets : s.resettable = true) :
    execSoftwareReset s = .next (s.deviceReset true 3) := by
  simp [execSoftwareReset, hresets]

/-- What a reset with the rails on leaves of control, rings and tables (Table 18-1). -/
theorem State.deviceReset_effect (s : State) (software : Bool) (cause : Nat) :
    let t := s.deviceReset software cause
    t.ctl.dev = .standby ∧ t.ctl.ready = false ∧ t.ctl.boot = .rom ∧ t.ctl.resetRequest = none ∧ t.ctl.bootCause = cause
      ∧ t.hif = { Hif.reset with gen := s.hif.gen + 1 } ∧ (t.tables = if software then Tables.reset else s.tables)
      ∧ t.libs = if software then [] else s.libs.filter fun l => l.load.isNone := by
  simp [State.deviceReset, State.modDies]

/-- What it resets: the queue of stripes, Locus, Arc, Datum and Chord. -/
theorem State.deviceReset_units (s : State) (software : Bool) (cause : Nat) :
    let t := s.deviceReset software cause
    t.seq.stripes = [] ∧ t.locus = Locus.reset ∧ t.arc = Arc.reset ∧ t.datum = Datum.reset ∧ t.chord = Chord.reset :=
  ⟨rfl, rfl, rfl, rfl, rfl⟩

/-- Settles O8: boot from the confirmed bank, the resets by what they discard, RESET by its operand. -/
theorem bootAndResetRows : Obligations.BootAndResetRows := by
  unfold Obligations.BootAndResetRows
  refine ⟨fun s drams b hboot hconfirmed hstarts hverifies hbank => ?boots, fun s hresets => ?warm, fun s hresets => ?software,
    fun s p htakes => ?command⟩
  case boots =>
    refine ⟨_, execBootStart_confirmed hboot hconfirmed hstarts hverifies, ?_⟩
    refine ⟨by simp [State.bootBank, State.trainMemory, State.modDies, hbank], rfl, rfl, rfl, rfl, fun i d hd => ?_⟩
    obtain ⟨e, he, hpow, hlanes, hsram, hactive⟩ := State.trainMemory_die hstarts hd
    exact ⟨{ e with apex := 2, imageOk := true }, by simp [State.bootBank, State.modDies, he], rfl, rfl, hpow, hlanes, hsram,
      hactive⟩
  case warm =>
    obtain ⟨hdev, hready, hboot, hrequest, hcause, hhif, htables, -⟩ :=
      s.deviceReset_effect false ((s.ctl.resetRequest.map ResetKind.cause).getD 2)
    obtain ⟨hstripes, hlocus, harc, hdatum, hchord⟩ :=
      s.deviceReset_units false ((s.ctl.resetRequest.map ResetKind.cause).getD 2)
    exact ⟨_, execWarmReset_resets hresets, hdev, hready, hboot, hrequest, hstripes, hhif, hlocus, harc, hdatum, hchord, htables,
      fun hnone => hcause.trans (by simp [hnone])⟩
  case software =>
    obtain ⟨hdev, hready, hboot, -, hcause, hhif, htables, hlibs⟩ := s.deviceReset_effect true 3
    obtain ⟨hstripes, hlocus, harc, hdatum, hchord⟩ := s.deviceReset_units true 3
    exact ⟨_, execSoftwareReset_resets hresets, hdev, hready, hboot, hcause, hstripes, hhif, hlocus, harc, hdatum, hchord, htables,
      hlibs⟩
  case command =>
    show execReset p s = _
    rw [execReset, State.direct_takes htakes]
    simp only [resetBody, Packet.ofRow_param, State.cmd]

end Sys2Proof.Machine
end

section
/-! SUPPORT. The end of boot (18_boot_update.md R448, 14_compression_crc.md R363, R369, 01_architecture.md Table 1-7): without an
interrupted stripe, an SRAM error logged or a cause of SAFE_DARK, boot's end is the state it makes CONFIGURED, tested. -/

namespace Sys2Proof.Machine

/-! ### What the steps of boot's end leave -/

/-- Rings, stripes, Perimeter less its replace advice, tables, Locus, Datum, Arc, thermal levels, and control less its interrupts. -/
structure BootView where
  ctl : Ctl
  hif : Hif
  perim : Perim
  tables : Tables
  seq : Seq
  therm : Therm
  locus : Locus
  arc : Arc
  datum : Datum

/-- The view of a state. -/
def State.bootView (s : State) : BootView :=
  { ctl := { s.ctl with irqStat := 0, msixPending := 0 }, hif := s.hif, perim := { s.perim with replace := false }, tables := s.tables
    seq := s.seq, therm := s.therm, locus := s.locus, arc := s.arc, datum := s.datum }

/-- A change of a die that leaves its lanes and its SRAM. -/
def Die.KeepsLanes (g : Die → Die) : Prop := ∀ d, (g d).lanes = d.lanes ∧ (g d).sram = d.sram

/-- A lane at boot's end: DOWN unless it is retired. -/
def Lane.atBoot (l : Lane) : Lane := if l.retired then l else { l with state := .down }

/-- A die at boot's end: its lanes DOWN. -/
def Die.atBoot (d : Die) : Die := { d with lanes := d.lanes.map Lane.atBoot }

/-- A die whose self-tests have all passed. -/
def Die.tested (d : Die) : Die :=
  { d with comp.selftestOk := true, crc := d.crc.zipIdx.map fun u => { u.1 with selftestOk := true } }

section
variable (s : State)

@[simp] theorem State.signal_bootView (v : Nat) : (s.signal v).bootView = s.bootView := by
  unfold State.signal State.message
  split
  · split <;> rfl
  · rfl

@[simp] theorem State.modDies_bootView (f : Die → Die) : (s.modDies f).bootView = s.bootView := rfl

@[simp] theorem State.updateReplace_bootView : s.updateReplace.bootView = s.bootView := by
  unfold State.updateReplace
  dsimp only
  split
  · rw [State.signal_bootView]
    rfl
  · rfl

@[simp] theorem State.updateReplace_dies : s.updateReplace.dies = s.dies := by
  unfold State.updateReplace
  dsimp only
  split
  · exact State.signal_dies _ _
  · rfl

@[simp] theorem State.trialCal_bootView : s.trialCal.bootView = s.bootView := by
  unfold State.trialCal
  dsimp only
  split
  · split <;> rfl
  · rfl

@[simp] theorem State.trialCal_dies : s.trialCal.dies = s.dies := by
  unfold State.trialCal
  dsimp only
  split
  · split <;> rfl
  · rfl

/-- Loading the calibration record touches the dies' calibration values and sensor offsets. -/
theorem State.loadCal_eq : ∃ g, s.loadCal = s.modDies g ∧ Die.KeepsLanes g := by
  unfold State.loadCal
  dsimp only
  split
  · exact ⟨_, rfl, fun d => ⟨rfl, rfl⟩⟩
  · exact ⟨_, rfl, fun d => ⟨rfl, rfl⟩⟩

theorem Die.calm_keepsLanes : Die.KeepsLanes Die.calm := by
  intro d
  unfold Die.calm
  split <;> exact ⟨rfl, rfl⟩

/-- A change of the device state clears panic on the dies, and signals. -/
theorem State.setDev_dies (d : DevState) : ∃ g, (s.setDev d).dies = s.dies.map g ∧ Die.KeepsLanes g := by
  unfold State.setDev
  split
  · exact ⟨id, by simp, fun x => ⟨rfl, rfl⟩⟩
  · dsimp only
    rw [State.signal_dies]
    split
    · exact ⟨id, by simp, fun x => ⟨rfl, rfl⟩⟩
    · exact ⟨Die.calm, rfl, Die.calm_keepsLanes⟩

theorem State.setDev_bootView (d : DevState) :
    (s.setDev d).bootView = { s.bootView with ctl := { s.bootView.ctl with dev := d } } := by
  unfold State.setDev
  split
  next hsame =>
    subst hsame
    rfl
  · dsimp only
    rw [State.signal_bootView]
    split <;> rfl

/-! ### The steps that find nothing -/

theorem State.interruptedEntries_none (hnone : s.seq.interrupted = none) : s.interruptedEntries = s := by
  simp [State.interruptedEntries, hnone]

theorem State.sramRecords_none (hnone : ∀ d, (s.die d).sram.ueLog = none) : s.sramRecords = s :=
  List.foldl_fixed' (fun d => by simp [hnone d]) _

theorem State.bootDark_none (hdarkN : s.ctl.darkN = false) (htrip : s.headTrip = false) (hstopped : s.therm.stopped = false)
    (hblind : s.therm.blind = false) : s.bootDark = s := by
  simp [State.bootDark, hdarkN, htrip, hstopped, hblind]

theorem State.selfTests_pass : s.selfTests [] [] = s.modDies Die.tested := by
  simp [State.selfTests]
  rfl

/-! ### The state made CONFIGURED -/

/-- The device once firmware runs, before its self-tests: ready and CONFIGURED, setpoint packets started, lanes DOWN. -/
def State.bootedUntested : State :=
  (State.setDev { s.draw.2 with
      ctl.boot := .idle, ctl.ready := true, chord.session := Config.session s.draw.1, arc.spRunning := true }
    .configured).trialCal.loadCal.modDies Die.atBoot

/-- Its dies are those before, with their lanes DOWN. -/
theorem State.bootedUntested_dies : ∃ g, s.bootedUntested.dies = s.dies.map g
    ∧ ∀ d, (g d).lanes = d.lanes.map Lane.atBoot ∧ (g d).sram = d.sram := by
  unfold State.bootedUntested
  generalize hbegun : ({ s.draw.2 with ctl.boot := .idle, ctl.ready := true, chord.session := Config.session s.draw.1
                                       arc.spRunning := true } : State) = begun
  have hdies : begun.dies = s.dies := by rw [← hbegun]; rfl
  obtain ⟨g, hg, hgkeeps⟩ := begun.setDev_dies .configured
  obtain ⟨f, hf, hfkeeps⟩ := (begun.setDev .configured).trialCal.loadCal_eq
  refine ⟨Die.atBoot ∘ f ∘ g, by simp [hf, State.modDies, hg, hdies], fun d => ?_⟩
  simp [Die.atBoot, (hfkeeps (g d)).1, (hfkeeps (g d)).2, (hgkeeps d).1, (hgkeeps d).2]

theorem State.bootedUntested_bootView : s.bootedUntested.bootView =
    { s.bootView with
      ctl := { s.bootView.ctl with boot := .idle, ready := true, dev := .configured }, arc := { s.arc with spRunning := true } } := by
  obtain ⟨f, hf, -⟩ := State.loadCal_eq (State.setDev { s.draw.2 with
      ctl.boot := .idle, ctl.ready := true, chord.session := Config.session s.draw.1, arc.spRunning := true }
    .configured).trialCal
  rw [State.bootedUntested, hf, State.modDies_bootView, State.modDies_bootView, State.trialCal_bootView, State.setDev_bootView]
  rfl

/-- Lanes at boot's end trip no head that did not trip before. -/
theorem Lane.atBoot_trips (l : Lane) : (l.atBoot.headTrip && (!l.atBoot.retired || l.atBoot.state == .draining)) =
    (l.headTrip && (!l.retired || l.state == .draining)) := by
  unfold Lane.atBoot
  cases hretired : l.retired <;> simp [hretired]

variable {s}

theorem State.headTrip_eq_false_iff : s.headTrip = false ↔ s.ctl.headTripN = false
    ∧ ∀ d ∈ s.dies, ∀ l ∈ d.lanes, (l.headTrip && (!l.retired || l.state == .draining)) = false := by
  simp only [State.headTrip, State.lanes, Bool.or_eq_false_iff, List.any_eq_false, List.mem_flatMap, Bool.not_eq_true,
    forall_exists_index, and_imp]
  exact ⟨fun ⟨hpin, hlanes⟩ => ⟨hpin, fun d hd l hl => hlanes l d hd hl⟩,
    fun ⟨hpin, hlanes⟩ => ⟨hpin, fun l d hd hl => hlanes d hd l hl⟩⟩

/-- A head trips after a change that keeps each die's lanes where one tripped before. -/
theorem State.headTrip_of_dies {t : State} {g : Die → Die} (hdies : t.dies = s.dies.map g) (hpin : t.ctl.headTripN = s.ctl.headTripN)
    (hlanes : ∀ d, (g d).lanes = d.lanes.map Lane.atBoot) (htrip : s.headTrip = false) : t.headTrip = false := by
  rw [State.headTrip_eq_false_iff] at htrip ⊢
  obtain ⟨hnone, hquiet⟩ := htrip
  refine ⟨hpin.trans hnone, fun d hd l hl => ?_⟩
  rw [hdies] at hd
  obtain ⟨x, hx, rfl⟩ := List.mem_map.1 hd
  rw [hlanes] at hl
  obtain ⟨y, hy, rfl⟩ := List.mem_map.1 hl
  rw [Lane.atBoot_trips]
  exact hquiet x hx y hy

/-- No SRAM error is logged after a change that keeps each die's SRAM where none was before. -/
theorem State.ueLog_of_dies {t : State} {g : Die → Die} (hdies : t.dies = s.dies.map g) (hsram : ∀ d, (g d).sram = d.sram)
    (hnone : ∀ d, (s.die d).sram.ueLog = none) (d : Nat) : (t.die d).sram.ueLog = none := by
  have hd := hnone d
  rw [State.die_eq_getElem?] at hd ⊢
  rw [hdies, List.getElem?_map]
  cases hdie : s.dies[d]? with
  | none => rfl
  | some x => simpa [hdie, hsram] using hd

end

/-! ### BOOT_COMPLETE -/

/-- The device at boot's end: its self-tests have passed, and a fall-back is told. -/
def State.bootedTested (s : State) : State :=
  let t := s.bootedUntested.modDies Die.tested
  (if t.ctl.fellBack then t.signal 27 else t).updateReplace

theorem State.bootedTested_bootView (s : State) : s.bootedTested.bootView =
    { s.bootView with
      ctl := { s.bootView.ctl with boot := .idle, ready := true, dev := .configured }, arc := { s.arc with spRunning := true } } := by
  rw [State.bootedTested, State.updateReplace_bootView, ← State.bootedUntested_bootView]
  split
  · exact State.signal_bootView _ _
  · rfl

theorem State.bootedTested_dies (s : State) : s.bootedTested.dies = s.bootedUntested.dies.map Die.tested := by
  rw [State.bootedTested, State.updateReplace_dies]
  split
  · exact State.signal_dies _ _
  · rfl

/-- Nothing holds the device dark at boot's end. -/
theorem State.bootedTested_dark {s : State} (hdarkN : s.ctl.darkN = false) (htrip : s.headTrip = false)
    (hstopped : s.therm.stopped = false) (hblind : s.therm.blind = false) : s.bootedTested.bootDark = s.bootedTested := by
  obtain ⟨g, hdies, hg⟩ := s.bootedUntested_dies
  have hview := s.bootedTested_bootView
  have htested := s.bootedTested_dies
  rw [hdies, List.map_map] at htested
  generalize s.bootedTested = t at *
  simp only [State.bootView, BootView.mk.injEq, Ctl.mk.injEq] at hview
  exact t.bootDark_none (by simp [hview, hdarkN])
    (State.headTrip_of_dies htested (by simp [hview]) (fun d => (hg d).1) htrip) (by simp [hview, hstopped]) (by simp [hview, hblind])

/-- What boot's end does: the entries of an interrupted stripe, the records of SRAM errors, the self-tests, and the causes present. -/
theorem execBootComplete_loading {s : State} (hboot : s.ctl.boot = .loading) (compFail : List Nat) (crcFail : List (Nat × Nat)) :
    execBootComplete compFail crcFail s = .next
      (State.bootDark (State.updateReplace
        (let t := State.selfTests (State.sramRecords s.bootedUntested.interruptedEntries) compFail crcFail
        if t.ctl.fellBack then t.signal 27 else t))) := by
  rw [execBootComplete, if_neg (by simp [hboot])]
  rfl

/-- Boot ends there where nothing was interrupted, logged or dark. -/
theorem execBootComplete_tested {s : State} (hboot : s.ctl.boot = .loading) (hinterrupted : s.seq.interrupted = none)
    (hlog : ∀ d, (s.die d).sram.ueLog = none) (hdarkN : s.ctl.darkN = false) (htrip : s.headTrip = false)
    (hstopped : s.therm.stopped = false) (hblind : s.therm.blind = false) :
    execBootComplete [] [] s = .next s.bootedTested := by
  have hdark := State.bootedTested_dark hdarkN htrip hstopped hblind
  obtain ⟨g, hdies, hg⟩ := s.bootedUntested_dies
  have hseq : s.bootedUntested.seq = s.seq := congrArg BootView.seq s.bootedUntested_bootView
  have hentries := s.bootedUntested.interruptedEntries_none (by rw [hseq, hinterrupted])
  have hrecords := s.bootedUntested.sramRecords_none (State.ueLog_of_dies hdies (fun d => (hg d).2) hlog)
  rw [execBootComplete_loading hboot, hentries, hrecords, State.selfTests_pass]
  exact congrArg Host.Outcome.next hdark

/-- Settles O32: nothing to do at boot's end but the tests. -/
theorem bootCompletes : Obligations.BootCompletes := by
  unfold Obligations.BootCompletes
  refine ⟨fun s a b hboot => ?waits, fun s hboot hinterrupted hlog hdarkN htrip hstopped hblind => ?completes⟩
  case waits =>
    show execBootComplete a b s = _
    simp [execBootComplete, hboot]
  case completes =>
    refine ⟨_, execBootComplete_tested hboot hinterrupted hlog hdarkN htrip hstopped hblind, ?_⟩
    obtain ⟨g, hdies, hg⟩ := s.bootedUntested_dies
    have hview := s.bootedTested_bootView
    have htested := s.bootedTested_dies
    rw [hdies, List.map_map] at htested
    generalize s.bootedTested = t at *
    have hlogged : t.perim.log = s.perim.log := congrArg (fun v => v.perim.log) hview
    simp only [State.bootView, BootView.mk.injEq, Ctl.mk.injEq] at hview
    refine ⟨by simp [hview], by simp [hview], by simp [hview], by simp [hview], by simp [hview], by simp [hview], hlogged,
      by simp [hview], by simp [hview], by simp [hview], fun d hd => ?_⟩
    rw [htested] at hd
    obtain ⟨x, -, rfl⟩ := List.mem_map.1 hd
    refine ⟨rfl, fun u hu => ?_, fun l hl hlive => ?_⟩
    · obtain ⟨v, -, rfl⟩ := List.mem_map.1 hu
      rfl
    · rw [Function.comp_apply, Die.tested, (hg x).1] at hl
      obtain ⟨y, -, rfl⟩ := List.mem_map.1 hl
      unfold Lane.atBoot at hlive ⊢
      split at hlive <;> simp_all

end Sys2Proof.Machine
end

section
/-! SUPPORT. Detections that take the device dark or halt it (15_safety_faults.md R379-R384, Table 15-4; 01_architecture.md Table 1-7). -/

namespace Sys2Proof.Machine

/-! ### SAFE_DARK and HALTED -/

/-- The view once the device has gone from CONFIGURED, ARMED or WRITING to SAFE_DARK. -/
def FaultView.darkened (v : FaultView) : FaultView :=
  let w := v.gatesClosed.inDev .safeDark
  { w with perim := { w.perim with darks := w.perim.darks + 1 } }

section
variable {s : State}

/-- A device that runs and is not in SAFE_DARK is in one of the states from which SAFE_DARK is entered. -/
theorem State.running_dev (hrun : s.running = true) (hdark : s.ctl.dev ≠ .safeDark) :
    s.ctl.dev = .configured ∨ s.ctl.dev = .armed ∨ s.ctl.dev = .writing := by
  simp only [State.running, Bool.and_eq_true, Bool.or_eq_true, beq_iff_eq] at hrun
  tauto

theorem State.enterSafeDark_faultView (hdev : s.ctl.dev = .configured ∨ s.ctl.dev = .armed ∨ s.ctl.dev = .writing) (cause : Nat) :
    (s.enterSafeDark cause).faultView = s.faultView.darkened := by
  unfold State.enterSafeDark
  rw [if_pos hdev]
  extract_lets dark perim seq dimmed
  have hdark : dark.faultView = s.faultView.gatesClosed.inDev .safeDark := by
    rw [← State.closeGates_faultView]
    exact State.setDev_faultView _ _
  rw [State.arcSafeDark_faultView, State.removeQueued_faultView, State.endExecuting_faultView]
  exact congrArg (fun v : FaultView => { v with perim := { v.perim with darks := v.perim.darks + 1 } }) hdark

/-- Entering SAFE_DARK leaves the queue of fault records. -/
theorem State.enterSafeDark_queue (s : State) (cause : Nat) :
    (s.enterSafeDark cause).perim.active = s.perim.active ∧ (s.enterSafeDark cause).perim.waiting = s.perim.waiting := by
  by_cases hdev : s.ctl.dev = .configured ∨ s.ctl.dev = .armed ∨ s.ctl.dev = .writing
  · have hview := State.enterSafeDark_faultView hdev cause
    exact ⟨(congrArg (fun v => v.perim.active) hview :), (congrArg (fun v => v.perim.waiting) hview :)⟩
  · simp [State.enterSafeDark, hdev]

/-- The device is dark in SAFE_DARK, with the fault records and pins as they were in s. -/
def State.DarkAfter (s t : State) : Prop :=
  t.ctl.dev = .safeDark ∧ t.perim.gateClosed = true ∧ t.locus.gen = none ∧ t.perim.nextSeq = s.perim.nextSeq
  ∧ t.ctl.headTripN = s.ctl.headTripN ∧ t.ctl.darkN = s.ctl.darkN

theorem State.enterSafeDark_dark (hdev : s.ctl.dev = .configured ∨ s.ctl.dev = .armed ∨ s.ctl.dev = .writing) (cause : Nat) :
    s.DarkAfter (s.enterSafeDark cause) := by
  have hview := State.enterSafeDark_faultView hdev cause
  generalize s.enterSafeDark cause = t at hview
  exact ⟨congrArg (fun v => v.ctl.dev) hview, congrArg (fun v => v.perim.gateClosed) hview, congrArg FaultView.gen hview,
    congrArg (fun v => v.perim.nextSeq) hview, congrArg (fun v => v.ctl.headTripN) hview, congrArg (fun v => v.ctl.darkN) hview⟩

/-- The device is HALTED by a fault of class C4: rings off under a new generation, every domain but AON and CTRL off. -/
def State.HaltedBy (cause die gen : Nat) (t : State) : Prop :=
  t.ctl.dev = .halted ∧ t.ctl.ready = false ∧ t.perim.gateClosed = true ∧ t.perim.lastC4 = some (cause, die)
  ∧ t.hif = { Hif.reset with gen := gen } ∧ ∀ d ∈ t.dies, d.pow.on &&& 0xFC = 0

theorem State.enterHalted_halted (hoff : s.ctl.dev ≠ .off) (hhalted : s.ctl.dev ≠ .halted) {cause die : Nat}
    (hlast : s.perim.lastC4 = some (cause, die)) : s.enterHalted.HaltedBy cause die (s.hif.gen + 1) := by
  unfold State.enterHalted
  rw [if_neg (by simp [hoff, hhalted])]
  have hview : (s.closeGates.setDev .halted).interruptStripe.faultView = s.faultView.gatesClosed.inDev .halted := by
    rw [State.interruptStripe_faultView, State.setDev_faultView, State.closeGates_faultView]
  generalize (s.closeGates.setDev .halted).interruptStripe = cut at hview
  have hgen : cut.hif.gen = s.hif.gen := congrArg (fun v => v.hif.gen) hview
  have hlast' : cut.perim.lastC4 = s.perim.lastC4 := congrArg (fun v => v.perim.lastC4) hview
  refine ⟨congrArg (fun v => v.ctl.dev) hview, rfl, congrArg (fun v => v.perim.gateClosed) hview, hlast'.trans hlast,
    congrArg (fun n => { Hif.reset with gen := n + 1 }) hgen, fun d hd => ?_⟩
  obtain ⟨x, -, rfl⟩ := List.mem_map.1 hd
  show (x.pow.on &&& ~~~(0xFC : BitVec 8)) &&& 0xFC = 0
  rw [BitVec.and_assoc]
  simp

end

/-! ### Detections (R379-R384) -/

/-- A cause that is not counted, is not permanent at its first detection, and then fails no unit (Table 15-6). -/
def passingCause (cause : Nat) : Prop :=
  causePermCount cause = none ∧ causePermAtDetection cause = false ∧ cause ≠ 0x0008

section
variable {s : State} {cause die unit : Nat} {d0 d1 : Word}

theorem State.failUnit_passing (h : passingCause cause) : s.failUnit cause die unit false = s := by
  obtain ⟨-, hpermanent, h8⟩ := h
  have hcauses : cause ≠ 0x0009 ∧ cause ≠ 0x0025 ∧ cause ≠ 0x0026 := by simpa [causePermAtDetection] using hpermanent
  obtain ⟨h9, h25, h26⟩ := hcauses
  simp only [State.failUnit, h8, h9, h25, h26, Bool.false_and, Bool.or_false, decide_false, and_false, or_false, Bool.false_eq_true,
    if_false]
  show { s with dies := s.dies.modify die id } = s
  rw [List.modify_id]

/-- On an idle queue a fault of class C3 takes the device dark, and its record enters queue and log. -/
theorem State.detect_dark (h : passingCause cause) (hcls : causeClass cause die = 3) (ha : s.perim.active = none)
    (hw : s.perim.waiting = []) : let t := s.enterSafeDark (darkLedgerCause cause)
    s.detect cause die unit d0 d1 = t.enqueue (t.newRecord cause die unit 3 false false d0 d1 (s.before cause die unit)) := by
  dsimp only
  have hfail := State.failUnit_passing (s := s) (die := die) (unit := unit) h
  obtain ⟨hcount, hpermanent, -⟩ := h
  obtain ⟨hactive, hwaiting⟩ := s.enterSafeDark_queue (darkLedgerCause cause)
  simp [State.detect, State.react, hfail, hcount, hpermanent, hcls, ha, hactive, hwaiting, hw, mergeWaiting, State.queueDepth]

@[simp] theorem State.enqueue_gateClosed (s : State) (r : FaultRecord) : (s.enqueue r).perim.gateClosed = s.perim.gateClosed := by
  simp [State.enqueue, State.logNew]

@[simp] theorem State.enqueue_nextSeq (s : State) (r : FaultRecord) :
    (s.enqueue r).perim.nextSeq = wrapAdd s.perim.nextSeq 1 := by
  simp [State.enqueue, State.logNew]

/-- What such a detection leaves: the device dark, and the record logged last. -/
theorem State.detect_dark_effect (h : passingCause cause) (hcls : causeClass cause die = 3) (ha : s.perim.active = none)
    (hw : s.perim.waiting = []) (hdev : s.ctl.dev = .configured ∨ s.ctl.dev = .armed ∨ s.ctl.dev = .writing) :
    let t := s.detect cause die unit d0 d1
    t.ctl.dev = .safeDark ∧ t.perim.gateClosed = true ∧ t.locus.gen = none
      ∧ (∃ r, t.perim.log.getLast? = some r ∧ r.cause = cause ∧ r.cls = 3 ∧ r.die = die ∧ r.unit = unit
          ∧ r.seq = s.perim.nextSeq ∧ r.injected = false)
      ∧ t.faultView.ctl.headTripN = s.ctl.headTripN ∧ t.faultView.ctl.darkN = s.ctl.darkN := by
  obtain ⟨hdark, hgate, hgen, hseq, htrip, hpin⟩ := State.enterSafeDark_dark hdev (darkLedgerCause cause)
  rw [State.detect_dark h hcls ha hw]
  dsimp only
  generalize s.enterSafeDark (darkLedgerCause cause) = t at *
  refine ⟨by simp [hdark], by simp [hgate], by simp [hgen],
    ⟨_, State.enqueue_getLast _ _, rfl, rfl, rfl, rfl, hseq, rfl⟩, ?_, ?_⟩
  · rw [State.enqueue, State.signal_faultView]
    exact htrip
  · rw [State.enqueue, State.signal_faultView]
    exact hpin

/-! ### A fault of class C4 -/

variable {gen : Nat}

theorem State.HaltedBy.signal (h : s.HaltedBy cause die gen) (v : Nat) : (s.signal v).HaltedBy cause die gen := by
  have hview := s.signal_faultView v
  have hhif := s.signal_hif v
  have hdies := s.signal_dies v
  generalize s.signal v = t at *
  obtain ⟨hdev, hready, hgate, hlast, hrings, hdomains⟩ := h
  have hctl := congrArg (fun w => (w.ctl.dev, w.ctl.ready, w.perim.gateClosed, w.perim.lastC4)) hview
  simp only [State.faultView, State.unreported, Prod.mk.injEq] at hctl
  simp only [State.HaltedBy, hctl, hhif, hdies]
  exact ⟨hdev, hready, hgate, hlast, hrings, hdomains⟩

theorem State.HaltedBy.enqueue (h : s.HaltedBy cause die gen) (r : FaultRecord) : (s.enqueue r).HaltedBy cause die gen :=
  State.HaltedBy.signal (s := State.logNew { s with perim.waiting := insertRecord r s.perim.waiting } r) h 2

/-- SAFE_DARK is not entered from HALTED. -/
theorem State.HaltedBy.enterSafeDark (h : s.HaltedBy cause die gen) (c : Nat) : (s.enterSafeDark c).HaltedBy cause die gen := by
  rw [State.enterSafeDark, if_neg (by simp [h.1])]
  exact h

theorem State.HaltedBy.storm (h : s.HaltedBy cause die gen) (b : Before) : (s.storm b).HaltedBy cause die gen := by
  unfold State.storm State.draw
  dsimp only
  split
  · exact h
  · refine State.HaltedBy.enterSafeDark (State.HaltedBy.enqueue ?_ _) _
    exact h

/-- A fault of class C4 without a permanent entry halts a device that runs, whatever the queue holds. -/
theorem State.detect_halts (h : passingCause cause) (hcls : causeClass cause die = 4) (hclass : causePermClass cause = none)
    (hrun : s.running = true) : (s.detect cause die unit d0 d1).HaltedBy cause die (s.hif.gen + 1) := by
  have hfail := State.failUnit_passing (s := s) (die := die) (unit := unit) h
  obtain ⟨hcount, hpermanent, -⟩ := h
  have hdev : s.ctl.dev ≠ .off ∧ s.ctl.dev ≠ .halted := by
    constructor <;> intro hdev <;> simp [State.running, hdev] at hrun
  have hreact : s.react cause die unit 4 false = State.enterHalted { s with perim.lastC4 := some (cause, die) } := by
    simp [State.react, hfail]
  have hhalted : (s.react cause die unit 4 false).HaltedBy cause die (s.hif.gen + 1) := by
    rw [hreact]
    exact State.enterHalted_halted (s := { s with perim.lastC4 := some (cause, die) }) hdev.1 hdev.2 rfl
  simp only [State.detect, hcount, hpermanent, hcls, hclass, Option.isSome_none, Bool.and_false, Bool.or_false,
    Bool.false_eq_true, if_false]
  generalize s.react cause die unit 4 false = t at hhalted
  split
  · split <;> exact hhalted
  · split
    · exact hhalted
    · split
      · exact hhalted.storm _
      · exact hhalted.enqueue _

end

end Sys2Proof.Machine
end

section
/-! SUPPORT. Reported faults and the policy steps (15_safety_faults.md R379-R387, R494, R495, Tables 15-3, 15-4). -/

namespace Sys2Proof.Machine

/-! ### Reports -/

section
variable {s : State} {cause die unit : Nat}

/-- A fault of a die that runs is detected. -/
theorem State.report_detects (hrun : s.running = true) (hdie : die < s.nDies) (hon : s.domOn die 1 = true) (hpos : 0 < cause)
    (hmax : cause ≤ 0x26) (d0 d1 : Word) : s.report cause die unit d0 d1 = s.detect cause die unit d0 d1 := by
  have hexists : ¬s.nDies ≤ die := by omega
  have hnonzero : cause ≠ 0 := by omega
  have hknown : ¬0x26 < cause := by omega
  simp [State.report, hrun, hexists, hon, hnonzero, hknown]

/-- One whose details the spec leaves open is detected with a free value. -/
theorem State.reportOpen_detects (hrun : s.running = true) (hdie : die < s.nDies) (hon : s.domOn die 1 = true) (hpos : 0 < cause)
    (hmax : cause ≤ 0x26) (d1 : Word) : s.reportOpen cause die unit d1 =
      State.detect { s with free := s.free + 1 } cause die unit (Config.freeWord s.free) d1 :=
  State.report_detects (s := { s with free := s.free + 1 }) hrun hdie hon hpos hmax _ _

/-- One of class C4 halts the device. -/
theorem State.reportOpen_halts (hrun : s.running = true) (hdie : die < s.nDies) (hon : s.domOn die 1 = true)
    (hcause : 0 < cause ∧ cause ≤ 0x26 ∧ passingCause cause) (hcls : causeClass cause die = 4) (hclass : causePermClass cause = none)
    (d1 : Word) : (s.reportOpen cause die unit d1).HaltedBy cause die (s.hif.gen + 1) := by
  obtain ⟨hpos, hmax, hpassing⟩ := hcause
  rw [State.reportOpen_detects hrun hdie hon hpos hmax]
  exact State.detect_halts (s := { s with free := s.free + 1 }) hpassing hcls hclass hrun

/-- One of class C3 takes the device dark, and its record is logged last. -/
theorem State.reportOpen_dark (hrun : s.running = true) (hdie : die < s.nDies) (hon : s.domOn die 1 = true)
    (hcause : 0 < cause ∧ cause ≤ 0x26 ∧ passingCause cause) (hcls : causeClass cause die = 3) (hdark : s.ctl.dev ≠ .safeDark)
    (ha : s.perim.active = none) (hw : s.perim.waiting = []) (d1 : Word) : let t := s.reportOpen cause die unit d1
    t.ctl.dev = .safeDark ∧ t.perim.gateClosed = true
      ∧ ∃ r, t.perim.log.getLast? = some r ∧ r.cause = cause ∧ r.cls = 3 ∧ r.die = die ∧ r.unit = unit := by
  obtain ⟨hpos, hmax, hpassing⟩ := hcause
  rw [State.reportOpen_detects hrun hdie hon hpos hmax]
  obtain ⟨hdev, hgate, -, ⟨r, hlast, hrcause, hrcls, hrdie, hrunit, -, -⟩, -, -⟩ := State.detect_dark_effect
    (s := { s with free := s.free + 1 }) (unit := unit) (d0 := Config.freeWord s.free) (d1 := d1) hpassing hcls ha hw
    (State.running_dev hrun hdark)
  exact ⟨hdev, hgate, r, hlast, hrcause, hrcls, hrdie, hrunit⟩

/-- A cause of class C1 on some die is so on every die, and is not permanent at detection. -/
theorem minorCause_of_class (hcls : causeClass cause die = 1) (hcount : causePermCount cause = none) : minorCause cause := by
  have h24 : cause ≠ 0x0024 := by
    rintro rfl
    unfold causeClass at hcls
    split at hcls
    · split at hcls <;> omega
    · contradiction
  refine ⟨hcount, ?_, fun d => ?_⟩
  · have hpermanent : cause ≠ 0x0009 ∧ cause ≠ 0x0025 ∧ cause ≠ 0x0026 := by
      refine ⟨?_, ?_, ?_⟩ <;> rintro rfl <;> exact absurd hcls (by simp [causeClass])
    simpa [causePermAtDetection] using hpermanent
  · unfold causeClass at hcls ⊢
    rwa [if_neg h24] at hcls ⊢

end

/-- A monitor fault reads the die's regulators before it is reported (16 R410). -/
theorem execVoltageMonitorFault_emits (s : State) {die : Nat} (hdie : die < s.nDies) (rail : Nat) (status : List Nat) :
    ∃ es, execVoltageMonitorFault die rail status s = .next
      ((s.emits es).reportOpen 0x001B die rail (BitVec.ofNat 32 ((status.find? (· != 0)).getD 0))) := by
  simp only [execVoltageMonitorFault, hdie, if_true]
  exact ⟨_, rfl⟩

/-! ### Policy steps -/

section
variable (s : State)

@[simp] theorem State.updateReplace_perim : s.updateReplace.perim = { s.perim with replace := s.replaceBits != 0 } := by
  unfold State.updateReplace
  dsimp only
  split
  · exact State.signal_perim _ _
  · rfl

@[simp] theorem State.updateReplace_hif : s.updateReplace.hif = s.hif := congrArg BootView.hif s.updateReplace_bootView

variable {s} {r : FaultRecord} {k : Nat}

/-- The active record goes on while its action has steps left. -/
theorem State.policyStep_continues (ha : s.perim.active = some (r, k)) (hmore : k + 1 < actionSteps r.action) :
    s.policyStep = { s with perim.active := some (r, k + 1) } := by
  simp [State.policyStep, ha, hmore]

/-- With its last step it closes; an action of none does nothing else. -/
theorem State.policyStep_closes (ha : s.perim.active = some (r, k)) (hlast : actionSteps r.action ≤ k + 1) (hnone : r.action = 0) :
    s.policyStep = (State.count { s with perim.active := none } 0 163 1).logRecord { r with closed := true } := by
  have hdone : ¬k + 1 < actionSteps 0 := by rw [hnone] at hlast; omega
  simp [State.policyStep, ha, hdone, State.closeRecord, State.act, hnone]

/-- A policy step handles the active record where no record waits. -/
theorem execFaultPolicyStep_active (hrun : s.running = true) (ha : s.perim.active = some (r, k)) (hw : s.perim.waiting = []) :
    execFaultPolicyStep s = .next s.policyStep.stormEnd.updateReplace := by
  have hsame : s.preempt = s := by simp [State.preempt, ha, hw]
  simp [execFaultPolicyStep, hrun, hsame, ha]

/-- Without an active record it takes up the one that waits, unless that is moot. -/
theorem execFaultPolicyStep_picks (hrun : s.running = true) (ha : s.perim.active = none) (hw : s.perim.waiting = [r])
    (hmoot : s.moot r = false) :
    execFaultPolicyStep s = .next
      (State.policyStep { s with perim.waiting := [], perim.active := some (r, 0) }).stormEnd.updateReplace := by
  have hsame : s.preempt = s := by simp [State.preempt, ha]
  simp [execFaultPolicyStep, hrun, hsame, ha, hw, State.pickRecord, hmoot]

/-- Cause STORM stays while a record is active. -/
theorem State.stormEnd_active (ha : s.perim.active.isSome = true) : s.stormEnd = s := by
  simp [State.stormEnd, State.queueDepth, ha]

/-- It ends with an empty queue. -/
theorem State.stormEnd_idle (ha : s.perim.active = none) (hw : s.perim.waiting = []) :
    s.stormEnd = { s with perim.stormActive := false } := by
  simp [State.stormEnd, State.queueDepth, ha, hw]

end

/-- Settles O46: a report by its class, a policy step by the steps left. -/
theorem faultReports : Obligations.FaultReports := by
  unfold Obligations.FaultReports
  refine ⟨fun s cause die unit a b hrun hdie hon hpos hmax hcls hcount hhost ha => ?minor, fun s die hrun hdie hon => ?halts,
    fun s die unit status hrun hdie hon hdark ha hw => ?dark, fun s hrun => ?waits, fun s r k hrun ha hw =>
    ⟨fun hmore => ?continues, fun hlast hnone => ?closes⟩, fun s r hrun ha hw hmoot hmore => ?picks⟩
  case minor =>
    have hminor := minorCause_of_class hcls hcount
    have hexec : exec (.faultReport cause die unit a b) s = .next (s.detect cause die unit a b) := by
      show execFaultReport cause die unit a b s = _
      simp [execFaultReport, hhost, State.report_detects hrun hdie hon hpos hmax]
    refine ⟨fun hw => ⟨_, hexec, ?_⟩, fun r hw hcause hdie' hunit => ⟨_, hexec, ?_⟩⟩
    · rw [State.detect_minor_new hminor ha (by simp [hw, mergeWaiting]) (by simp [hw])]
      exact ⟨_, by simp [hw, insertRecord], State.enqueue_getLast _ _, rfl, rfl, rfl, rfl, rfl, rfl, rfl, rfl, rfl, rfl, rfl, rfl,
        by simp, by simp, by simp, by simp, by simp⟩
    · have hmerged : mergeWaiting cause die unit s.perim.waiting = some (r.again, [r.again]) := by
        simp [hw, mergeWaiting, FaultRecord.same, hcause, hdie', hunit]
      rw [State.detect_minor_again hminor ha hmerged]
      exact ⟨rfl, rfl, by simp [State.logRecord], rfl, rfl⟩
  case halts =>
    exact ⟨⟨_, rfl, State.reportOpen_halts hrun hdie hon ⟨by decide, by decide, rfl, rfl, by decide⟩ rfl rfl 0⟩,
      ⟨_, rfl, State.reportOpen_halts hrun hdie hon ⟨by decide, by decide, rfl, rfl, by decide⟩ rfl rfl 0⟩⟩
  case dark =>
    refine ⟨⟨_, rfl, State.reportOpen_dark hrun hdie hon ⟨by decide, by decide, rfl, rfl, by decide⟩ rfl hdark ha hw 0⟩,
      ⟨_, rfl, State.reportOpen_dark hrun hdie hon ⟨by decide, by decide, rfl, rfl, by decide⟩ rfl hdark ha hw 0⟩, ?_⟩
    obtain ⟨es, hexec⟩ := execVoltageMonitorFault_emits s hdie unit status
    exact ⟨_, hexec, State.reportOpen_dark (s := s.emits es) hrun hdie hon ⟨by decide, by decide, rfl, rfl, by decide⟩ rfl hdark ha hw _⟩
  case waits =>
    show execFaultPolicyStep s = _
    simp [execFaultPolicyStep, hrun]
  case continues =>
    refine ⟨_, execFaultPolicyStep_active hrun ha hw, ?_⟩
    rw [State.policyStep_continues ha hmore, State.stormEnd_active rfl]
    simp
  case closes =>
    refine ⟨_, execFaultPolicyStep_active hrun ha hw, ?_⟩
    rw [State.policyStep_closes ha hlast hnone, State.stormEnd_idle (by simp [State.logRecord]) (by simp [State.logRecord, hw])]
    simp [State.logRecord]
  case picks =>
    refine ⟨_, execFaultPolicyStep_picks hrun ha hw hmoot, ?_⟩
    rw [State.policyStep_continues (k := 0) rfl hmore, State.stormEnd_active rfl]
    simp

end Sys2Proof.Machine
end

section
/-! SUPPORT. Fault commands (15_safety_faults.md R373, R375, R393, R397-R399, R496; 09_stripes_ledger.md R234): what the pins and the
requests detect, and the retirement of a die under no stripe. -/

namespace Sys2Proof.Machine

/-! ### The state check of a row (R59) -/

section
variable {s : State} {op : Nat} {p : Packet} {r : OpRow}

/-- A command that runs passed the checks of its packet, of the device state, and of the die it names. -/
theorem State.takes_row (hop : op < 2 ^ 16) (hr : opRow op = some r) (h : s.Takes op p) :
    s.targetOk r.target p.target = true ∧ r.states / s.ctl.dev.mask % 2 = 1 ∧ s.ctl.dev.mask ≠ 0
      ∧ (r.target = .die → p.isDev = false → (s.die p.target).retired = false) := by
  obtain ⟨-, hcheck⟩ := h
  unfold State.preCheck at hcheck
  rw [Packet.ofRow_opcode hop, hr] at hcheck
  dsimp only at hcheck
  split at hcheck
  · contradiction
  split at hcheck
  · contradiction
  next hpacket =>
    split at hcheck
    · contradiction
    next hstate =>
      simp only [Bool.not_eq_true', Bool.not_eq_false, State.packetOk, Bool.and_eq_true] at hpacket
      obtain ⟨-, htarget⟩ := hpacket
      simp only [Bool.or_eq_true, decide_eq_true_eq, not_or] at hstate
      refine ⟨by simpa using htarget, by omega, hstate.2, fun hdie hdev => ?_⟩
      by_contra hretired
      simp [hdie, hdev, hretired] at hcheck

end

/-! ### Going dark on request or on a pin -/

section
variable {s : State}

/-- SAFE_DARK_REQ runs only where SAFE_DARK can be entered. -/
theorem State.takes_safeDarkReq {p : Packet} (h : s.Takes 0x0801 p) :
    s.ctl.dev = .configured ∨ s.ctl.dev = .armed ∨ s.ctl.dev = .writing := by
  obtain ⟨-, hstate, hmask, -⟩ := State.takes_row (r := ⟨true, 7, .dev, 0⟩) (by decide) rfl h
  cases hdev : s.ctl.dev <;> simp [hdev, DevState.mask] at hstate hmask ⊢

/-- The gates closed before a detection leave the queue and the device state. -/
theorem State.closeGates_kept (s : State) : s.closeGates.ctl.dev = s.ctl.dev ∧ s.closeGates.perim.active = s.perim.active
    ∧ s.closeGates.perim.waiting = s.perim.waiting ∧ s.closeGates.perim.nextSeq = s.perim.nextSeq
    ∧ s.closeGates.ctl.headTripN = s.ctl.headTripN ∧ s.closeGates.ctl.darkN = s.ctl.darkN := by
  have hview := s.closeGates_faultView
  generalize s.closeGates = t at hview
  exact ⟨congrArg (fun v => v.ctl.dev) hview, congrArg (fun v => v.perim.active) hview,
    congrArg (fun v => v.perim.waiting) hview, congrArg (fun v => v.perim.nextSeq) hview,
    congrArg (fun v => v.ctl.headTripN) hview, congrArg (fun v => v.ctl.darkN) hview⟩

end

/-- The device is dark in SAFE_DARK, and a C3 record of a cause, with the sequence number given, was logged last. -/
def State.DarkWith (cause seq : Nat) (t : State) : Prop :=
  t.ctl.dev = .safeDark ∧ t.perim.gateClosed = true ∧ t.locus.gen = none
  ∧ ∃ r, t.perim.log.getLast? = some r ∧ r.cause = cause ∧ r.cls = 3 ∧ r.seq = seq ∧ r.injected = false

theorem State.DarkWith.of_faultView {cause seq : Nat} {t u : State} (h : t.DarkWith cause seq) (hview : u.faultView = t.faultView) :
    u.DarkWith cause seq := by
  have hdev : u.ctl.dev = t.ctl.dev := congrArg (fun v => v.ctl.dev) hview
  have hgate : u.perim.gateClosed = t.perim.gateClosed := congrArg (fun v => v.perim.gateClosed) hview
  have hgen : u.locus.gen = t.locus.gen := congrArg FaultView.gen hview
  have hlog : u.perim.log = t.perim.log := congrArg (fun v => v.perim.log) hview
  simp only [State.DarkWith, hdev, hgate, hgen, hlog]
  exact h

/-- A detection of class C3 whose details the spec leaves open, on an idle queue. -/
theorem State.detectOpen_dark {s : State} {cause : Nat} (h : passingCause cause) (hcls : causeClass cause 0 = 3)
    (ha : s.perim.active = none) (hw : s.perim.waiting = [])
    (hdev : s.ctl.dev = .configured ∨ s.ctl.dev = .armed ∨ s.ctl.dev = .writing) :
    (s.detectOpen cause 0 0 0).DarkWith cause s.perim.nextSeq ∧ (s.detectOpen cause 0 0 0).ctl.headTripN = s.ctl.headTripN
      ∧ (s.detectOpen cause 0 0 0).ctl.darkN = s.ctl.darkN := by
  obtain ⟨hdark, hgate, hgen, ⟨r, hlast, hcause, hclass, -, -, hseq, hinjected⟩, htrip, hpin⟩ := State.detect_dark_effect
    (s := { s with free := s.free + 1 }) (unit := 0) (d0 := Config.freeWord s.free) (d1 := 0) h hcls ha hw hdev
  exact ⟨⟨hdark, hgate, hgen, r, hlast, hcause, hclass, hseq, hinjected⟩, htrip, hpin⟩

/-- The gates close first on a pin. -/
theorem State.closeGates_detectOpen_dark {s : State} {cause : Nat} (h : passingCause cause) (hcls : causeClass cause 0 = 3)
    (hrun : s.running = true) (hdark : s.ctl.dev ≠ .safeDark) (ha : s.perim.active = none) (hw : s.perim.waiting = []) :
    let t := s.closeGates.detectOpen cause 0 0 0
    t.DarkWith cause s.perim.nextSeq ∧ t.ctl.headTripN = s.ctl.headTripN ∧ t.ctl.darkN = s.ctl.darkN := by
  obtain ⟨hdev, hactive, hwaiting, hseq, htrip, hpin⟩ := s.closeGates_kept
  have heffect := State.detectOpen_dark (s := s.closeGates) h hcls (hactive.trans ha) (hwaiting.trans hw)
    (by rw [hdev]; exact State.running_dev hrun hdark)
  rwa [hseq, htrip, hpin] at heffect

/-! ### Retirement of a die under no stripe (R393) -/

/-- What a report leaves of a die: whether it is retired, its supply, its lanes. -/
def Die.standing (d : Die) : Bool × Pow × List Lane := (d.retired, d.pow, d.lanes)

theorem State.die_standing_of_sameBut {s t : State} (h : s.SameBut t) (j : Nat) : (t.die j).standing = (s.die j).standing := by
  have hrep (u : State) : (u.unreported.die j).standing = (u.die j).standing := by
    cases hd : u.dies[j]? <;> simp [State.unreported, State.die_eq_getElem?, hd, Die.standing]
  rw [← hrep t, ← hrep s, h]

/-- A die when it is retired: dark, its lanes with it. -/
def State.retiredDie (s : State) (x : Die) : Die :=
  { x with
    retired := true
    frozen := s.freezeDie x
    lanes := x.lanes.map fun l =>
      let x := { l with retired := true, state := .retired, power := .off }
      { x with frozen := if l.retired then l.frozen else s.laneWindow x
               groups := 0, firstGroup := 0, recs := [], elems := [], echoes := [] } }

/-- Every die stops the passes whose coarse pass has begun. -/
def State.passesStopped (s : State) : State :=
  s.renderingPasses.foldl (fun s w =>
    let rows := (s.stripe? w.1).elim 0 fun st => st.root.rows
    s.modDies (Die.stopPass w.1 w.2 true rows)) s

section
variable {s : State} {d : Nat}

/-- Stopping passes leaves the control registers, the queue of stripes and each die's standing. -/
theorem State.passesStopped_effect (s : State) : s.passesStopped.ctl = s.ctl ∧ s.passesStopped.seq = s.seq
    ∧ s.passesStopped.dies.length = s.dies.length ∧ ∀ i, (s.passesStopped.die i).standing = (s.die i).standing := by
  unfold State.passesStopped
  generalize s.renderingPasses = ws
  induction ws generalizing s with
  | nil => exact ⟨rfl, rfl, rfl, fun i => rfl⟩
  | cons w ws ih =>
    rw [List.foldl_cons]
    obtain ⟨hctl, hseq, hlen, hdies⟩ := ih (s.modDies (Die.stopPass w.1 w.2 true ((s.stripe? w.1).elim 0 fun st => st.root.rows)))
    refine ⟨hctl, hseq, hlen.trans (by simp [State.modDies]), fun i => (hdies i).trans ?_⟩
    cases hd : s.dies[i]? <;> simp [State.modDies, State.die_eq_getElem?, hd, Die.standing, Die.stopPass]

theorem State.nextEpoch_idle (hopened : s.seq.opened = []) :
    s.nextEpoch = { s with
      seq.epochs := (s.ctl.epoch, s.laneMap) :: s.seq.epochs, seq.opened := [], ctl.epoch := wrapAdd s.ctl.epoch 1 } := by
  simp only [State.nextEpoch, State.closeEntries, hopened, List.filter_nil, List.foldl_nil]
  rfl

/-- With no stripe admitted and no entry open, a die retires at once: it is dark, and an epoch begins. -/
theorem State.retireDie_idle (hd : d ≠ 0) (hlen : d < s.nDies) (hlive : (s.die d).retired = false) (hstripes : s.seq.stripes = [])
    (hopened : s.seq.opened = []) : let u := s.nextEpoch.passesStopped
    s.retireDie d = ((u.modDie d u.retiredDie).modDie d fun x => x.switchOff 0x78).updateReplace.signal 25 := by
  dsimp only
  have hexists : ¬s.nDies ≤ d := by omega
  have hlose : s.loseDie d = s := by simp [State.loseDie, State.shooting, hstripes]
  have hrate (t : State) (ht : t.seq.stripes = []) : t.rateFell = t := by
    unfold State.rateFell
    split <;> simp_all
  have hreserve (t : State) (ht : t.seq.stripes = []) : t.checkReserve = t := by
    simp [State.checkReserve, State.executing?, ht]
  obtain ⟨-, hseq, -, -⟩ := s.nextEpoch.passesStopped_effect
  have hqueue : s.nextEpoch.passesStopped.seq.stripes = [] := by rw [hseq, State.nextEpoch_idle hopened]; exact hstripes
  simp only [State.retireDie, hd, hexists, hlive, hlose, decide_false, Bool.or_false, Bool.false_eq_true, if_false]
  rw [hrate _ (by rw [State.updateReplace_seq]; exact hqueue), hreserve _ (by rw [State.signal_seq, State.updateReplace_seq]; exact hqueue)]
  rfl

/-- The retired die is dark: its domains beyond AON, CTRL, FABRIC and IO off, its lanes retired. -/
theorem State.retireDie_die (hd : d ≠ 0) (hlen : d < s.nDies) (hdies : d < s.dies.length) (hlive : (s.die d).retired = false)
    (hstripes : s.seq.stripes = []) (hopened : s.seq.opened = []) : let e := (s.retireDie d).die d
    e.retired = true ∧ e.pow.on = (s.die d).pow.on &&& ~~~0x78
      ∧ ∀ l ∈ e.lanes, l.retired = true ∧ l.state = .retired ∧ l.power = .off := by
  dsimp only
  obtain ⟨-, -, hlength, hstanding⟩ := s.nextEpoch.passesStopped_effect
  have hbefore : (s.nextEpoch.passesStopped.die d).standing = (s.die d).standing := by
    rw [hstanding, State.nextEpoch_idle hopened]
    rfl
  have hlength' : s.nextEpoch.passesStopped.dies.length = s.dies.length := by
    rw [hlength, State.nextEpoch_idle hopened]
  rw [State.retireDie_idle hd hlen hlive hstripes hopened]
  generalize s.nextEpoch.passesStopped = u at *
  have hdie : ((((u.modDie d u.retiredDie).modDie d fun x => x.switchOff 0x78).updateReplace.signal 25).die d) =
      (u.retiredDie (u.die d)).switchOff 0x78 := by
    have hu : d < u.dies.length := by omega
    rw [State.die_congr (State.signal_dies _ _), State.die_congr (State.updateReplace_dies _),
      State.die_modDie _ _ _ (by simpa [State.modDie] using hu), State.die_modDie _ _ _ hu]
  rw [hdie]
  simp only [Die.standing, Prod.mk.injEq] at hbefore
  obtain ⟨-, hpow, -⟩ := hbefore
  refine ⟨rfl, ?_, fun l hl => ?_⟩
  · rw [← hpow]
    rfl
  · obtain ⟨x, hx, rfl⟩ := List.mem_map.1 hl
    obtain ⟨y, -, rfl⟩ := List.mem_map.1 hx
    exact ⟨rfl, rfl, rfl⟩

/-- The other dies stand as they did, and an epoch begins. -/
theorem State.retireDie_others (hd : d ≠ 0) (hlen : d < s.nDies) (hlive : (s.die d).retired = false)
    (hstripes : s.seq.stripes = []) (hopened : s.seq.opened = []) :
    (s.retireDie d).ctl.epoch = wrapAdd s.ctl.epoch 1
      ∧ ∀ i, i ≠ d → ((s.retireDie d).die i).standing = (s.die i).standing := by
  obtain ⟨hctl, -, -, hstanding⟩ := s.nextEpoch.passesStopped_effect
  have hepoch : s.nextEpoch.passesStopped.ctl.epoch = wrapAdd s.ctl.epoch 1 := by
    rw [hctl, State.nextEpoch_idle hopened]
  have hbefore (i : Nat) : (s.nextEpoch.passesStopped.die i).standing = (s.die i).standing := by
    rw [hstanding, State.nextEpoch_idle hopened]
    rfl
  rw [State.retireDie_idle hd hlen hlive hstripes hopened]
  generalize s.nextEpoch.passesStopped = u at *
  refine ⟨?_, fun i hi => ?_⟩
  · rw [← hepoch]
    exact congrArg (fun v => v.ctl.epoch) ((State.signal_faultView _ 25).trans (State.updateReplace_faultView _))
  · rw [State.die_congr (State.signal_dies _ _), State.die_congr (State.updateReplace_dies _), ← hbefore]
    simp [hi]

end

/-! ### FAULT_INJECT (R399) -/

/-- An injected detection on an idle queue is recorded as injected, without a reaction. -/
theorem State.detectInjected_idle {s : State} (ha : s.perim.active = none) (hw : s.perim.waiting = []) (cause die unit : Nat) :
    s.detectInjected cause die unit = State.enqueue { s with free := s.free + 1 }
      (State.newRecord { s with free := s.free + 1 } cause die unit (causeClass cause die) false true (Config.freeWord s.free) 0
        (s.before cause die unit)) := by
  simp [State.detectInjected, State.draw, State.queueDepth, ha, hw]

theorem State.detectInjected_effect {s : State} (ha : s.perim.active = none) (hw : s.perim.waiting = []) (cause die unit : Nat) :
    let t := s.detectInjected cause die unit
    (∃ r, t.perim.log.getLast? = some r ∧ r.cause = cause ∧ r.injected = true ∧ r.die = die ∧ r.seq = s.perim.nextSeq)
      ∧ t.ctl.dev = s.ctl.dev ∧ t.perim.gateClosed = s.perim.gateClosed ∧ t.dies.length = s.dies.length := by
  rw [State.detectInjected_idle ha hw]
  exact ⟨⟨_, State.enqueue_getLast _ _, rfl, rfl, rfl, rfl⟩, by simp, by simp, by simp⟩

/-- Settles O45: each command by its checks, the pins by whether the device runs. -/
theorem faultCommands : Obligations.FaultCommands := by
  unfold Obligations.FaultCommands
  refine ⟨fun s p htakes => ⟨fun hcount => ?badCount, fun hmin hmax hempty => ?empty, fun hmin hmax hsome => ?reads⟩,
    fun s ha hw => ⟨fun p htakes => ?request, fun hrun hdark hpin => ?trips, fun hrun hdark hpin => ?darkens⟩,
    fun s => ⟨fun hpin => ?tripped, fun hpin => ?darkened, rfl, rfl⟩, fun s p htakes hinv hstripes hopened =>
    ⟨fun hfirst => ?firstDie, fun hother => ?retires⟩, fun s p env htakes => ⟨fun hnone => ?noInstance,
    fun hid hinst htime => ?gate, fun hid hinst hfound ha hw => ?injected⟩⟩
  case badCount =>
    show execFaultRead p s = _
    rw [execFaultRead, State.direct_takes htakes]
    simp [faultReadBody, hcount, State.cmd]
  case empty =>
    have hgood : ¬(p.param 0 = 0 ∨ 64 < p.param 0) := by omega
    show execFaultRead p s = _
    rw [execFaultRead, State.direct_takes htakes]
    have hsame : ({ s with perim.log := [] } : State) = s := by rw [← hempty]
    simp [faultReadBody, hgood, State.cmd, hempty, hsame]
  case reads =>
    have hgood : ¬(p.param 0 = 0 ∨ 64 < p.param 0) := by omega
    have htaken : s.perim.log.take (p.param 0) ≠ [] := by
      simp only [ne_eq, List.take_eq_nil_iff, hsome, or_false]
      omega
    show execFaultRead p s = _
    rw [execFaultRead, State.direct_takes htakes]
    simp [faultReadBody, hgood, State.cmd, htaken]
  case request =>
    obtain ⟨hdark, -, -⟩ := State.detectOpen_dark (cause := 0x0023) ⟨rfl, rfl, by decide⟩ rfl ha hw (State.takes_safeDarkReq htakes)
    refine ⟨(s.detectOpen 0x0023 0 0 0).finish (s.cmd 0x0801 p) ok [], ?_, hdark.of_faultView (State.finish_faultView _ _ _ _)⟩
    show execSafeDarkReq p s = _
    rw [execSafeDarkReq, State.direct_takes htakes]
    rfl
  case trips =>
    obtain ⟨hdark', htrip, -⟩ := State.closeGates_detectOpen_dark (s := { s with ctl.headTripN := true }) (cause := 0x0013)
      ⟨rfl, rfl, by decide⟩ rfl hrun hdark ha hw
    refine ⟨_, ?_, hdark', htrip⟩
    show execHeadTripNAsserted s = _
    have hrun' : State.running { s with ctl.headTripN := true } = true := hrun
    simp only [execHeadTripNAsserted, hpin, Bool.false_eq_true, if_false, hrun', if_true]
  case darkens =>
    obtain ⟨hdark', -, hpin'⟩ := State.closeGates_detectOpen_dark (s := { s with ctl.darkN := true }) (cause := 0x0022)
      ⟨rfl, rfl, by decide⟩ rfl hrun hdark ha hw
    refine ⟨_, ?_, hdark', hpin'⟩
    show execDarkNAsserted s = _
    have hrun' : State.running { s with ctl.darkN := true } = true := hrun
    simp only [execDarkNAsserted, hpin, Bool.false_eq_true, if_false, hrun', if_true]
  case tripped =>
    show execHeadTripNAsserted s = _
    simp [execHeadTripNAsserted, hpin]
  case darkened =>
    show execDarkNAsserted s = _
    simp [execDarkNAsserted, hpin]
  case firstDie =>
    show execDieRetire p s = _
    rw [execDieRetire, State.direct_takes htakes]
    simp [dieRetireBody, hfirst, State.cmd]
  case retires =>
    obtain ⟨htarget, -, -, hretired⟩ := State.takes_row (r := ⟨false, 15, .die, 0⟩) (by decide) rfl htakes
    have hlen : p.target < s.nDies := by simpa [State.targetOk] using htarget
    have hdev : p.isDev = false := by
      have hdies : s.nDies ≤ 8 := by unfold State.nDies; cases s.fuses.variant <;> decide
      have hne : p.target ≠ 0xFFFF := by omega
      simpa [Sys2Proof.Packet.isDev] using hne
    have hlive := hretired rfl hdev
    have hdies : p.target < s.dies.length := by rw [hinv.length_dies]; exact hlen
    obtain ⟨hgone, hoff, hlanes⟩ := State.retireDie_die hother hlen hdies hlive hstripes hopened
    obtain ⟨hepoch, hothers⟩ := State.retireDie_others hother hlen hlive hstripes hopened
    refine ⟨(s.retireDie p.target).finish (s.cmd 0x0802 p) ok [(s.retireDie p.target).columnsWord], ?_, ?_⟩
    · show execDieRetire p s = _
      rw [execDieRetire, State.direct_takes htakes]
      simp [dieRetireBody, hother, State.cmd]
    · have hreport := State.finish_unreported (s.retireDie p.target) (s.cmd 0x0802 p) ok [(s.retireDie p.target).columnsWord]
      generalize (s.retireDie p.target).finish (s.cmd 0x0802 p) ok [(s.retireDie p.target).columnsWord] = t at hreport
      have hstanding := State.die_standing_of_sameBut hreport
      have hepoch' := congrArg (fun v => v.ctl.epoch) (State.faultView_of_sameBut _ hreport)
      generalize s.retireDie p.target = u at *
      simp only [Die.standing, Prod.mk.injEq] at hstanding hothers
      simp only [hstanding]
      exact ⟨hgone, hoff, hlanes, hepoch'.trans hepoch, fun i hi => ⟨(hothers i hi).1, (hothers i hi).2.2⟩⟩
  case noInstance =>
    show execFaultInject p env s = _
    rw [execFaultInject, State.direct_takes htakes]
    simp [faultInjectBody, hnone, State.cmd]
  case gate =>
    have hmin : min (wordAt env 0) 0xFFFF = wordAt env 0 := by omega
    show execFaultInject p env s = _
    rw [execFaultInject, State.direct_takes htakes]
    simp [faultInjectBody, hid, hinst, htime, State.gateTest, injectInstance, State.cmd, hmin]
  case injected =>
    refine ⟨(s.detectInjected 0x001C p.target 0).finish (s.cmd 0x0803 p) ok [], ?_, ?_⟩
    · show execFaultInject p env s = _
      rw [execFaultInject, State.direct_takes htakes]
      simp [faultInjectBody, hid, hinst, hfound, injectInstance, injectCause, injectUnit, State.cmd]
    · obtain ⟨⟨r, hlast, hcause, hinjected, hdie, hseq⟩, hdev, hgate, hdies⟩ :=
        State.detectInjected_effect ha hw 0x001C p.target 0
      have hreport := State.finish_unreported (s.detectInjected 0x001C p.target 0) (s.cmd 0x0803 p) ok []
      generalize (s.detectInjected 0x001C p.target 0).finish (s.cmd 0x0803 p) ok [] = t at hreport
      generalize s.detectInjected 0x001C p.target 0 = u at *
      have hview := State.faultView_of_sameBut _ hreport
      have hlog : t.perim.log = u.perim.log := congrArg (fun v => v.perim.log) hview
      refine ⟨⟨r, by rw [hlog]; exact hlast, hcause, hinjected, hdie, hseq⟩, (congrArg (fun v => v.ctl.dev) hview).trans hdev,
        (congrArg (fun v => v.perim.gateClosed) hview).trans hgate, ?_⟩
      rw [← hdies]
      simpa [State.unreported] using congrArg (fun w : State => w.dies.length) hreport

end Sys2Proof.Machine
end
